-- ==== Sys2Proof/Word.lean ====
section
/-! DEFINITION. The words that the machine moves: the widths of registers, addresses and lines. -/

namespace Sys2Proof

/-- A byte. -/
abbrev Byte := BitVec 8
/-- A 32-bit word: a vector register, an instruction word. -/
abbrev Word := BitVec 32
/-- A 64-bit word: a scalar register, an address. -/
abbrev DWord := BitVec 64
/-- The 128 bytes of a line (R26), byte 0 in the lowest bits (R8). -/
abbrev LineData := BitVec 1024

/-- One bit from a condition. -/
def bit (c : Bool) : BitVec 1 := if c then 1#1 else 0#1

/-- A field of a word: `len` bits from bit `lo`. -/
abbrev fld (x : BitVec w) (lo len : Nat) : BitVec len := x.extractLsb' lo len

/-- A field of a word, as a number. -/
abbrev fldN (x : BitVec w) (lo len : Nat) : Nat := (x.extractLsb' lo len).toNat

end Sys2Proof
end

