-- ==== Sys2Proof/Config.lean ====
section
/-! DEFINITION. What the manual leaves to an implementation, and the free values: constants without a
body, so that no proof can rest on a value of theirs. -/

namespace Sys2Proof.Config

/-- Which of the enabled steps of the device's units comes next when the agenda is empty (log 16). -/
opaque choice : Nat → Nat

/-- How many base-die clocks pass with a step (log 4). -/
opaque ticks : Nat → Nat

/-- What a register holds whose contents a `vreg.shrink` has lost (R177, log 19). -/
opaque lost : Nat → Nat → Word

/-- Results of the approximations of R309 within their bounds: a fixed function of the opcode and the
input's bits (log 12). -/
opaque approx : Nat → Word → Word

/-- What TRAP.VA holds for a cause code whose trap has no address and no operand (R414, log 31). -/
opaque trapVA : Nat → BitVec 64

/-- A field of a record of which the manual states no value: a fresh value each time (log 31). -/
opaque unstated : Nat → BitVec 64

/-- What the open state dump window shows at each of its offsets (R474, log 125). -/
opaque dumpWord : Nat → BitVec 64

/-- Where the scheduler firmware puts the result record of an admission (R434, log 40). -/
opaque resultSlot : Nat → Nat

/-- Digests of the firmware images, in the order in which they took over (R485, log 13). -/
opaque firmwareDigest : Nat → BitVec 384

/-- The AES-256-GCM tag of an intact image under a key, a save counter and a team (R458, log 13). -/
opaque gcmTag : BitVec 256 → DWord → Nat → BitVec 128

end Sys2Proof.Config
end

