-- ==== Sys2Proof/Syntax.lean ====
section
/-! DEFINITION. The instruction and event set: one constructor for each row of the opcode table.

The 288 instruction forms carry the operand fields of their words (R185, R186); the 150 device
events carry what identifies the unit, request or message that the step concerns. -/

namespace Sys2Proof

/-- Extension word X-M (R186): the modifiers and the byte offset of a memory instruction. -/
structure XM where
  /-- retention hint (R30) -/
  ret : BitVec 2
  /-- scope (R129) -/
  scope : BitVec 3
  /-- order (R132) -/
  order : BitVec 3
  /-- flags that each instruction names (R321) -/
  mode : BitVec 4
  /-- signed byte offset (R321) -/
  off : BitVec 20
  deriving DecidableEq, Repr, Inhabited

/-- Increment word X-N of a loop (R186, R194). -/
structure LoopInc where
  /-- body clause, from 0 -/
  cl : BitVec 4
  /-- word of that clause, from 1 after the header -/
  wd : BitVec 4
  /-- field: 0 D, 1 SA, 2 SB, 3 OFF -/
  fld : BitVec 2
  /-- signed step of the field in each pass -/
  step : BitVec 16
  deriving DecidableEq, Repr, Inhabited

/-- A request that arrives at its home: one of the module, with the answer when its home is on another
module (R92), or one that another module forwards: 0 a read, 1 a write, and the opcode of an atomic (R57, R333). With a
request's arrival ECC can meet an error in a line (R88). -/
inductive HomeArrival where
  | own (req : Nat) (poison : Bool) (data : LineData)
  | foreign (node line kind : Nat) (mig : Bool) (mask : BitVec 128) (data : LineData)
  | ecc (line : Nat) (corrected : Bool)
  deriving DecidableEq, Repr

/-- What a home on another module refuses (R27, R52): a request that waits for its answer, with the home's bytes when a
seal refuses it; a write that had gone out; or a chain request for a line of a caching slice. -/
inductive Nacked where
  | request (req : Nat) (value : Option LineData)
  | write (key : Nat)
  | cache (key : Nat)
  deriving DecidableEq, Repr

/-- An answer of another module to a line that an engine reads or writes there: 0 done, 1 poison, 2 refused;
and the bytes read. -/
abbrev LineAnswer := Nat × LineData

/-- Lines of other modules that the firmware or a Stile engine reads, as they have come (R92), by the key of the line. -/
abbrev FarLines := List (Nat × LineData)

/-- The data with which a holder of a line answers, and whether they are poisoned (R121). -/
structure HeldData where
  poison : Bool
  bits : LineData
  deriving DecidableEq, Repr

/-- A half of a line that the host names, and whether its request counts for migration (R105, R110). -/
structure HostHalf where
  half : Nat
  mig : Bool
  deriving DecidableEq, Repr

/-- An admission request of 512 bits (R219), with the lines of other modules that the engine has read for it. -/
structure AdmissionCall where
  request : BitVec 512
  far : FarLines
  deriving DecidableEq, Repr

/-- A submission queue that is served (R427), with the lines of other modules that the firmware has read for it. -/
structure QueueCall where
  queue : Nat
  far : FarLines
  deriving DecidableEq, Repr

/-- What a rank of another module brings to a collective (R346): its rank, control word, lines, and the
lines of its send buffer. -/
structure CollPeer where
  rank : Nat
  ctrl : BitVec 64
  lines : Nat
  data : List LineData
  deriving DecidableEq, Repr

/-- A change that software has made to a saved team's image before its restore (R470): a group by its index, a lane of it,
and a field: a vector register below 128, 128 the predicates, 129 the program counter, 192 + n scalar n. -/
structure ImageEdit where
  group : Nat
  lane : Nat
  field : Nat
  value : BitVec 64
  deriving DecidableEq, Repr

/-- One row of the opcode table: an instruction form, or an event of the device. -/
inductive Instr where
  /-- `VOTE_POINT` (R165). At a cycle in which both fetch ports of a slot are free, the slot forms picks A and B, issues their clauses and updates lane ages. -/
  | votePoint (core : Nat) (slot : Nat)
  /-- `RESULT_RETURN` (R324). A load, stash load, atomic or flask result is written to its destination register, or the lane traps, and c0 counts down in issue order. -/
  | resultReturn (gid : Nat) (op : Nat)
  /-- `COALESCE_TIMEOUT` (R60). A coalescing-buffer entry reaches 512 core cycles after its first store and is drained to its line's home. -/
  | coalesceTimeout (core : Nat) (line : Nat)
  /-- `STORE_DRAIN` (R60). The masked write of a coalescing-buffer entry performs at the line's home, or is refused there, and c1 counts down. -/
  | storeDrain (core : Nat) (line : Nat)
  /-- `HOME_REQUEST` (R57). A request reaches its line's home slice and is serialised and performed there in order of arrival. -/
  | homeRequest (r : HomeArrival)
  /-- `WALK_COMPLETE` (R41). A page walk finishes, loads a merged TLB entry and sets ACC, or raises a translation fault for the access that caused it. -/
  | walkComplete (guest : Nat) (core : Nat) (va : BitVec 64) (kind : Nat)
  /-- `STASH_FILL_RETURN` (R70). A stash fill returns data or poison; the line becomes clean, or invalid, and the waiting touches perform. -/
  | stashFillReturn (core : Nat) (line : Nat)
  /-- `STASH_READ_RECALL` (R70). The home asks a stash that owns a line for it; a dirty line is written back and the line is supplied. -/
  | stashReadRecall (core : Nat) (line : Nat)
  /-- `STASH_WRITE_RECALL` (R70). The home takes ownership back from a stash; a dirty line is written back and the line becomes invalid. -/
  | stashWriteRecall (core : Nat) (line : Nat)
  /-- `OUTSTANDING_ENTRY_FREE` (R86). An entry of the outstanding-request table is answered and freed, and the oldest waiting request is sent. -/
  | outstandingEntryFree (core : Nat) (req : Nat)
  /-- `STICKY_QUOTA_WRITE` (R64). A write of STICKY.QUOTA[c] sets the sticky limit of a class, which takes effect in each slice within 1,024 base-die clocks. -/
  | stickyQuotaWrite (c : Nat) (v : BitVec 64)
  /-- `FLASK_REQUEST_AT_HOME` (R79). A flask operation arrives at the flask home, is checked and applied to the state table, and its status is answered. -/
  | flaskRequestAtHome (req : Nat)
  /-- `READ` (R98). A READ for a sys line reaches the home, which sends DATA or FETCH, or queues or retries the request. -/
  | read (line : Nat) (src : BitVec 37) (inc : BitVec 8) (mig : Bool)
  /-- `OWN` (R98). An OWN for a sys line reaches the home, which sends GRANT or RECALL, or queues or retries the request. -/
  | own (line : Nat) (src : BitVec 37) (inc : BitVec 8) (mig : Bool)
  /-- `UNHEAD` (R98). The head entry asks the home to replace HEAD with its forward neighbour, and the home answers ACK or NOT_HEAD. -/
  | unhead (line : Nat) (src : BitVec 37) (inc : BitVec 8) (fwd : BitVec 37)
  /-- `DONE` (R98). The writer reports the end of its purge walk, and the home enters EX with the writer as HEAD, or U after a home walk. -/
  | done (line : Nat) (src : BitVec 37) (inc : BitVec 8)
  /-- `WB` (R98). The exclusive holder writes a line back to the home and leaves the chain. -/
  | wb (line : Nat) (src : BitVec 37) (inc : BitVec 8) (dirty : Bool) (data : HeldData)
  /-- `PURGE_ANSWER_COPY` (R98). The home records in its purge table the walk position that a copy of a PURGE answer reports. -/
  | purgeAnswerCopy (line : Nat) (src : BitVec 37) (inc : BitVec 8) (next : BitVec 37)
  /-- `FETCH_ANSWER` (R98). The exclusive holder's answer to FETCH reaches the home, which writes the data and serves the waiting read. -/
  | fetchAnswer (line : Nat) (src : BitVec 37) (inc : BitVec 8) (dirty : Bool) (data : HeldData)
  /-- `RECALL_ANSWER` (R98). The answer to RECALL reaches the home, which writes the data and grants the waiting writer or performs the waiting local request. -/
  | recallAnswer (line : Nat) (src : BitVec 37) (inc : BitVec 8) (dirty : Bool) (data : HeldData)
  /-- `FETCH` (R101). A caching entry in E or M answers with its line and becomes S. -/
  | fetch (line : Nat) (inc : BitVec 8)
  /-- `RECALL` (R101). A caching entry in E or M answers with its line and becomes I. -/
  | recall (line : Nat) (inc : BitVec 8)
  /-- `DATA` (R101). A caching entry in RPEND receives DATA, delivers it and joins the chain, or keeps no copy when the DATA is marked uncached. -/
  | data (line : Nat) (inc : BitVec 8) (oldHead : BitVec 37) (uncached : Bool) (poison : Bool) (data : BitVec 1024)
  /-- `GRANT` (R101). A caching entry in WPEND receives GRANT and becomes E, or starts a purge walk. -/
  | grant (line : Nat) (inc : BitVec 8) (oldHead : BitVec 37) (walkOwn : Bool) (poison : Bool) (data : BitVec 1024)
  /-- `PURGE` (R101). A chain entry receives PURGE, answers with its forward pointer and becomes I. -/
  | purge (line : Nat) (inc : BitVec 8) (walker : BitVec 37)
  /-- `PURGE_ANSWER` (R101). A walking writer receives a purge answer and purges the next entry, or sends DONE. -/
  | purgeAnswer (line : Nat) (src : BitVec 37) (inc : BitVec 8) (next : BitVec 37)
  /-- `SETFWD` (R101). A chain entry is asked to set its forward pointer and applies the request or the UNLINK order rule. -/
  | setfwd (line : Nat) (src : BitVec 37) (inc : BitVec 8) (p : BitVec 37)
  /-- `SETBACK` (R101). A chain entry is asked to set its back pointer and applies the request or the UNLINK order rule. -/
  | setback (line : Nat) (src : BitVec 37) (inc : BitVec 8) (p : BitVec 37)
  /-- `ACK` (R101). An acknowledgement reaches an entry in RATT or UNLINK, which completes its attach or unlink. -/
  | ack (line : Nat) (src : BitVec 37) (inc : BitVec 8)
  /-- `NOT_HEAD` (R101). An unlinking entry learns that it is no longer head and waits for the new head's SETBACK. -/
  | notHead (line : Nat) (inc : BitVec 8)
  /-- `STALE` (R97). A requester receives STALE and treats the addressed neighbour as already gone. -/
  | stale (line : Nat) (src : BitVec 37) (inc : BitVec 8)
  /-- `RETRY` (R99). A requester receives RETRY from a full home and sets a random back-off that doubles with each retry. -/
  | retry (line : Nat) (src : BitVec 37) (inc : BitVec 8)
  /-- `RETRY_RESEND` (R99). The back-off after a RETRY expires and the requester resends READ or OWN. -/
  | retryResend (line : Nat)
  /-- `HOST_READ_SHARED` (R105). A host read for a shared copy of a half arrives at the home, which fetches from an exclusive holder first. -/
  | hostReadShared (line : Nat) (half : HostHalf)
  /-- `HOST_READ_EXCLUSIVE` (R105). A host read for an exclusive copy arrives at the home, which purges or recalls first and marks the half A. -/
  | hostReadExclusive (line : Nat) (half : HostHalf)
  /-- `HOST_WRITE_HALF` (R105). A host write of a full half arrives at the home, which purges or recalls first and marks the half A. -/
  | hostWriteHalf (line : Nat) (half : HostHalf) (data : BitVec 512)
  /-- `HOST_READ_NO_COPY` (R105). A host read that keeps no copy arrives at the home and performs after any FETCH. -/
  | hostReadNoCopy (line : Nat) (half : HostHalf)
  /-- `HOST_WRITEBACK` (R105). A host write-back of a modified half performs at the home, and the host state becomes I. -/
  | hostWriteback (line : Nat) (half : HostHalf) (data : BitVec 512)
  /-- `HOST_EVICT_NOTICE` (R105). A host eviction notice without data sets the half's host state to I. -/
  | hostEvictNotice (line : Nat) (half : Nat)
  /-- `BISNPINV_RESPONSE` (R106). The host's response to a back-invalidation snoop arrives; any modified data is taken and the host state becomes I. -/
  | bisnpinvResponse (line : Nat) (half : Nat) (dirty : Bool) (data : BitVec 512)
  /-- `BISNPDATA_RESPONSE` (R106). The host's response to BISnpData arrives and the host state of the half becomes S. -/
  | bisnpdataResponse (line : Nat) (half : Nat) (dirty : Bool) (data : BitVec 512)
  /-- `HOST_SNOOP_TIMEOUT` (R117). A back-invalidation snoop is not answered within COH.PURGE_DL, and the module declares its host dead. -/
  | hostSnoopTimeout (line : Nat)
  /-- `RDSHARED_DATA` (R108). The host returns data for RdShared, and the half of a host-window line becomes S. -/
  | rdsharedData (line : Nat) (half : Nat) (data : BitVec 512)
  /-- `RDOWN_GRANT` (R108). The host grants ownership for RdOwn; the half becomes E, and then M when the waiting write performs. -/
  | rdownGrant (line : Nat) (half : Nat) (data : BitVec 512)
  /-- `SNPDATA` (R108). A host SnpData snoop on a half is answered, with data if M, and the half becomes S. -/
  | snpdata (line : Nat) (half : Nat)
  /-- `SNPINV` (R108). A host SnpInv snoop on a half is answered, with data if M, and the half becomes I. -/
  | snpinv (line : Nat) (half : Nat)
  /-- `SNPCUR` (R108). A host SnpCur snoop on a half is answered, with data if M, and the state is kept. -/
  | snpcur (line : Nat) (half : Nat)
  /-- `BAR2_READ` (R473). A 64-byte host read through BAR 2 reads HBM at its home, or returns all ones. -/
  | bar2Read (off : Nat)
  /-- `BAR2_WRITE` (R473). A 64-byte host write through BAR 2 writes HBM at its home, or is discarded. -/
  | bar2Write (off : Nat) (data : BitVec 512)
  /-- `OTGER_NACK` (R52). A negative acknowledgement over Otger reaches the requesting module, which reports it as its own source does. -/
  | otgerNack (n : Nacked)
  /-- `MIGRATE` (R114). A MIGRATE request is consumed by the home; it takes a migration-table entry and starts copying, or is answered MOVED, BUSY or BAD. -/
  | migrate (die : Nat)
  /-- `RELEASE` (R115). A RELEASE request ends the forwarding of a copied page and is answered RELEASED or BAD. -/
  | release (die : Nat)
  /-- `MIG_RQTAIL_WRITE` (R124). A write of MIG.RQTAIL rings the migration queue of a base die. -/
  | migRqtailWrite (die : Nat) (v : BitVec 64)
  /-- `MIGRATION_LINE_COPY` (R114). A moved line performs at the destination home and is marked forwarded; after the last line the home writes COPIED. -/
  | migrationLineCopy (die : Nat) (entry : Nat) (ok : Bool)
  /-- `MIG_EPOCH` (R110). Every MIG.EPOCH microseconds the home halves every migration count. -/
  | migEpoch (die : Nat)
  /-- `AGENT_REPORT` (R117). A module's report of an unreachable module reaches the domain manager, which may declare that module dead. -/
  | agentReport (node : Nat) (by_ : Nat)
  /-- `CHAIN_ANSWER_TIMEOUT` (R117). A chain message sent to a module is not answered within COH.PURGE_DL, and the module is reported to the manager. -/
  | chainAnswerTimeout (line : Nat) (node : Nat)
  /-- `MANAGER_PROBE_TIMEOUT` (R117). 2 x COH.PURGE_DL pass without an answer to the manager's probe, and the manager declares the module dead. -/
  | managerProbeTimeout (node : Nat)
  /-- `DEAD` (R118). A DEAD declaration reaches a module, which increments the incarnation, holds chain requests naming the agent and scans its slices. -/
  | dead (agent : Nat) (inc : Nat)
  /-- `SCAN_DONE` (R118). A module's SCAN_DONE reaches the domain manager. -/
  | scanDone (agent : Nat) (from_ : Nat)
  /-- `RESUME` (R118). The manager's RESUME reaches a module, which answers its held requests under the repair rule. -/
  | resume (agent : Nat)
  /-- `TICKET_GRANT` (R144). A sequencer grants a seqcst instruction a run of tickets, or refuses a fabric ticket. -/
  | ticketGrant (req : Nat) (grant : Bool)
  /-- `ENGINE_START` (R150). An engine operation starts after the earlier range-lock entries that it conflicts with are released. -/
  | engineStart (op : Nat)
  /-- `ENGINE_LINE_PERFORM` (R151). One line of a copy, gather, collective or drain performs, or the operation stops at that line with an error. -/
  | engineLinePerform (op : Nat) (answers : List LineAnswer) (peers : List CollPeer)
  /-- `ENGINE_COMPLETE` (R151). An engine operation completes, releases its entries, decrements c2 and writes any completion word. -/
  | engineComplete (op : Nat)
  /-- `ROLLCALL_COMPLETE` (R156). Every group of a superstep grid has arrived and its engine operations and puts have completed, and the roll-call barrier departs. -/
  | rollcallComplete (launch : Nat)
  /-- `GROW_GRANT` (R176). A slot grants a waiting grow request, moves the group's registers if needed and zeroes the new rows. -/
  | growGrant (gid : Nat)
  /-- `GROW_WAIT_LIMIT` (R177). A grow request has waited 4,096 core cycles and blocks later grants of its slot. -/
  | growWaitLimit (gid : Nat)
  /-- `GROW_DEADLOCK` (R178). A core in grow deadlock saves its youngest team other than the survivor and retries the grow requests. -/
  | growDeadlock (core : Nat)
  /-- `TEAM_ROTATION` (R175). A saved team of a grid has waited 2 ms and is rotated with the youngest resident team of that grid. -/
  | teamRotation (launch : Nat) (team : Nat)
  /-- `CAPABILITY_REVOKE` (R25). A request to revoke or change a capability is carried out, or answered BUSY while a context names it. -/
  | capabilityRevoke (idx : Nat) (entry : BitVec 256)
  /-- `SEAL_CLEAR` (R50). The trusted firmware invalidates a page's instruction-cache lines and clears its SEALED bit. -/
  | sealClear (ppn : Nat)
  /-- `ADMISSION_REQUEST` (R219). A Stile engine takes an admission request, sets PENDING and starts checking and digesting the kernel. -/
  | admissionRequest (request : AdmissionCall)
  /-- `ADMISSION_RESULT` (R250). An admission ends; on a pass the pages are sealed and the kernel table is written, and the result record is written. -/
  | admissionResult (die : Nat)
  /-- `IQ_TAIL_WRITE` (R43). A write of IQ.TAIL rings an invalidation queue, or is discarded when it would pass HEAD. -/
  | iqTailWrite (q : Nat) (v : BitVec 64)
  /-- `IQ_ERR_CLEAR` (R43). Writing 1 to IQ.CTRL.ERR clears the error, and the queue resumes at HEAD. -/
  | iqErrClear (q : Nat)
  /-- `INV_S1_VA` (R44). An invalidation command drops every TLB entry of the guest that maps the named virtual pages. -/
  | invS1Va (q : Nat)
  /-- `INV_S1_ALL` (R44). An invalidation command drops every TLB entry and stage-1 walk-cache entry of the guest. -/
  | invS1All (q : Nat)
  /-- `INV_S2_IPA` (R44). An invalidation command drops entries for the named guest-physical pages and the guest's stage-2 walk-cache entries. -/
  | invS2Ipa (q : Nat)
  /-- `INV_S2_ALL` (R44). An invalidation command drops every TLB and walk-cache entry of the guest. -/
  | invS2All (q : Nat)
  /-- `SYNC` (R45). A SYNC command is consumed and waits for the earlier commands and the accesses that used dropped entries. -/
  | sync (q : Nat)
  /-- `SYNC_COMPLETE` (R45). A SYNC completes, writes DATA to its completion word as a system-scope release and advances HEAD. -/
  | syncComplete (q : Nat)
  /-- `LOCK_RETRY` (R340). The random wait after a failed lock compare-and-swap expires, and lock.acq tries again. -/
  | lockRetry (gid : Nat)
  /-- `TILE_OP_COMPLETE` (R383). A tile load, conversion, spread or drain to a tile finishes its writes, and c3 counts down. -/
  | tileOpComplete (op : Nat)
  /-- `RESERVATION_DISPATCH` (R441). The free matrix engine dispatches the eligible reservation-table entry with the highest level and earliest posting. -/
  | reservationDispatch (quad : Nat)
  /-- `PASS_COMPLETE` (R370). A dispatched pass, zero or drain entry finishes, its scoreboard counts fall and c3 counts down. -/
  | passComplete (quad : Nat) (entry : Nat)
  /-- `LEVEL_AGING` (R441). A reservation-table entry has waited another 256 engine cycles and its level rises by 1. -/
  | levelAging (quad : Nat) (entry : Nat)
  /-- `RING_WAIT_RESUME` (R360). A tgive or ttake waiting on a handle ring or role box finds room or a value and performs. -/
  | ringWaitResume (gid : Nat)
  /-- `STREAM_COMMAND` (R375). A running stream takes its ring values, checks them and posts its next body command, or stops with a status. -/
  | streamCommand (quad : Nat)
  /-- `STREAM_END` (R377). A stream ends; its rings' handles are released, the status word is written and the stream completes on c2. -/
  | streamEnd (quad : Nat)
  /-- `HAMPER_AT_HOME` (R396). A put, range put or get reaches its home slice and is folded, stored, spilled or served in order of arrival. -/
  | hamperAtHome (req : Nat) (answers : List LineAnswer)
  /-- `HAMPER_RESULT_RETURN` (R403). The status or record block of a Hamper instruction is written to its lane, and c3 counts down. -/
  | hamperResultReturn (req : Nat)
  /-- `TRAP_DELIVERY` (R444). A group's oldest parked sub-group is delivered to host service, the handler or a forced reset. -/
  | trapDelivery (gid : Nat)
  /-- `PRG_RESPONSE` (R448). The host's page request group response arrives; the fetch replays, or the handler gets FETCH_FAULT. -/
  | prgResponse (gid : Nat) (k : Nat) (code : Nat)
  /-- `PRI_TIMEOUT` (R448). A page request gets no response within 1 s and is treated as Response Failure. -/
  | priTimeout (gid : Nat) (k : Nat)
  /-- `SQ_TAIL_WRITE` (R426). A write of SQ.TAIL rings a submission queue's doorbell. -/
  | sqTailWrite (fn : Nat) (q : Nat) (v : BitVec 64)
  /-- `SQ_ERR_CLEAR` (R426). Writing 1 to SQ.CTRL.ERR clears a stopped submission queue's error. -/
  | sqErrClear (fn : Nat) (q : Nat)
  /-- `LAUNCH_DESCRIPTOR` (R431). The scheduler reads one launch descriptor, checks it in order and accepts it, or refuses it with a completion record. -/
  | launchDescriptor (fn : Nat) (q : QueueCall)
  /-- `PLACEMENT` (R436). The scheduler places a waiting or saved team where it fits, reserving and zeroing its storage. -/
  | placement (launch : Nat) (team : Nat) (core : Nat)
  /-- `LAUNCH_COMPLETION` (R433). Every group and engine operation of a grid has ended, and the completion record is written. -/
  | launchCompletion (launch : Nat)
  /-- `PLACEMENT_WAIT_LIMIT` (R438). A launch has waited 100 us with no team placed, and the scheduler pre-empts lower-class resident teams. -/
  | placementWaitLimit (launch : Nat)
  /-- `QUANTUM_EXPIRY` (R439). A guest's quantum expires and the scheduler switches to the next guest that has work. -/
  | quantumExpiry
  /-- `PREEMPT_REQUEST` (R450). A pre-emption request names a context and a tier and starts the drain or the freeze. -/
  | preemptRequest (launch : Nat) (tier : Nat)
  /-- `DRAIN_DEADLINE` (R450). The drain deadline passes and the pre-emption escalates to freeze. -/
  | drainDeadline (launch : Nat)
  /-- `FREEZE_DEADLINE` (R450). The freeze deadline passes before the scan-outs finish, and the context is ended by forced reset. -/
  | freezeDeadline (launch : Nat)
  /-- `FREEZE_QUIESCED` (R451). The issued accesses, drains, puts and engine stops of a frozen context complete, and its state is whole. -/
  | freezeQuiesced (launch : Nat)
  /-- `RESTORE` (R459). The scheduler restores a saved team from its image after the tag and counter checks, or the restore is refused. -/
  | restore (image : Nat) (core : Nat) (edits : List ImageEdit)
  /-- `KEY_TRANSFER` (R465). Two security controllers transfer a context key and the recorded CTRs, and the source deletes its records. -/
  | keyTransfer (launch : Nat) (idx : Nat) (out_ : Bool) (key : BitVec 256) (ctrs : List (Nat × BitVec 64))
  /-- `FEAT_MASK_WRITE` (R463). A write of FEAT.MASK takes effect only while the guest descriptor is not valid, and is otherwise ignored and logged. -/
  | featMaskWrite (guest : Nat) (v : BitVec 256)
  /-- `FLR_VF` (R476). A Function Level Reset of a virtual function ends its guest's contexts and resets its state within 20 ms. -/
  | flrVf (n : Nat)
  /-- `FLR_PF` (R477). A Function Level Reset of function 0 resets every guest, and the module is declared dead and readmitted. -/
  | flrPf
  /-- `LINK_LOSS` (R478). A surprise host link loss declares the host dead, completes host-bound requests locally and freezes host-window contexts. -/
  | linkLoss
  /-- `LINK_UP` (R479). The host link trains again, and the host is treated as new. -/
  | linkUp
  /-- `HLOSS_THAW` (R479). Writing 1 to HLOSS.THAW thaws the contexts that the link loss froze. -/
  | hlossThaw
  /-- `PORT_TRAIN_RETRY` (R480). A failed Otger port training is retried 100 ms later. -/
  | portTrainRetry (port : Nat)
  /-- `PORT_TAKEDOWN` (R480). A port that stays untrained or fails more than 1,000 flits in 1 s is taken down, and its traffic moves. -/
  | portTakedown (port : Nat)
  /-- `DOM_EN_WRITE` (R480). Setting DOM.CTRL.EN starts the training of the Otger ports. -/
  | domEnWrite (v : Bool)
  /-- `DOM_FORMED_WRITE` (R481). Setting or clearing DOM.CTRL.FORMED makes the module join or leave a formed domain. -/
  | domFormedWrite (v : Bool)
  /-- `POWER_WINDOW` (R483). Each 10 ms window the device withholds vote points and dispatches to hold power at PWR.LIMIT. -/
  | powerWindow (above : Bool)
  /-- `TEMP_CRITICAL` (R483). A die temperature passes its critical limit, and the management controller resets the module and logs the cause. -/
  | tempCritical (die : Nat)
  /-- `MGMT_FLR` (R485). The management command FLR n performs a Function Level Reset. -/
  | mgmtFlr (n : Nat)
  /-- `MODULE_RESET` (R485). The management command performs a cold reset of everything but the management controller. -/
  | moduleReset
  /-- `READ_FAULT_LOG` (R485). The management command returns the device error log. -/
  | readFaultLog
  /-- `DUMP_STATE` (R485). The management command returns the state dump window, where the debug state allows it. -/
  | dumpState
  /-- `RECOVER` (R485). The management command loads a firmware image through the boot ROM's recovery path. -/
  | recover (ok : Bool)
  /-- `SPDM_REQUEST` (R485). An SPDM request for authentication or measurements is served by the management controller. -/
  | spdmRequest (nonce : BitVec 256)
  /-- `PLDM_TELEMETRY` (R485). A PLDM type 2 request returns power, temperature, link and error telemetry. -/
  | pldmTelemetry
  /-- `PLDM_FIRMWARE_UPDATE` (R487). A PLDM type 5 update delivers a firmware image, whose signatures are verified. -/
  | pldmFirmwareUpdate (ok : Bool)
  /-- `FIRMWARE_HANDOVER` (R488). A verified untrusted firmware image takes over at a point where no descriptor is half read. -/
  | firmwareHandover
  /-- `COLD_RESET` (R487). At power-on or cold reset the boot ROM verifies the firmware, or boots into the recovery path. -/
  | coldReset (ok : Bool)
  /-- `DEBUG_STATE_REQUEST` (R484). A request to enter a debug state is granted or refused according to the security state. -/
  | debugStateRequest (st : Nat) (token : Bool) (tenant : Nat)
  /-- `DEEP_SLEEP_WAKE` (R484). A doorbell or management command wakes the device from deep-sleep within 5 ms. -/
  | deepSleepWake
  /-- `QREP_DRAIN` (R489). The QREP drain command stops placement on a quad and saves its resident teams. -/
  | qrepDrain (quad : Nat)
  /-- `QREP_DRAIN_DONE` (R489). A draining quad has no resident team left and becomes drained. -/
  | qrepDrainDone
  /-- `QREP_RETEST` (R489). The QREP retest command runs built-in self-test on a drained quad. -/
  | qrepRetest (quad : Nat)
  /-- `QREP_RETEST_DONE` (R489). Self-test ends in repaired, with a spare swapped in if needed, or in failed with no spare. -/
  | qrepRetestDone (ok : Bool) (spare : Bool)
  /-- `QREP_RETURN` (R489). The QREP return command puts a drained or repaired quad back into service. -/
  | qrepReturn (quad : Nat)
  /-- `HBM_RETIRE_REQUEST` (R489). The HBM.RETIRE request command names a range of a channel to vacate. -/
  | hbmRetireRequest (v : BitVec 64)
  /-- `HBM_RETIRE_COMMIT` (R489). The HBM.RETIRE commit command starts re-striping the channel's lines. -/
  | hbmRetireCommit (v : BitVec 64)
  /-- `RESTRIPE_DONE` (R488). Re-striping ends and the range is retired. -/
  | restripeDone
  /-- `REGISTER_WRITE` (R474). A write to a BAR 0 register that has no row of its own updates its fields, or is discarded. -/
  | registerWrite (off : Nat) (size : Nat) (v : BitVec 64)
  /-- `ADD_B32` (R273). Adds two 32-bit operands modulo 2^32. -/
  | addB32 (d : BitVec 7) (w : BitVec 1) (a : BitVec 8) (b : BitVec 8)
  /-- `ADD_B32_IMM` (R273). Adds a sign-extended IMM8 modulo 2^32. -/
  | addB32Imm (d : BitVec 7) (w : BitVec 1) (a : BitVec 8) (i : BitVec 8)
  /-- `SUB_B32` (R273). Subtracts two 32-bit operands modulo 2^32. -/
  | subB32 (d : BitVec 7) (w : BitVec 1) (a : BitVec 8) (b : BitVec 8)
  /-- `SUB_B32_IMM` (R273). Subtracts a sign-extended IMM8 modulo 2^32. -/
  | subB32Imm (d : BitVec 7) (w : BitVec 1) (a : BitVec 8) (i : BitVec 8)
  /-- `ADD_SAT_I32` (R273). Signed saturating add. -/
  | addSatI32 (d : BitVec 7) (w : BitVec 1) (a : BitVec 8) (b : BitVec 8)
  /-- `ADD_SAT_N32` (R273). Unsigned saturating add. -/
  | addSatN32 (d : BitVec 7) (w : BitVec 1) (a : BitVec 8) (b : BitVec 8)
  /-- `SUB_SAT_I32` (R273). Signed saturating subtract. -/
  | subSatI32 (d : BitVec 7) (w : BitVec 1) (a : BitVec 8) (b : BitVec 8)
  /-- `SUB_SAT_N32` (R273). Unsigned saturating subtract. -/
  | subSatN32 (d : BitVec 7) (w : BitVec 1) (a : BitVec 8) (b : BitVec 8)
  /-- `MUL_LO_B32` (R274). Writes the low 32 bits of the product. -/
  | mulLoB32 (d : BitVec 7) (w : BitVec 1) (a : BitVec 8) (b : BitVec 8)
  /-- `MUL_HI_I32` (R274). Writes the high 32 bits of the signed product. -/
  | mulHiI32 (d : BitVec 7) (w : BitVec 1) (a : BitVec 8) (b : BitVec 8)
  /-- `MUL_HI_N32` (R274). Writes the high 32 bits of the unsigned product. -/
  | mulHiN32 (d : BitVec 7) (w : BitVec 1) (a : BitVec 8) (b : BitVec 8)
  /-- `MUL_WIDE_I32` (R274). Writes the 64-bit signed product to a pair. -/
  | mulWideI32 (d : BitVec 6) (w : BitVec 1) (a : BitVec 8) (b : BitVec 8)
  /-- `MUL_WIDE_N32` (R274). Writes the 64-bit unsigned product to a pair. -/
  | mulWideN32 (d : BitVec 6) (w : BitVec 1) (a : BitVec 8) (b : BitVec 8)
  /-- `DIV_I32` (R275). Signed division towards zero, without a trap. -/
  | divI32 (d : BitVec 7) (w : BitVec 1) (a : BitVec 8) (b : BitVec 8)
  /-- `DIV_N32` (R275). Unsigned division, without a trap. -/
  | divN32 (d : BitVec 7) (w : BitVec 1) (a : BitVec 8) (b : BitVec 8)
  /-- `REM_I32` (R275). Signed remainder with the sign of the dividend. -/
  | remI32 (d : BitVec 7) (w : BitVec 1) (a : BitVec 8) (b : BitVec 8)
  /-- `REM_N32` (R275). Unsigned remainder. -/
  | remN32 (d : BitVec 7) (w : BitVec 1) (a : BitVec 8) (b : BitVec 8)
  /-- `MIN_I32` (R276). Signed minimum. -/
  | minI32 (d : BitVec 7) (w : BitVec 1) (a : BitVec 8) (b : BitVec 8)
  /-- `MAX_I32` (R276). Signed maximum. -/
  | maxI32 (d : BitVec 7) (w : BitVec 1) (a : BitVec 8) (b : BitVec 8)
  /-- `MIN_N32` (R276). Unsigned minimum. -/
  | minN32 (d : BitVec 7) (w : BitVec 1) (a : BitVec 8) (b : BitVec 8)
  /-- `MAX_N32` (R276). Unsigned maximum. -/
  | maxN32 (d : BitVec 7) (w : BitVec 1) (a : BitVec 8) (b : BitVec 8)
  /-- `SHL_B32` (R277). Shifts left by a register count. -/
  | shlB32 (d : BitVec 7) (w : BitVec 1) (a : BitVec 8) (b : BitVec 8)
  /-- `SHR_N32` (R277). Logical right shift by a register count. -/
  | shrN32 (d : BitVec 7) (w : BitVec 1) (a : BitVec 8) (b : BitVec 8)
  /-- `SHR_I32` (R277). Arithmetic right shift by a register count. -/
  | shrI32 (d : BitVec 7) (w : BitVec 1) (a : BitVec 8) (b : BitVec 8)
  /-- `ROTL_B32` (R277). Rotates left by a register count. -/
  | rotlB32 (d : BitVec 7) (w : BitVec 1) (a : BitVec 8) (b : BitVec 8)
  /-- `ROTR_B32` (R277). Rotates right by a register count. -/
  | rotrB32 (d : BitVec 7) (w : BitVec 1) (a : BitVec 8) (b : BitVec 8)
  /-- `SHL_B32_IMM` (R277). Shifts left by an immediate count. -/
  | shlB32Imm (d : BitVec 7) (w : BitVec 1) (a : BitVec 8) (n : BitVec 5)
  /-- `SHR_N32_IMM` (R277). Logical right shift by an immediate count. -/
  | shrN32Imm (d : BitVec 7) (w : BitVec 1) (a : BitVec 8) (n : BitVec 5)
  /-- `SHR_I32_IMM` (R277). Arithmetic right shift by an immediate count. -/
  | shrI32Imm (d : BitVec 7) (w : BitVec 1) (a : BitVec 8) (n : BitVec 5)
  /-- `ROTL_B32_IMM` (R277). Rotates left by an immediate count. -/
  | rotlB32Imm (d : BitVec 7) (w : BitVec 1) (a : BitVec 8) (n : BitVec 5)
  /-- `ROTR_B32_IMM` (R277). Rotates right by an immediate count. -/
  | rotrB32Imm (d : BitVec 7) (w : BitVec 1) (a : BitVec 8) (n : BitVec 5)
  /-- `POPC_B32` (R278). Counts the 1 bits. -/
  | popcB32 (d : BitVec 7) (w : BitVec 1) (a : BitVec 8)
  /-- `CLZ_B32` (R278). Counts the leading zero bits. -/
  | clzB32 (d : BitVec 7) (w : BitVec 1) (a : BitVec 8)
  /-- `CTZ_B32` (R278). Counts the trailing zero bits. -/
  | ctzB32 (d : BitVec 7) (w : BitVec 1) (a : BitVec 8)
  /-- `BREV_B32` (R278). Reverses the bit order. -/
  | brevB32 (d : BitVec 7) (w : BitVec 1) (a : BitVec 8)
  /-- `BFX_N32` (R279). Extracts a bit field, zero-extended. -/
  | bfxN32 (d : BitVec 7) (w : BitVec 1) (a : BitVec 8) (pos : BitVec 5) (len : BitVec 5)
  /-- `BFX_I32` (R279). Extracts a bit field, sign-extended. -/
  | bfxI32 (d : BitVec 7) (w : BitVec 1) (a : BitVec 8) (pos : BitVec 5) (len : BitVec 5)
  /-- `BFI_B32` (R279). Inserts a bit field. -/
  | bfiB32 (d : BitVec 7) (w : BitVec 1) (a : BitVec 8) (b : BitVec 8) (pos : BitVec 5) (len : BitVec 5)
  /-- `TERN_B32` (R280). Computes a bitwise function of three inputs from an 8-bit table. -/
  | ternB32 (d : BitVec 7) (w : BitVec 1) (a : BitVec 8) (b : BitVec 8) (c : BitVec 8) (tbl : BitVec 8)
  /-- `AND_B32` (R280). Bitwise AND. -/
  | andB32 (d : BitVec 7) (w : BitVec 1) (a : BitVec 8) (b : BitVec 8)
  /-- `OR_B32` (R280). Bitwise OR. -/
  | orB32 (d : BitVec 7) (w : BitVec 1) (a : BitVec 8) (b : BitVec 8)
  /-- `XOR_B32` (R280). Bitwise XOR. -/
  | xorB32 (d : BitVec 7) (w : BitVec 1) (a : BitVec 8) (b : BitVec 8)
  /-- `NOT_B32` (R280). Complements every bit. -/
  | notB32 (d : BitVec 7) (w : BitVec 1) (a : BitVec 8)
  /-- `AND_B32_IMM` (R280). Bitwise AND with a sign-extended IMM8. -/
  | andB32Imm (d : BitVec 7) (w : BitVec 1) (a : BitVec 8) (i : BitVec 8)
  /-- `OR_B32_IMM` (R280). Bitwise OR with a sign-extended IMM8. -/
  | orB32Imm (d : BitVec 7) (w : BitVec 1) (a : BitVec 8) (i : BitVec 8)
  /-- `XOR_B32_IMM` (R280). Bitwise XOR with a sign-extended IMM8. -/
  | xorB32Imm (d : BitVec 7) (w : BitVec 1) (a : BitVec 8) (i : BitVec 8)
  /-- `MOV_B32` (R281). Copies a 32-bit operand. -/
  | movB32 (d : BitVec 7) (w : BitVec 1) (a : BitVec 8)
  /-- `MOV_B32_IMM` (R281). Writes IMM32 as i32 or f32, as SB selects. -/
  | movB32Imm (d : BitVec 7) (w : BitVec 1) (t : BitVec 8) (imm : BitVec 32)
  /-- `ADD_B64` (R284). 64-bit add modulo 2^64. -/
  | addB64 (d : BitVec 6) (w : BitVec 1) (a : BitVec 8) (b : BitVec 8)
  /-- `SUB_B64` (R284). 64-bit subtract modulo 2^64. -/
  | subB64 (d : BitVec 6) (w : BitVec 1) (a : BitVec 8) (b : BitVec 8)
  /-- `MUL_LO_B64` (R284). Low 64 bits of the 64-bit product. -/
  | mulLoB64 (d : BitVec 6) (w : BitVec 1) (a : BitVec 8) (b : BitVec 8)
  /-- `MIN_I64` (R284). Signed 64-bit minimum. -/
  | minI64 (d : BitVec 6) (w : BitVec 1) (a : BitVec 8) (b : BitVec 8)
  /-- `MAX_I64` (R284). Signed 64-bit maximum. -/
  | maxI64 (d : BitVec 6) (w : BitVec 1) (a : BitVec 8) (b : BitVec 8)
  /-- `MIN_N64` (R284). Unsigned 64-bit minimum. -/
  | minN64 (d : BitVec 6) (w : BitVec 1) (a : BitVec 8) (b : BitVec 8)
  /-- `MAX_N64` (R284). Unsigned 64-bit maximum. -/
  | maxN64 (d : BitVec 6) (w : BitVec 1) (a : BitVec 8) (b : BitVec 8)
  /-- `SHL_B64` (R284). 64-bit left shift. -/
  | shlB64 (d : BitVec 6) (w : BitVec 1) (a : BitVec 8) (b : BitVec 8)
  /-- `SHR_N64` (R284). 64-bit logical right shift. -/
  | shrN64 (d : BitVec 6) (w : BitVec 1) (a : BitVec 8) (b : BitVec 8)
  /-- `SHR_I64` (R284). 64-bit arithmetic right shift. -/
  | shrI64 (d : BitVec 6) (w : BitVec 1) (a : BitVec 8) (b : BitVec 8)
  /-- `MOV_B64_IMM` (R281). Writes a sign-extended IMM32 to a pair as i64. -/
  | movB64Imm (d : BitVec 6) (w : BitVec 1) (imm : BitVec 32)
  /-- `SMOV_B64` (R282). Copies a 64-bit operand of the lowest guard-true lane to a scalar. -/
  | smovB64 (s : BitVec 6) (a : BitVec 8)
  /-- `SEL_B32` (R283). Selects a or b per lane by a predicate. -/
  | selB32 (d : BitVec 7) (w : BitVec 1) (a : BitVec 8) (b : BitVec 8) (p : BitVec 3)
  /-- `SEL_B64` (R283). Selects a 64-bit a or b per lane by a predicate. -/
  | selB64 (d : BitVec 6) (w : BitVec 1) (a : BitVec 8) (b : BitVec 8) (p : BitVec 3)
  /-- `SETP_EQ_B32` (R285). Sets a predicate when two 32-bit operands are equal. -/
  | setpEqB32 (p : BitVec 3) (a : BitVec 8) (b : BitVec 8)
  /-- `SETP_NE_B32` (R285). Sets a predicate when two 32-bit operands differ. -/
  | setpNeB32 (p : BitVec 3) (a : BitVec 8) (b : BitVec 8)
  /-- `SETP_LT_I32` (R285). Signed less-than compare. -/
  | setpLtI32 (p : BitVec 3) (a : BitVec 8) (b : BitVec 8)
  /-- `SETP_LE_I32` (R285). Signed less-or-equal compare. -/
  | setpLeI32 (p : BitVec 3) (a : BitVec 8) (b : BitVec 8)
  /-- `SETP_GT_I32` (R285). Signed greater-than compare. -/
  | setpGtI32 (p : BitVec 3) (a : BitVec 8) (b : BitVec 8)
  /-- `SETP_GE_I32` (R285). Signed greater-or-equal compare. -/
  | setpGeI32 (p : BitVec 3) (a : BitVec 8) (b : BitVec 8)
  /-- `SETP_LT_N32` (R285). Unsigned less-than compare. -/
  | setpLtN32 (p : BitVec 3) (a : BitVec 8) (b : BitVec 8)
  /-- `SETP_LE_N32` (R285). Unsigned less-or-equal compare. -/
  | setpLeN32 (p : BitVec 3) (a : BitVec 8) (b : BitVec 8)
  /-- `SETP_GT_N32` (R285). Unsigned greater-than compare. -/
  | setpGtN32 (p : BitVec 3) (a : BitVec 8) (b : BitVec 8)
  /-- `SETP_GE_N32` (R285). Unsigned greater-or-equal compare. -/
  | setpGeN32 (p : BitVec 3) (a : BitVec 8) (b : BitVec 8)
  /-- `SETP_EQ_B64` (R285). 64-bit equality compare. -/
  | setpEqB64 (p : BitVec 3) (a : BitVec 8) (b : BitVec 8)
  /-- `SETP_NE_B64` (R285). 64-bit inequality compare. -/
  | setpNeB64 (p : BitVec 3) (a : BitVec 8) (b : BitVec 8)
  /-- `SETP_LT_I64` (R285). Signed 64-bit less-than compare. -/
  | setpLtI64 (p : BitVec 3) (a : BitVec 8) (b : BitVec 8)
  /-- `SETP_LE_I64` (R285). Signed 64-bit less-or-equal compare. -/
  | setpLeI64 (p : BitVec 3) (a : BitVec 8) (b : BitVec 8)
  /-- `SETP_LT_N64` (R285). Unsigned 64-bit less-than compare. -/
  | setpLtN64 (p : BitVec 3) (a : BitVec 8) (b : BitVec 8)
  /-- `SETP_LE_N64` (R285). Unsigned 64-bit less-or-equal compare. -/
  | setpLeN64 (p : BitVec 3) (a : BitVec 8) (b : BitVec 8)
  /-- `SETP_EQ_B32_IMM` (R285). Equality compare with a sign-extended IMM8. -/
  | setpEqB32Imm (p : BitVec 3) (a : BitVec 8) (i : BitVec 8)
  /-- `SETP_NE_B32_IMM` (R285). Inequality compare with a sign-extended IMM8. -/
  | setpNeB32Imm (p : BitVec 3) (a : BitVec 8) (i : BitVec 8)
  /-- `SETP_LT_I32_IMM` (R285). Signed less-than compare with IMM8. -/
  | setpLtI32Imm (p : BitVec 3) (a : BitVec 8) (i : BitVec 8)
  /-- `SETP_LE_I32_IMM` (R285). Signed less-or-equal compare with IMM8. -/
  | setpLeI32Imm (p : BitVec 3) (a : BitVec 8) (i : BitVec 8)
  /-- `SETP_GT_I32_IMM` (R285). Signed greater-than compare with IMM8. -/
  | setpGtI32Imm (p : BitVec 3) (a : BitVec 8) (i : BitVec 8)
  /-- `SETP_GE_I32_IMM` (R285). Signed greater-or-equal compare with IMM8. -/
  | setpGeI32Imm (p : BitVec 3) (a : BitVec 8) (i : BitVec 8)
  /-- `AND_PRED` (R286). ANDs two predicates. -/
  | andPred (p : BitVec 3) (a : BitVec 3) (b : BitVec 3)
  /-- `OR_PRED` (R286). ORs two predicates. -/
  | orPred (p : BitVec 3) (a : BitVec 3) (b : BitVec 3)
  /-- `XOR_PRED` (R286). XORs two predicates. -/
  | xorPred (p : BitVec 3) (a : BitVec 3) (b : BitVec 3)
  /-- `NOT_PRED` (R286). Complements a predicate. -/
  | notPred (p : BitVec 3) (a : BitVec 3)
  /-- `PTR_ADD` (R287). Adds a scaled, extended index to a pointer. -/
  | ptrAdd (d : BitVec 6) (w : BitVec 1) (a : BitVec 8) (b : BitVec 8) (sc : BitVec 3) (e : BitVec 2)
  /-- `PTR_DIFF` (R288). Writes the difference of two pointers of one region as i64. -/
  | ptrDiff (d : BitVec 6) (w : BitVec 1) (a : BitVec 8) (b : BitVec 8)
  /-- `PTR_ADD_IMM` (R287). Adds a sign-extended IMM32 to a pointer. -/
  | ptrAddImm (d : BitVec 6) (w : BitVec 1) (a : BitVec 8) (imm : BitVec 32)
  /-- `BRA` (R289). Direct branch, taken in lanes whose predicate matches. -/
  | bra (p : BitVec 3) (n : BitVec 1) (o : BitVec 20)
  /-- `JMP` (R291). Indirect jump through a code value. -/
  | jmp (a : BitVec 8)
  /-- `CALL` (R290). Direct call that writes the return address to a link pair. -/
  | call (l : BitVec 6) (o : BitVec 17)
  /-- `CALL_IND` (R291). Indirect call through a code value, writing the link pair. -/
  | callInd (l : BitVec 6) (a : BitVec 8)
  /-- `RET` (R291). Returns through a code value. -/
  | ret (a : BitVec 8)
  /-- `CONV` (R293). Waits until every live lane of the group is at the conv, then proceeds together. -/
  | conv
  /-- `EXIT` (R294). Ends each guard-true lane; the group ends when nothing is live, parked or counted. -/
  | exit
  /-- `LOOP` (R295). Repeats the following NCL clauses count times, stepping the named fields. -/
  | loop (ncl : BitVec 4) (cnt : BitVec 8) (incs : List LoopInc)
  /-- `CHKB` (R298). Traps BOUNDS_CHECK unless 0 <= a < b. -/
  | chkb (x : BitVec 1) (a : BitVec 8) (b : BitVec 8)
  /-- `CHKLAND` (R300). Traps BAD_LANDING unless the operand names an admitted landing block of the kernel. -/
  | chkland (a : BitVec 8)
  /-- `CHKALN` (R299). Traps ALIGN_CHECK unless the operand is a multiple of 2^e. -/
  | chkaln (a : BitVec 8) (e : BitVec 3)
  /-- `ADD_F32` (R305). f32 add with the rounding that the opcode names. -/
  | addF32 (r : BitVec 2) (d : BitVec 7) (w : BitVec 1) (a : BitVec 8) (b : BitVec 8)
  /-- `SUB_F32` (R305). f32 subtract with the named rounding. -/
  | subF32 (r : BitVec 2) (d : BitVec 7) (w : BitVec 1) (a : BitVec 8) (b : BitVec 8)
  /-- `MUL_F32` (R305). f32 multiply with the named rounding. -/
  | mulF32 (r : BitVec 2) (d : BitVec 7) (w : BitVec 1) (a : BitVec 8) (b : BitVec 8)
  /-- `FMA_F32` (R305). f32 fused multiply-add with one rounding. -/
  | fmaF32 (r : BitVec 2) (d : BitVec 7) (w : BitVec 1) (a : BitVec 8) (b : BitVec 8)
  /-- `ADD_F16X2` (R306). Packed f16 add. -/
  | addF16x2 (r : BitVec 1) (d : BitVec 7) (w : BitVec 1) (a : BitVec 8) (b : BitVec 8)
  /-- `MUL_F16X2` (R306). Packed f16 multiply. -/
  | mulF16x2 (r : BitVec 1) (d : BitVec 7) (w : BitVec 1) (a : BitVec 8) (b : BitVec 8)
  /-- `FMA_F16X2` (R306). Packed f16 fused multiply-add. -/
  | fmaF16x2 (r : BitVec 1) (d : BitVec 7) (w : BitVec 1) (a : BitVec 8) (b : BitVec 8)
  /-- `ADD_BF16X2` (R306). Packed bf16 add. -/
  | addBf16x2 (r : BitVec 1) (d : BitVec 7) (w : BitVec 1) (a : BitVec 8) (b : BitVec 8)
  /-- `MUL_BF16X2` (R306). Packed bf16 multiply. -/
  | mulBf16x2 (r : BitVec 1) (d : BitVec 7) (w : BitVec 1) (a : BitVec 8) (b : BitVec 8)
  /-- `FMA_BF16X2` (R306). Packed bf16 fused multiply-add. -/
  | fmaBf16x2 (r : BitVec 1) (d : BitVec 7) (w : BitVec 1) (a : BitVec 8) (b : BitVec 8)
  /-- `MIN_F32` (R307). f32 minimum, ignoring a single NaN. -/
  | minF32 (d : BitVec 7) (w : BitVec 1) (a : BitVec 8) (b : BitVec 8)
  /-- `MAX_F32` (R307). f32 maximum, ignoring a single NaN. -/
  | maxF32 (d : BitVec 7) (w : BitVec 1) (a : BitVec 8) (b : BitVec 8)
  /-- `ABS_F32` (R307). f32 absolute value. -/
  | absF32 (d : BitVec 7) (w : BitVec 1) (a : BitVec 8)
  /-- `NEG_F32` (R307). f32 negation. -/
  | negF32 (d : BitVec 7) (w : BitVec 1) (a : BitVec 8)
  /-- `RCP_APPROX_F32` (R309). Approximate reciprocal. -/
  | rcpApproxF32 (d : BitVec 7) (w : BitVec 1) (a : BitVec 8)
  /-- `RSQRT_APPROX_F32` (R309). Approximate reciprocal square root. -/
  | rsqrtApproxF32 (d : BitVec 7) (w : BitVec 1) (a : BitVec 8)
  /-- `SQRT_APPROX_F32` (R309). Approximate square root. -/
  | sqrtApproxF32 (d : BitVec 7) (w : BitVec 1) (a : BitVec 8)
  /-- `EXP2_APPROX_F32` (R309). Approximate base-2 exponential. -/
  | exp2ApproxF32 (d : BitVec 7) (w : BitVec 1) (a : BitVec 8)
  /-- `LOG2_APPROX_F32` (R309). Approximate base-2 logarithm. -/
  | log2ApproxF32 (d : BitVec 7) (w : BitVec 1) (a : BitVec 8)
  /-- `SIN_APPROX_F32` (R309). Approximate sine. -/
  | sinApproxF32 (d : BitVec 7) (w : BitVec 1) (a : BitVec 8)
  /-- `COS_APPROX_F32` (R309). Approximate cosine. -/
  | cosApproxF32 (d : BitVec 7) (w : BitVec 1) (a : BitVec 8)
  /-- `TANH_APPROX_F32` (R309). Approximate hyperbolic tangent. -/
  | tanhApproxF32 (d : BitVec 7) (w : BitVec 1) (a : BitVec 8)
  /-- `SQRT_F32` (R308). Correctly rounded f32 square root. -/
  | sqrtF32 (r : BitVec 2) (d : BitVec 7) (w : BitVec 1) (a : BitVec 8)
  /-- `SETP_EQ_F32` (R310). f32 equality compare. -/
  | setpEqF32 (p : BitVec 3) (a : BitVec 8) (b : BitVec 8)
  /-- `SETP_NE_F32` (R310). f32 inequality compare. -/
  | setpNeF32 (p : BitVec 3) (a : BitVec 8) (b : BitVec 8)
  /-- `SETP_LT_F32` (R310). f32 less-than compare. -/
  | setpLtF32 (p : BitVec 3) (a : BitVec 8) (b : BitVec 8)
  /-- `SETP_LE_F32` (R310). f32 less-or-equal compare. -/
  | setpLeF32 (p : BitVec 3) (a : BitVec 8) (b : BitVec 8)
  /-- `SETP_GT_F32` (R310). f32 greater-than compare. -/
  | setpGtF32 (p : BitVec 3) (a : BitVec 8) (b : BitVec 8)
  /-- `SETP_GE_F32` (R310). f32 greater-or-equal compare. -/
  | setpGeF32 (p : BitVec 3) (a : BitVec 8) (b : BitVec 8)
  /-- `SETP_NAN_F32` (R310). True when either operand is a NaN. -/
  | setpNanF32 (p : BitVec 3) (a : BitVec 8) (b : BitVec 8)
  /-- `CVT_F32_I32` (R311). Converts i32 to f32 with the named rounding. -/
  | cvtF32I32 (r : BitVec 2) (d : BitVec 7) (w : BitVec 1) (a : BitVec 8)
  /-- `CVT_F32_N32` (R311). Converts n32 to f32 with the named rounding. -/
  | cvtF32N32 (r : BitVec 2) (d : BitVec 7) (w : BitVec 1) (a : BitVec 8)
  /-- `CVT_I32_F32` (R311). Converts f32 to saturated i32. -/
  | cvtI32F32 (r : BitVec 2) (d : BitVec 7) (w : BitVec 1) (a : BitVec 8)
  /-- `CVT_N32_F32` (R311). Converts f32 to saturated n32. -/
  | cvtN32F32 (r : BitVec 2) (d : BitVec 7) (w : BitVec 1) (a : BitVec 8)
  /-- `CVT_F16_F32` (R311). Converts f32 to f16. -/
  | cvtF16F32 (r : BitVec 1) (d : BitVec 7) (w : BitVec 1) (a : BitVec 8)
  /-- `CVT_BF16_F32` (R311). Converts f32 to bf16. -/
  | cvtBf16F32 (r : BitVec 1) (d : BitVec 7) (w : BitVec 1) (a : BitVec 8)
  /-- `CVT_F32_F16` (R311). Converts f16 to f32 exactly. -/
  | cvtF32F16 (d : BitVec 7) (w : BitVec 1) (a : BitVec 8)
  /-- `CVT_F32_BF16` (R311). Converts bf16 to f32 exactly. -/
  | cvtF32Bf16 (d : BitVec 7) (w : BitVec 1) (a : BitVec 8)
  /-- `CVT_SAT_F8A_F32` (R311). Converts f32 to saturated f8a. -/
  | cvtSatF8aF32 (d : BitVec 7) (w : BitVec 1) (a : BitVec 8)
  /-- `CVT_NAN_F8A_F32` (R311). Converts f32 to f8a, with NaN on overflow. -/
  | cvtNanF8aF32 (d : BitVec 7) (w : BitVec 1) (a : BitVec 8)
  /-- `CVT_SAT_F8B_F32` (R311). Converts f32 to saturated f8b. -/
  | cvtSatF8bF32 (d : BitVec 7) (w : BitVec 1) (a : BitVec 8)
  /-- `CVT_NAN_F8B_F32` (R311). Converts f32 to f8b, with NaN on overflow. -/
  | cvtNanF8bF32 (d : BitVec 7) (w : BitVec 1) (a : BitVec 8)
  /-- `CVT_SAT_F4_F32` (R311). Converts f32 to saturated f4. -/
  | cvtSatF4F32 (d : BitVec 7) (w : BitVec 1) (a : BitVec 8)
  /-- `CVT_F32_F8A` (R311). Converts f8a to f32 exactly. -/
  | cvtF32F8a (d : BitVec 7) (w : BitVec 1) (a : BitVec 8)
  /-- `CVT_F32_F8B` (R311). Converts f8b to f32 exactly. -/
  | cvtF32F8b (d : BitVec 7) (w : BitVec 1) (a : BitVec 8)
  /-- `CVT_F32_F4` (R311). Converts f4 to f32, with an extra value from the second source. -/
  | cvtF32F4 (d : BitVec 7) (w : BitVec 1) (a : BitVec 8) (b : BitVec 8)
  /-- `CVT_SAT_I8_I32` (R311). Saturates i32 to i8, sign-extended. -/
  | cvtSatI8I32 (d : BitVec 7) (w : BitVec 1) (a : BitVec 8)
  /-- `CVT_I32_I8` (R311). Sign-extends i8 to i32. -/
  | cvtI32I8 (d : BitVec 7) (w : BitVec 1) (a : BitVec 8)
  /-- `QUANT_Q8_F32` (R312). Quantises f32 to a q8 code with a parameter word. -/
  | quantQ8F32 (d : BitVec 7) (w : BitVec 1) (a : BitVec 8) (b : BitVec 8)
  /-- `QUANT_Q4_F32` (R312). Quantises f32 to a q4 code. -/
  | quantQ4F32 (d : BitVec 7) (w : BitVec 1) (a : BitVec 8) (b : BitVec 8)
  /-- `DEQUANT_F32_Q8` (R312). Dequantises a q8 code to f32. -/
  | dequantF32Q8 (d : BitVec 7) (w : BitVec 1) (a : BitVec 8) (b : BitVec 8)
  /-- `DEQUANT_F32_Q4` (R312). Dequantises a q4 code to f32. -/
  | dequantF32Q4 (d : BitVec 7) (w : BitVec 1) (a : BitVec 8) (b : BitVec 8)
  /-- `PACK_B16` (R313). Packs two 16-bit elements into a word. -/
  | packB16 (d : BitVec 7) (w : BitVec 1) (a : BitVec 8) (b : BitVec 8)
  /-- `PACK_B8` (R313). Replaces one byte of D. -/
  | packB8 (d : BitVec 7) (w : BitVec 1) (a : BitVec 8) (p : BitVec 2)
  /-- `PACK_B4` (R313). Replaces one nibble of D. -/
  | packB4 (d : BitVec 7) (w : BitVec 1) (a : BitVec 8) (p : BitVec 3)
  /-- `UNPACK_B16` (R313). Extracts one 16-bit element. -/
  | unpackB16 (d : BitVec 7) (w : BitVec 1) (a : BitVec 8) (p : BitVec 1)
  /-- `UNPACK_B8` (R313). Extracts one byte. -/
  | unpackB8 (d : BitVec 7) (w : BitVec 1) (a : BitVec 8) (p : BitVec 2)
  /-- `UNPACK_B4` (R313). Extracts one nibble. -/
  | unpackB4 (d : BitVec 7) (w : BitVec 1) (a : BitVec 8) (p : BitVec 3)
  /-- `XL_PICK` (R315). Reads a from the lane that b names. -/
  | xlPick (d : BitVec 7) (w : BitVec 1) (a : BitVec 8) (b : BitVec 8)
  /-- `XL_ROL` (R315). Reads a from the lane b places above, wrapping. -/
  | xlRol (d : BitVec 7) (w : BitVec 1) (a : BitVec 8) (b : BitVec 8)
  /-- `XL_ROR` (R315). Reads a from the lane b places below, wrapping. -/
  | xlRor (d : BitVec 7) (w : BitVec 1) (a : BitVec 8) (b : BitVec 8)
  /-- `XL_BFLY` (R315). Reads a from the lane whose number differs in the bits of b. -/
  | xlBfly (d : BitVec 7) (w : BitVec 1) (a : BitVec 8) (b : BitVec 8)
  /-- `RED_ADD_B32` (R316). Group sum modulo 2^32. -/
  | redAddB32 (d : BitVec 7) (w : BitVec 1) (a : BitVec 8)
  /-- `RED_MIN_I32` (R316). Group signed minimum. -/
  | redMinI32 (d : BitVec 7) (w : BitVec 1) (a : BitVec 8)
  /-- `RED_MAX_I32` (R316). Group signed maximum. -/
  | redMaxI32 (d : BitVec 7) (w : BitVec 1) (a : BitVec 8)
  /-- `RED_MIN_N32` (R316). Group unsigned minimum. -/
  | redMinN32 (d : BitVec 7) (w : BitVec 1) (a : BitVec 8)
  /-- `RED_MAX_N32` (R316). Group unsigned maximum. -/
  | redMaxN32 (d : BitVec 7) (w : BitVec 1) (a : BitVec 8)
  /-- `RED_AND_B32` (R316). Group bitwise AND. -/
  | redAndB32 (d : BitVec 7) (w : BitVec 1) (a : BitVec 8)
  /-- `RED_OR_B32` (R316). Group bitwise OR. -/
  | redOrB32 (d : BitVec 7) (w : BitVec 1) (a : BitVec 8)
  /-- `RED_XOR_B32` (R316). Group bitwise XOR. -/
  | redXorB32 (d : BitVec 7) (w : BitVec 1) (a : BitVec 8)
  /-- `RED_ADD_F32` (R316). Group f32 sum with one RoundNE. -/
  | redAddF32 (d : BitVec 7) (w : BitVec 1) (a : BitVec 8)
  /-- `RED_MIN_F32` (R316). Group f32 minimum. -/
  | redMinF32 (d : BitVec 7) (w : BitVec 1) (a : BitVec 8)
  /-- `RED_MAX_F32` (R316). Group f32 maximum. -/
  | redMaxF32 (d : BitVec 7) (w : BitVec 1) (a : BitVec 8)
  /-- `MINIDX_N32` (R317). Group unsigned minimum and the lowest lane that holds it. -/
  | minidxN32 (d : BitVec 6) (w : BitVec 1) (a : BitVec 8)
  /-- `MINIDX_I32` (R317). Group signed minimum and its lane. -/
  | minidxI32 (d : BitVec 6) (w : BitVec 1) (a : BitVec 8)
  /-- `MINIDX_F32` (R317). Group f32 minimum and its lane. -/
  | minidxF32 (d : BitVec 6) (w : BitVec 1) (a : BitVec 8)
  /-- `SCAN_INCL_ADD_B32` (R318). Inclusive prefix sum over the group. -/
  | scanInclAddB32 (d : BitVec 7) (w : BitVec 1) (a : BitVec 8)
  /-- `SCAN_EXCL_ADD_B32` (R318). Exclusive prefix sum over the group. -/
  | scanExclAddB32 (d : BitVec 7) (w : BitVec 1) (a : BitVec 8)
  /-- `SCAN_INCL_MAX_I32` (R318). Inclusive prefix maximum. -/
  | scanInclMaxI32 (d : BitVec 7) (w : BitVec 1) (a : BitVec 8)
  /-- `SCAN_INCL_MIN_I32` (R318). Inclusive prefix minimum. -/
  | scanInclMinI32 (d : BitVec 7) (w : BitVec 1) (a : BitVec 8)
  /-- `POLL_ALL` (R319). ANDs a predicate over the group. -/
  | pollAll (p : BitVec 3) (a : BitVec 3)
  /-- `POLL_ANY` (R319). ORs a predicate over the group. -/
  | pollAny (p : BitVec 3) (a : BitVec 3)
  /-- `POLL_MASK` (R319). Writes the group's predicate mask to a pair. -/
  | pollMask (d : BitVec 6) (w : BitVec 1) (a : BitVec 3)
  /-- `POLL_SAME` (R319). True when every contributing lane holds the same value. -/
  | pollSame (p : BitVec 3) (a : BitVec 8)
  /-- `LD_N8` (R325). Loads a byte, zero-extended. -/
  | ldN8 (d : BitVec 7) (a : BitVec 8) (b : BitVec 8) (x : XM)
  /-- `LD_I8` (R325). Loads a byte, sign-extended. -/
  | ldI8 (d : BitVec 7) (a : BitVec 8) (b : BitVec 8) (x : XM)
  /-- `LD_N16` (R325). Loads 2 bytes, zero-extended. -/
  | ldN16 (d : BitVec 7) (a : BitVec 8) (b : BitVec 8) (x : XM)
  /-- `LD_I16` (R325). Loads 2 bytes, sign-extended. -/
  | ldI16 (d : BitVec 7) (a : BitVec 8) (b : BitVec 8) (x : XM)
  /-- `LD_B32` (R325). Loads 4 bytes. -/
  | ldB32 (d : BitVec 7) (a : BitVec 8) (b : BitVec 8) (x : XM)
  /-- `LD_B64` (R325). Loads 8 bytes to a pair. -/
  | ldB64 (d : BitVec 7) (a : BitVec 8) (b : BitVec 8) (x : XM)
  /-- `LD_B128` (R325). Loads 16 bytes to four registers. -/
  | ldB128 (d : BitVec 7) (a : BitVec 8) (b : BitVec 8) (x : XM)
  /-- `ST_B8` (R325). Stores a byte. -/
  | stB8 (d : BitVec 7) (a : BitVec 8) (b : BitVec 8) (x : XM)
  /-- `ST_B16` (R325). Stores 2 bytes. -/
  | stB16 (d : BitVec 7) (a : BitVec 8) (b : BitVec 8) (x : XM)
  /-- `ST_B32` (R325). Stores 4 bytes. -/
  | stB32 (d : BitVec 7) (a : BitVec 8) (b : BitVec 8) (x : XM)
  /-- `ST_B64` (R325). Stores 8 bytes from a pair. -/
  | stB64 (d : BitVec 7) (a : BitVec 8) (b : BitVec 8) (x : XM)
  /-- `ST_B128` (R325). Stores 16 bytes from four registers. -/
  | stB128 (d : BitVec 7) (a : BitVec 8) (b : BitVec 8) (x : XM)
  /-- `LDS_B32` (R328). Loads 4 bytes from the stash. -/
  | ldsB32 (d : BitVec 7) (a : BitVec 8) (b : BitVec 8) (x : XM)
  /-- `LDS_B64` (R328). Loads 8 bytes from the stash. -/
  | ldsB64 (d : BitVec 7) (a : BitVec 8) (b : BitVec 8) (x : XM)
  /-- `LDS_B128` (R328). Loads 16 bytes from the stash. -/
  | ldsB128 (d : BitVec 7) (a : BitVec 8) (b : BitVec 8) (x : XM)
  /-- `STS_B32` (R328). Stores 4 bytes to the stash. -/
  | stsB32 (d : BitVec 7) (a : BitVec 8) (b : BitVec 8) (x : XM)
  /-- `STS_B64` (R328). Stores 8 bytes to the stash. -/
  | stsB64 (d : BitVec 7) (a : BitVec 8) (b : BitVec 8) (x : XM)
  /-- `STS_B128` (R328). Stores 16 bytes to the stash. -/
  | stsB128 (d : BitVec 7) (a : BitVec 8) (b : BitVec 8) (x : XM)
  /-- `STASH_MAP` (R331). Creates a stash mapping entry and invalidates its lines, or raises STASH_MAP. -/
  | stashMap (tok : BitVec 6) (a : BitVec 8) (b : BitVec 8) (x : XM)
  /-- `STASH_UNMAP` (R331). Unmaps the team's mapping at an offset, writing back and releasing its lines. -/
  | stashUnmap (b : BitVec 8) (x : XM)
  /-- `STASH_FLUSH` (R331). Writes back the dirty lines of a stash range. -/
  | stashFlush (b : BitVec 8) (x : XM)
  /-- `FLASK_CREATE` (R332). Requests a new flask over a line range. -/
  | flaskCreate (s : BitVec 6) (a : BitVec 8) (b : BitVec 8) (x : XM)
  /-- `FLASK_SEAL` (R332). Requests the seal of a flask. -/
  | flaskSeal (s : BitVec 6) (a : BitVec 8) (x : XM)
  /-- `FLASK_REOPEN` (R332). Requests the reopening of a flask. -/
  | flaskReopen (s : BitVec 6) (a : BitVec 8) (x : XM)
  /-- `FLASK_RETIRE` (R332). Requests the retirement of a flask. -/
  | flaskRetire (s : BitVec 6) (a : BitVec 8) (x : XM)
  /-- `FLASK_ACQ` (R332). Requests a copy reference on a sealed flask. -/
  | flaskAcq (s : BitVec 6) (a : BitVec 8) (x : XM)
  /-- `FLASK_REL` (R332). Releases a copy reference and unmaps the team's flask mappings. -/
  | flaskRel (s : BitVec 6) (a : BitVec 8) (x : XM)
  /-- `ATOM_ADD_B32` (R333). Atomic 32-bit add at the home. -/
  | atomAddB32 (d : BitVec 7) (a : BitVec 8) (b : BitVec 8) (x : XM)
  /-- `ATOM_ADD_B64` (R333). Atomic 64-bit add. -/
  | atomAddB64 (d : BitVec 7) (a : BitVec 8) (b : BitVec 8) (x : XM)
  /-- `ATOM_MIN_I32` (R333). Atomic signed minimum. -/
  | atomMinI32 (d : BitVec 7) (a : BitVec 8) (b : BitVec 8) (x : XM)
  /-- `ATOM_MAX_I32` (R333). Atomic signed maximum. -/
  | atomMaxI32 (d : BitVec 7) (a : BitVec 8) (b : BitVec 8) (x : XM)
  /-- `ATOM_MIN_N32` (R333). Atomic unsigned minimum. -/
  | atomMinN32 (d : BitVec 7) (a : BitVec 8) (b : BitVec 8) (x : XM)
  /-- `ATOM_MAX_N32` (R333). Atomic unsigned maximum. -/
  | atomMaxN32 (d : BitVec 7) (a : BitVec 8) (b : BitVec 8) (x : XM)
  /-- `ATOM_AND_B32` (R333). Atomic bitwise AND. -/
  | atomAndB32 (d : BitVec 7) (a : BitVec 8) (b : BitVec 8) (x : XM)
  /-- `ATOM_OR_B32` (R333). Atomic bitwise OR. -/
  | atomOrB32 (d : BitVec 7) (a : BitVec 8) (b : BitVec 8) (x : XM)
  /-- `ATOM_XOR_B32` (R333). Atomic bitwise XOR. -/
  | atomXorB32 (d : BitVec 7) (a : BitVec 8) (b : BitVec 8) (x : XM)
  /-- `ATOM_XCHG_B32` (R333). Atomic 32-bit exchange. -/
  | atomXchgB32 (d : BitVec 7) (a : BitVec 8) (b : BitVec 8) (x : XM)
  /-- `ATOM_XCHG_B64` (R333). Atomic 64-bit exchange. -/
  | atomXchgB64 (d : BitVec 7) (a : BitVec 8) (b : BitVec 8) (x : XM)
  /-- `ATOM_CAS_B32` (R333). Atomic 32-bit compare-and-swap. -/
  | atomCasB32 (d : BitVec 7) (a : BitVec 8) (b : BitVec 8) (x : XM)
  /-- `ATOM_CAS_B64` (R333). Atomic 64-bit compare-and-swap. -/
  | atomCasB64 (d : BitVec 7) (a : BitVec 8) (b : BitVec 8) (x : XM)
  /-- `ATOM_ADD_F32` (R333). Atomic f32 add with RoundNE. -/
  | atomAddF32 (d : BitVec 7) (a : BitVec 8) (b : BitVec 8) (x : XM)
  /-- `ATOM_MIN_I64` (R333). Atomic signed 64-bit minimum. -/
  | atomMinI64 (d : BitVec 7) (a : BitVec 8) (b : BitVec 8) (x : XM)
  /-- `ATOM_MAX_I64` (R333). Atomic signed 64-bit maximum. -/
  | atomMaxI64 (d : BitVec 7) (a : BitVec 8) (b : BitVec 8) (x : XM)
  /-- `FENCE` (R335). A release, an acquire or both at a scope; the lanes wait until it has performed. -/
  | fence (a : BitVec 8) (b : BitVec 8) (x : XM)
  /-- `BAR_GROUP` (R336). Group barrier. -/
  | barGroup
  /-- `BAR_TEAM` (R337). Team barrier. -/
  | barTeam
  /-- `BAR_ROLE` (R337). Role barrier of role r. -/
  | barRole (q : BitVec 2)
  /-- `BAR_ROLLCALL` (R338). Roll-call barrier of a superstep grid, or BAR_MODE outside superstep. -/
  | barRollcall
  /-- `COPY` (R342). Issues a copy engine operation of L lines. -/
  | copy (a : BitVec 8) (b : BitVec 8) (x : XM)
  /-- `GATHER` (R343). Issues a gather through an index array with a run-time table check. -/
  | gather (a : BitVec 8) (b : BitVec 8) (x : XM)
  /-- `COLL` (R346). Issues this rank's part of a collective. -/
  | coll (a : BitVec 8) (b : BitVec 8) (x : XM)
  /-- `ENG_WAIT` (R348). Waits until at most k engine operations are incomplete, then reads and clears the engine error word. -/
  | engWait (s : BitVec 6) (a : BitVec 8)
  /-- `LOCK_ACQ` (R340). Takes a lock word by compare-and-swap, retrying until it succeeds. -/
  | lockAcq (a : BitVec 8) (x : XM)
  /-- `LOCK_REL` (R340). Releases a lock word by compare-and-swap, or raises LOCK_STATE. -/
  | lockRel (a : BitVec 8) (x : XM)
  /-- `TALLOC` (R358). Allocates a logical handle and slots with a format. -/
  | talloc (d : BitVec 5) (t : BitVec 4) (f : BitVec 1)
  /-- `TFREE` (R359). Frees a held handle; its slots free or retire. -/
  | tfree (a : BitVec 5)
  /-- `TGIVE_RING` (R360). Puts a handle into a stash handle ring. -/
  | tgiveRing (a : BitVec 5) (k : BitVec 8)
  /-- `TGIVE_ROLE` (R361). Appends a handle to a role box. -/
  | tgiveRole (a : BitVec 5) (q : BitVec 2)
  /-- `TTAKE_RING` (R362). Takes a handle from a ring and checks its currency and format. -/
  | ttakeRing (d : BitVec 5) (t : BitVec 4) (k : BitVec 8)
  /-- `TTAKE_ROLE` (R362). Takes the oldest takeable handle from the role's box. -/
  | ttakeRole (d : BitVec 5) (t : BitVec 4)
  /-- `TLD` (R363). Loads a tile from memory rows. -/
  | tld (h : BitVec 5) (a : BitVec 8) (b : BitVec 8) (x : XM)
  /-- `TST` (R363). Stores a tile to memory rows. -/
  | tst (h : BitVec 5) (a : BitVec 8) (b : BitVec 8) (x : XM)
  /-- `TCVT` (R364). Converts a tile, or a slice of one, into another format. -/
  | tcvt (d : BitVec 5) (a : BitVec 5) (s : BitVec 3) (f : BitVec 1)
  /-- `TSPREAD` (R365). Copies a tile into one or all quarters of a blanket handle. -/
  | tspread (d : BitVec 5) (a : BitVec 5) (q : BitVec 2) (f : BitVec 1)
  /-- `TTAG` (R366). Sets the scale and zero-point references of a quantised tile's tag. -/
  | ttag (h : BitVec 5) (a : BitVec 5) (b : BitVec 5) (gs : BitVec 2) (zv : BitVec 1) (gb : BitVec 5)
  /-- `TTAG_XVAL` (R366). Sets the f4 extra value of a tile's tag. -/
  | ttagXval (h : BitVec 5) (xval : BitVec 16)
  /-- `MX_ACQ` (R374). Takes ownership of the quad engine, or joins the owner queue. -/
  | mxAcq
  /-- `MX_REL` (R374). Ends engine ownership; the first queued group becomes owner. -/
  | mxRel
  /-- `MX_PASS` (R371). Posts a full pass into an accumulator tile. -/
  | mxPass (s : BitVec 2) (a : BitVec 5) (b : BitVec 5) (n : BitVec 8) (f : BitVec 1)
  /-- `MX_QPASS` (R373). Posts one quarter-pass per active lane quarter, folding into a waiting entry where allowed. -/
  | mxQpass (q : BitVec 2) (s : BitVec 2) (a : BitVec 5) (b : BitVec 5) (n : BitVec 8) (f : BitVec 1)
  /-- `MX_BPASS` (R371). Posts a blanket pass into four accumulator tiles. -/
  | mxBpass (s : BitVec 2) (a : BitVec 5) (b : BitVec 5) (n : BitVec 8) (f : BitVec 1)
  /-- `MX_STREAM` (R375). Starts a stream of the owner's body commands on the engine's command fetcher. -/
  | mxStream (ncl : BitVec 4) (b : BitVec 8) (x : XM)
  /-- `MX_DRAIN_MEM` (R378). Posts a drain of an accumulator tile to memory. -/
  | mxDrainMem (a : BitVec 8) (b : BitVec 8) (x : XM)
  /-- `MX_DRAIN_TILE` (R379). Posts a drain of an accumulator tile into a tile. -/
  | mxDrainTile (d : BitVec 5) (z : BitVec 1) (h : BitVec 1) (n : BitVec 8) (f : BitVec 1)
  /-- `MX_DRAIN_COLL` (R380). Drains an accumulator tile into a collective. -/
  | mxDrainColl (e : BitVec 1) (z : BitVec 1) (a : BitVec 8) (b : BitVec 8) (x : XM)
  /-- `MX_EPI` (R381). Binds the group's epilogue and its parameter tile. -/
  | mxEpi (h : BitVec 5) (x : XM)
  /-- `MX_ZERO` (R371). Posts the zeroing of an accumulator tile and sets its kind. -/
  | mxZero (n : BitVec 8) (f : BitVec 1)
  /-- `HM_PUT` (R404). Puts a keyed record that folds, forms, spills or is refused at its home. -/
  | hmPut (d : BitVec 7) (w : BitVec 1) (a : BitVec 8) (ks : BitVec 8) (op : BitVec 5)
  /-- `HM_RPUT` (R405). Puts a range record at the quad's own slice. -/
  | hmRput (d : BitVec 7) (w : BitVec 1) (a : BitVec 8) (ks : BitVec 8)
  /-- `HM_GET` (R406). Takes the oldest waiting record of a key space, splitting range records. -/
  | hmGet (d : BitVec 7) (ks : BitVec 8)
  /-- `HM_DONE` (R407). Ends an in-flight record, decrementing LIVE and the in-flight count. -/
  | hmDone (ks : BitVec 8)
  /-- `HM_KSCFG_OPEN` (R408). Opens a key space with its overflow ring. -/
  | hmKscfgOpen (d : BitVec 7) (w : BitVec 1) (a : BitVec 8) (b : BitVec 8) (ks : BitVec 8)
  /-- `HM_KSCFG_QUERY` (R408). Returns LIVE of a key space as an acquire. -/
  | hmKscfgQuery (d : BitVec 7) (w : BitVec 1) (ks : BitVec 8)
  /-- `HM_KSCFG_CLOSE` (R408). Closes a key space whose LIVE is 0. -/
  | hmKscfgClose (d : BitVec 7) (w : BitVec 1) (ks : BitVec 8)
  /-- `HM_GDRAIN` (R409). Saves and empties the Hamper of a guest into a save area. -/
  | hmGdrain (d : BitVec 7) (a : BitVec 8) (b : BitVec 8) (g : BitVec 12)
  /-- `HM_GRELOAD` (R409). Reinstalls a guest's saved Hamper state. -/
  | hmGreload (d : BitVec 7) (a : BitVec 8) (b : BitVec 8) (g : BitVec 12)
  /-- `TRAP` (R419). Parks the guard-true lanes with USER_TRAP. -/
  | trap (n : BitVec 8)
  /-- `RTT_RESUME` (R420). Ends the handler and resumes the parked lanes at TRAP.PC. -/
  | rttResume
  /-- `RTT_END` (R420). Ends the handler and the parked lanes as by exit. -/
  | rttEnd
  /-- `RDSYS` (R418). Reads a system register. -/
  | rdsys (d : BitVec 8) (s : BitVec 12)
  /-- `WRSYS` (R418). Writes TRAP.MASK. -/
  | wrsys (a : BitVec 8) (s : BitVec 12)
  /-- `WARN_CLR` (R421). Clears the masked WARN bits. -/
  | warnClr (m : BitVec 4)
  /-- `BRK` (R419). Parks the guard-true lanes with BREAKPOINT, or stops them for a debugger. -/
  | brk (n : BitVec 8)
  /-- `CTR_RD` (R422). Reads event counter k. -/
  | ctrRd (d : BitVec 8) (k : BitVec 2)
  /-- `CTR_CFG` (R422). Selects the event of counter k and optionally clears it. -/
  | ctrCfg (a : BitVec 8) (k : BitVec 2)
  /-- `YIELD` (R423). Removes the pick's lanes from the next vote point. -/
  | yield
  /-- `VREG_GROW` (R424). Asks for a larger register budget and waits until it is granted. -/
  | vregGrow (n : BitVec 8)
  /-- `VREG_SHRINK` (R424). Reduces the register budget at once. -/
  | vregShrink (n : BitVec 8)
  /-- `SCHED_HINT` (R425). Scheduling hint; the C640 only writes 0 to D. -/
  | schedHint (d : BitVec 7) (w : BitVec 1) (a : BitVec 8) (b : BitVec 8)
  /-- `PREF` (R349). Prefetches a line into the last-level cache. -/
  | pref (d : BitVec 7) (w : BitVec 1) (a : BitVec 8) (b : BitVec 8) (x : XM)
  /-- `EVICT_HINT` (R349). Marks a resident line stream at its home. -/
  | evictHint (d : BitVec 7) (w : BitVec 1) (a : BitVec 8) (b : BitVec 8) (x : XM)
  /-- `UNIMPLEMENTED_HINT` (R200). An unimplemented class 6 opcode writes 0 to D and does nothing else. -/
  | unimplementedHint (op : BitVec 8) (d : BitVec 7) (w : BitVec 1) (a : BitVec 8) (b : BitVec 8) (ext : BitVec 32)
  /-- `PORT_TRAINED` (R480). An Otger port finishes training its two lanes, or its training attempt fails, and the port comes up or awaits retry. -/
  | portTrained (port : Nat) (node : Nat) (ok : Bool)
  /-- `FLIT_CHECK_FAILURE` (R480). A received flit fails its check and the link layer resends it on the same port, counting towards takedown. -/
  | flitCheckFailure (port : Nat)
  /-- `AGENT_READMISSION` (R120). The domain manager readmits an agent it declared dead, no sooner than 10 ms after the declaration, under a new incarnation. -/
  | agentReadmission (agent : Nat)
  /-- `DEAD_ACKNOWLEDGEMENT` (R118). A module's acknowledgement of a DEAD declaration reaches the domain manager, which completes phase 1 when all have acknowledged. -/
  | deadAcknowledgement (agent : Nat) (from_ : Nat)
  /-- `HOST_DEATH_NOTICE` (R117). A module's notice that it declared its own host dead reaches the domain manager, which logs it. -/
  | hostDeathNotice (node : Nat)
  /-- `DEEP_SLEEP_ENTRY` (R484). With no context resident, the device enters deep-sleep, HBM self-refreshes and saved state is kept. -/
  | deepSleepEntry
  /-- `DEBUGGER_RESUME` (R419). A debugger lets lanes that brk stopped for it continue. -/
  | debuggerResume (gid : Nat)
  /-- `LINK_DOWN_HANDSHAKE` (R478). The host link goes down after a hot reset, Link Disable or PME_Turn_Off handshake, which is not a surprise link loss. -/
  | linkDownHandshake
  deriving DecidableEq, Repr

end Sys2Proof
end

