-- ==== Sys2Proof/Machine/State.lean ====
section
/-! DEFINITION. The state of the C640 module: everything the manual gives the machine, as plain data.
Storage that is large and mostly idle (cores, quads, tile slots, stash lines) is held as association
lists by number; a number that is not listed holds the value that reset and placement give it. -/

namespace Sys2Proof.Machine

/-- Why the machine stops with a fault. -/
inductive Fault where
  /-- The words at the issue point do not decode to a well-formed instruction. Raised by `step`. The
  manual says that such an encoding is never issued (R201), so the stop is safe. -/
  | neverIssued
  deriving DecidableEq, Repr

/-- Why an instruction is refused. -/
inductive Refusal where
  /-- The instruction has no meaning in the model yet. Raised by `exec` alone; safe. -/
  | notModelled (mnemonic : String)
  /-- The agenda holds an instruction form, which no unit of the device performs on its own account
  (R165). Raised by `step`; safe. -/
  | notAnEvent
  deriving DecidableEq, Repr

/-- Chain pointers of 37 bits (R94). -/
abbrev ChainPtr := BitVec 37

/-- The loop that a lane is in (R194, R295, R296). -/
structure LoopState where
  /-- address of the first body clause -/
  start : DWord
  /-- clauses in the body, and how many of them this pass has finished -/
  ncl : Nat
  idx : Nat
  /-- number of passes, read at the `loop` -/
  count : Nat
  /-- the increment words -/
  incs : List LoopInc
  deriving DecidableEq, Repr, Inhabited

/-- A place in the code: a clause, a word of it, and the loop pass (R193, R296). -/
structure Place where
  pc : DWord
  widx : Nat
  pass : Nat
  loop : Option LoopState
  deriving DecidableEq, Repr

/-- What a lane that is not ready waits for. -/
inductive Wait where
  /-- `conv` (R169) -/
  | conv
  /-- a convergent instruction (R170) -/
  | converge
  /-- a barrier: 0 group, 1 team, 2 + r role r, 6 roll-call (R337) -/
  | barrier (b : Nat)
  /-- a grow request for a budget (R176) -/
  | grow (n : Nat)
  /-- a fence, by its operation number (R335) -/
  | fence (op : Nat)
  /-- the performing of an operation that fell back, before `SCOPE_FALLBACK` (R202) -/
  | fallback (op : Nat)
  /-- a lock attempt after a failed compare-and-swap (R340) -/
  | lock
  /-- a handle ring or role box (R360, R361) -/
  | ring
  /-- the engine's owner queue (R374) -/
  | owner
  /-- `eng.wait` for at most so many operations, and the scalar that it will write (R348) -/
  | engine (k reg : Nat)
  /-- stopped for a debugger by `brk` (R419) -/
  | debugger
  /-- a resource that an instruction needs at issue (R60, R86, R148, R182, R372) -/
  | resource
  deriving DecidableEq, Repr

/-- A lane's part in issue (R165). -/
inductive LaneStatus where
  | ready
  | waiting (w : Wait)
  | parked
  | exited
  deriving DecidableEq, Repr

/-- One lane of a group (R158, R11). -/
structure Lane where
  /-- vector registers v0 to v127 -/
  v : Vector Word 128
  /-- predicates p0 to p7; p7 reads as 1 whatever its bit holds -/
  p : BitVec 8
  /-- program counter: the address of a clause header -/
  pc : DWord
  /-- 0 before the clause issues; n + 1 at word n of the clause, with its guard and latches (R193) -/
  widx : Nat
  /-- where the lane goes on when its wait ends -/
  resume : Option Place
  /-- bypass latches b0 to b3 (R191) -/
  lat : Vector Word 4
  /-- the guard value taken when the clause issued (R183) -/
  guard : Bool
  /-- pass number of the loop that the lane is in (R296) -/
  pass : Nat
  /-- the loop that the lane is in -/
  loop : Option LoopState
  /-- where a control transfer of the clause sends the lane (R179) -/
  target : Option DWord
  /-- clauses that the lane passes over, up to its target, when its clause ends (R375) -/
  past : Nat
  /-- vote points at which the lane was ready but did not issue (R165) -/
  age : Nat
  /-- the lane skips the next vote point (R184) -/
  skip : Bool
  status : LaneStatus
  /-- destination registers of results still to return, with their operation numbers (R182) -/
  pend : List (Nat × Nat)
  /-- acquire operations of the lane that have not performed (R136) -/
  acq : List Nat
  /-- convergent instructions that its group has performed without it: address of the clause, word and pass (R171) -/
  missed : List (DWord × Nat × Nat)
  deriving DecidableEq, Repr

/-- A page request of a parked fetch (R448). -/
structure PageReq where
  /-- virtual address of the page -/
  va : DWord
  /-- the host has been asked -/
  sent : Bool
  /-- a response that came after the context was saved: its code (R448) -/
  response : Option Nat
  deriving DecidableEq, Repr, Inhabited

/-- A parked sub-group (R443). -/
structure SubGroup where
  lanes : BitVec 64
  /-- TRAP.CAUSE (R416) -/
  cause : DWord
  /-- TRAP.PC -/
  pc : DWord
  /-- TRAP.VA -/
  va : DWord
  /-- vector registers that the trapping check reads, which keep the handler's values (R446) -/
  keep : List Nat
  fetch : Option PageReq
  deriving DecidableEq, Repr

/-- What a trap frame keeps of one lane (R445). -/
structure FrameLane where
  idx : Nat
  lane : Lane
  deriving DecidableEq, Repr

/-- A trap frame with its handler bank (R445). -/
structure Frame where
  sub : SubGroup
  saved : List FrameLane
  bankS : Vector DWord 64
  bankH : Vector (BitVec 16) 32
  /-- number of the first operation that the handler can issue -/
  since : Nat
  deriving DecidableEq, Repr

/-- An operation that a group counts on c0 or c1, in issue order (R182). -/
structure Counted where
  op : Nat
  /-- parts that have still to complete -/
  left : Nat
  deriving DecidableEq, Repr, Inhabited

/-- An event counter (R422). -/
structure EventCtr where
  sel : BitVec 8
  val : BitVec 48
  deriving DecidableEq, Repr, Inhabited

/-- An epilogue binding (R381). -/
structure Epilogue where
  /-- parameter handle, when a parameter tile is bound -/
  param : Option (BitVec 16)
  /-- address of the epilogue's first clause -/
  entry : DWord
  deriving DecidableEq, Repr

/-- A group (R158 to R163, R414). -/
structure Group where
  /-- unique number of the resident or saved group -/
  gid : Nat
  /-- the launch, and the team within it -/
  launch : Nat
  team : Nat
  /-- GROUP.ID, ROLE.ID and ROLE.RANK (R160) -/
  index : Nat
  role : Nat
  rank : Nat
  /-- GROUP.SIZE -/
  width : Nat
  core : Nat
  slot : Nat
  /-- first lane position, first register row, and pack number (R162, R163) -/
  pos : Nat
  row : Nat
  pack : Nat
  /-- vector registers that each lane holds (R176) -/
  budget : Nat
  resident : Bool
  /-- stopped by a freeze (R450) or by link loss (R478) -/
  frozen : Bool
  /-- ended under R294 -/
  ended : Bool
  lanes : List Lane
  s : Vector DWord 64
  h : Vector (BitVec 16) 32
  /-- the operations that c0, c1, c2 and c3 count; a counter is the length of its list (R182) -/
  q0 : List Counted
  q1 : List Counted
  q2 : List Nat
  q3 : List Nat
  /-- scalar registers whose results are still to return, with their operation numbers (R182) -/
  spend : List (Nat × Nat)
  warn : BitVec 4
  trapMask : BitVec 2
  trapCause : DWord
  trapPC : DWord
  trapVA : DWord
  trapVec : DWord
  ctxId : DWord
  ctrs : Vector EventCtr 4
  /-- engine error word (R348) -/
  engErr : DWord
  epi : Option Epilogue
  /-- in-flight Hamper table (R411) -/
  inflight : List (Nat × Nat)
  /-- parked sub-groups, oldest first (R443) -/
  parkedSubs : List SubGroup
  /-- trap frames, innermost first (R445, R447) -/
  frames : List Frame
  /-- a store drain of the group was dropped at a dead node (R122) -/
  dropped : Bool
  /-- barrier instances at which the group has arrived (R337) -/
  arrived : Option Nat
  /-- core cycles that a grow request has waited past its limit (R177) -/
  growLate : Bool
  /-- the grow request's place in its slot's order of arrival (R177) -/
  growSeq : Nat
  /-- place in the order in which groups asked for their quad's engine: the owner queue's join time (R374, R457) -/
  joined : Nat
  deriving DecidableEq, Repr

/-- A handle waiting in a role box (R361). -/
structure BoxEntry where
  handle : BitVec 16
  takeable : Bool
  deriving DecidableEq, Repr

/-- Why the scheduler stops one team (R175, R178, R476, R488). -/
inductive TeamStop where
  /-- it changes places with a saved team of its grid -/
  | rotation (team : Nat)
  /-- it makes room in a grow deadlock of a core -/
  | deadlock (core : Nat)
  /-- its quad drains for repair (R488) -/
  | repair (quad : Nat)
  /-- the core or quad that it shares with a guest is to be scan-reset (R476) -/
  | reset (guest : Nat)
  deriving DecidableEq, Repr

/-- A team (R158, R159). -/
structure Team where
  launch : Nat
  team : Nat
  quadTeam : Bool
  /-- its core, or the first core of its quad -/
  core : Nat
  /-- core-local index (R67) -/
  local' : Nat
  /-- placement order -/
  seq : Nat
  resident : Bool
  ended : Bool
  /-- stash quota: first line on each core used, and length -/
  stashBases : List Nat
  stashLines : Nat
  /-- tile-store slots reserved for the team: core and slot (R436) -/
  slots : List (Nat × Nat)
  accBase : Nat
  accCount : Nat
  /-- logical handles (R353) and their rename-table entries -/
  handles : Nat
  rename : List DWord
  /-- role boxes 0 to 3 (R361) -/
  boxes : List (List BoxEntry)
  /-- copy references held: flask tokens (R79) -/
  flaskRefs : List (BitVec 30)
  /-- why the scheduler has stopped it, to save it (R175, R178, R476, R488) -/
  stopped : Option TeamStop
  deriving DecidableEq, Repr

/-- A translation in a TLB (R39, R40). -/
structure TlbEntry where
  guest : Nat
  /-- VA[54:21] -/
  window : Nat
  /-- physical page of the window's first page -/
  base : Nat
  vmask : BitVec 32
  dmask : BitVec 32
  /-- guest-physical pages that stage 1 produced -/
  ipas : List Nat
  /-- stage-1 and stage-2 leaf addresses of the window's first page, to set DIRTY through -/
  rd : Bool
  wr : Bool
  coh : BitVec 2
  ret : BitVec 2
  mig : Bool
  remote : Bool
  node : Nat
  deriving DecidableEq, Repr

/-- A line of the L1 data cache (R59 to R62). -/
structure L1Line where
  /-- physical line number -/
  line : Nat
  coh : BitVec 2
  data : LineData
  deriving DecidableEq, Repr

/-- An entry of the coalescing buffer (R59). -/
structure CbEntry where
  id : Nat
  line : Nat
  /-- bit i: byte i is written -/
  mask : BitVec 128
  data : LineData
  /-- the group operations whose bytes the entry holds -/
  ops : List (Nat × Nat)
  /-- the bytes that a lane has stored, read, or learnt of by an acquire: (group, lane, bytes) -/
  known : List (Nat × Nat × BitVec 128)
  coh : BitVec 2
  ret : BitVec 2
  mig : Bool
  remote : Bool
  node : Nat
  /-- store requests that have entered it, and tickets that are used up when it has drained: fabric's or not (R145) -/
  reqs : List Nat
  tickets : List (Bool × Nat)
  /-- the drain deadline has passed (R60) -/
  due : Bool
  deriving DecidableEq, Repr

/-- State of a stash line (R66, R70). -/
inductive StashState where
  | unbacked
  | invalid
  | filling
  | clean
  | dirty
  deriving DecidableEq, Repr

/-- A stash line. -/
structure StashLine where
  state : StashState
  data : LineData
  /-- physical line and attributes that the fill translated -/
  line : Nat
  coh : BitVec 2
  remote : Bool
  node : Nat
  ret : BitVec 2
  deriving DecidableEq, Repr

/-- State of a tile slot (R355). -/
inductive SlotState where
  | free
  | live
  | retiring
  deriving DecidableEq, Repr

/-- A slot of the tile store (R351, R352, R355). -/
structure TileSlot where
  state : SlotState
  data : BitVec 16384
  tag : DWord
  /-- posted operations that will read or write the slot (R367) -/
  readers : List Nat
  writers : List Nat
  deriving DecidableEq, Repr

/-- What a core holds (R53). -/
structure Core where
  /-- L1 data lines, most recently used first -/
  l1 : List L1Line
  /-- lines held by the L1 instruction cache (R50) -/
  icache : List Nat
  cbuf : List CbEntry
  stash : List (Nat × StashLine)
  /-- stash mapping table, by entry number (R67) -/
  maps : List (Nat × BitVec 128)
  tiles : List (Nat × TileSlot)
  /-- requests that hold entries of the outstanding-request table, and those that wait to be sent (R86) -/
  outst : List Nat
  /-- lines whose write-backs and recall answers hold entries, and those that wait to be sent (R86) -/
  backs : List Nat
  unsent : List Nat
  itlb : List TlbEntry
  dtlb : List TlbEntry
  deriving DecidableEq, Repr

/-- An accumulator tile (R368). -/
structure AccTile where
  /-- kind i32; f32 otherwise -/
  isInt : Bool
  /-- the 1,024 elements, row by row; those beyond the list are 0 -/
  elems : List Word
  deriving DecidableEq, Repr

/-- An operand tile of a posted entry: where it lies and the tags captured (R367, R372). -/
structure OpTile where
  core : Nat
  slot : Nat
  tag : DWord
  /-- scale and zero-point tiles: core, slot and tag of each, when the tag uses them -/
  scale : Option (Nat × Nat × DWord)
  zero : Option (Nat × Nat × DWord)
  deriving DecidableEq, Repr

/-- What a reservation-table entry does. -/
inductive ResvKind where
  | pass
  | blanket
  | zero
  | drainTile
  | drainMem
  | drainColl
  deriving DecidableEq, Repr

/-- A reservation-table entry (R372, R441). -/
structure ResvEntry where
  id : Nat
  kind : ResvKind
  /-- launch and team of the key -/
  launch : Nat
  team : Nat
  gid : Nat
  /-- accumulator tile of the quad -/
  acc : Nat
  /-- each row quarter in the entry's row set, with the posting that brought it and its A operand -/
  rows : List (Nat × Nat × OpTile)
  /-- B operand, or the four quarters of a blanket -/
  b : List OpTile
  slice : Nat
  ovr : Bool
  isInt : Bool
  /-- operations that the entry counts down: (group, operation) -/
  counts : List (Nat × Nat)
  level : Nat
  waited : Nat
  dispatched : Bool
  /-- destination of a drain to a tile, its half and format; or the engine operation of another drain -/
  dst : Option OpTile
  half : Nat
  fmt : Nat
  epi : Option Epilogue
  /-- the parameter tile of the epilogue -/
  param : Option OpTile
  zeroAfter : Bool
  engOp : Nat
  deriving DecidableEq, Repr

/-- A running stream (R375). -/
structure Stream where
  op : Nat
  gid : Nat
  /-- iterations wanted, iterations done, and the next command -/
  count : Nat
  iter : Nat
  cmd : Nat
  /-- ring references of the command whose values have been taken -/
  took : Nat
  /-- the body's instruction words -/
  body : List Word
  rings : List (BitVec 16)
  /-- current handle of each ring -/
  cur : List (Option (BitVec 16))
  statusVA : DWord
  scope : BitVec 3
  /-- the status with which the stream stopped: status, ring and handle value -/
  stopped : Option (Nat × Nat × Nat)
  deriving DecidableEq, Repr

/-- A record waiting in a Hamper slice (R385, R386). -/
structure HRec where
  set : Nat
  key : DWord
  tenant : Nat
  ks : Nat
  op : Nat
  entry : Word
  payload : List Word
  stamp : Nat
  deriving DecidableEq, Repr

/-- What a quad holds (R53). -/
structure Quad where
  acc : List (Nat × AccTile)
  resv : List ResvEntry
  owner : Option Nat
  ownerQ : List Nat
  stream : Option Stream
  /-- range-lock table, by entry number (R147) -/
  ranges : List (Nat × BitVec 128)
  l2tlb : List TlbEntry
  hrecs : List HRec
  /-- powered off (R484) -/
  off : Bool
  deriving DecidableEq, Repr

/-- The kind of an engine operation (R147). -/
inductive EngKind where
  | copy
  | gather
  | coll
  | drainMem
  | drainColl
  | stream
  deriving DecidableEq, Repr

/-- An engine operation in flight (R341, R378, R150, R151). -/
structure EngOp where
  id : Nat
  kind : EngKind
  quad : Nat
  gid : Nat
  core : Nat
  guest : Nat
  opid : Nat
  scope : BitVec 3
  ret : BitVec 2
  dst : DWord
  dstStash : Bool
  src : DWord
  srcStash : Bool
  /-- lines, and the next line to perform -/
  lines : Nat
  next : Nat
  /-- gather: table, its length and the element size -/
  table : DWord
  tlen : DWord
  esize : Nat
  /-- collective: control word and receive length; drain: row stride, format -/
  ctrl : DWord
  rlen : DWord
  /-- ranks of the collective set, as nodes and quads (R482) -/
  ranks : List (Nat × Nat)
  /-- the rows that a drain produced, or the lines that a collective writes, in order, and their bytes in all -/
  rows : List LineData
  total : Nat
  rowBytes : Nat
  stride : Nat
  /-- source lines of a copy read before the operation's writes (R342) -/
  captured : List LineData
  /-- group operations whose stores the engine must find performed (R150) -/
  after : List (Nat × Nat)
  started : Bool
  /-- the operation's rows are ready: a drain has been dispatched -/
  ready : Bool
  /-- stop cause of R348 and the line at which it stopped; 0 while there is none -/
  cause : Nat
  errLine : Nat
  /-- stopped at a line boundary by a freeze (R451) -/
  paused : Bool
  deriving DecidableEq, Repr

/-- A posted tile operation (R363 to R365, R379). -/
inductive TileKind where
  | load
  | store
  /-- a conversion: its slice, and whether NaN replaces an overflow -/
  | convert (slice : Nat) (nan : Bool)
  | spread
  deriving DecidableEq, Repr

/-- A tile operation that has been posted and has not finished. -/
structure TileOp where
  op : Nat
  gid : Nat
  kind : TileKind
  /-- the tile it reads, with the tags captured -/
  src : Option OpTile
  /-- the tile it converts into, with its tag -/
  dst : Option OpTile
  /-- the slots it writes -/
  writes : List (Nat × Nat)
  deriving DecidableEq, Repr

/-- Atomic operations (R333). -/
inductive AtomOp where
  | add
  | mini
  | maxi
  | minn
  | maxn
  | and
  | or
  | xor
  | xchg
  | cas
  | addf
  deriving DecidableEq, Repr

/-- How a loaded value enters the registers (R325). -/
inductive LoadFmt where
  | zx
  | sx
  | words
  deriving DecidableEq, Repr

/-- What a request asks of its home (R57). -/
inductive ReqKind where
  | load
  | store
  | atom (a : AtomOp)
  | flask (f : Nat)
  | fence
  | lockAcq
  | lockRel
  | hint
  /-- Hamper: 0 put, 1 range put, 2 get, 3 key-space function, 4 save, 5 reload -/
  | hamper (f : Nat)
  /-- a load or store of stash bytes (R70) -/
  | touch (isStore : Bool)
  /-- a stash fill, of a writable mapping or not -/
  | stash (write : Bool)
  deriving DecidableEq, Repr

/-- The leaf attributes that travel with a request (R30, R36). -/
structure Attr where
  coh : BitVec 2
  ret : BitVec 2
  mig : Bool
  remote : Bool
  node : Nat
  deriving DecidableEq, Repr, Inhabited

/-- One lane's part of a request. -/
structure Part where
  lane : Nat
  va : DWord
  /-- physical byte address on the owning module -/
  pa : Nat
  /-- the bytes of the access that this part covers: first, and number -/
  off : Nat
  len : Nat
  /-- store data, atomic operand or compare value, and the swap value -/
  data : BitVec 128
  data2 : BitVec 128
  /-- first destination register, none where no register is written -/
  dst : Option Nat
  /-- the value that the answer brings -/
  value : BitVec 128
  /-- cause of a trap that the answer brings, 0 for none (R327) -/
  trap : DWord
  /-- ticket of a `seqcst` event (R144) -/
  ticket : Nat
  deriving DecidableEq, Repr

/-- A request on its way to its home, or answered and on its way back. -/
structure Req where
  id : Nat
  op : Nat
  gid : Nat
  core : Nat
  guest : Nat
  kind : ReqKind
  /-- line, with the node above it when the page is remote; of a stash access, the line of the stash -/
  line : Nat
  /-- the global line that a writable mapping gives a stash access (R153) -/
  mapped : Option Nat
  size : Nat
  attr : Attr
  scope : BitVec 3
  order : BitVec 3
  fmt : LoadFmt
  parts : List Part
  /-- requests that must have performed first (R136, R141) -/
  after : List Nat
  /-- coalescing-buffer entries that must have drained first (R60, R136) -/
  drains : List Nat
  /-- a `seqcst` event: some true asks for a fabric ticket (R144) -/
  seq : Option Bool
  /-- its tickets have been granted -/
  granted : Bool
  /-- it has reached its home -/
  sent : Bool
  /-- it has performed, and whether the line was poisoned -/
  done : Bool
  poison : Bool
  /-- WARN bits that the operation sets when it performs -/
  warn : BitVec 4
  /-- its lanes as they stand at the instruction, where a lane that the answer traps goes back (R193) -/
  held : List (Nat × Lane)
  /-- words of a Hamper record, or of a flask or fence operation -/
  words : List DWord
  deriving DecidableEq, Repr

/-- A request held at the home of a line (R98, R99). -/
inductive Waiter where
  | read (src : ChainPtr)
  | own (src : ChainPtr)
  | req (id : Nat)
  | drain (core entry : Nat)
  /-- a host request: 0 read for a shared copy, 1 for an exclusive copy, 2 write of a half, 3 read with no
  copy kept, 4 write-back, 5 eviction notice, 6 SnpData, 7 SnpInv, 8 SnpCur, 9 BAR 2 read, 10 BAR 2 write -/
  | host (kind half : Nat) (data : BitVec 512)
  /-- a request that another module forwards, as `HomeArrival.foreign` -/
  | foreign (node kind : Nat) (mask : BitVec 128) (data : LineData)
  deriving DecidableEq, Repr

/-- The tag of a line at its home slice, or in the caching slice of a remote `sys` line (R63, R72, R95, R98,
R108). -/
structure HomeTag where
  /-- line, with the node above it when the page is remote -/
  line : Nat
  way : Nat
  ret : BitVec 2
  cls : Nat
  /-- the core whose stash owns the line -/
  owner : Option Nat
  hst : BitVec 3
  head : ChainPtr
  homeWalk : Bool
  hostHi : BitVec 2
  hostLo : BitVec 2
  /-- bridge states of the halves of a host-window line: 0 I, 1 S, 2 E, 3 M (R108) -/
  brHi : BitVec 2
  brLo : BitVec 2
  /-- purge-table position (R98) -/
  walkPos : ChainPtr
  /-- the recall sent to the owning stash: 0 none, 1 read, 2 write -/
  recallSent : Nat
  /-- the halves whose host transactions are outstanding; the line has been chosen as a victim and its steps are
  under way (R100); and what waits, first served first -/
  pending : BitVec 2
  leaving : Bool
  /-- the operation, by group and number, whose atomics on the line are half done: nothing comes between (R334) -/
  run : Option (Nat × Nat)
  queue : List Waiter
  deriving DecidableEq, Repr

/-- The tag and data of a line of a remote `sys` page in its caching slice (R96, R101). -/
structure CacheTag where
  /-- line with the node above it -/
  line : Nat
  cst : BitVec 4
  fwd : ChainPtr
  back : ChainPtr
  data : LineData
  /-- requests sent and not answered, and the entry to which a walker's PURGE goes -/
  acks : Nat
  target : ChainPtr
  /-- a PURGE whose answer is held (R103) -/
  heldPurge : Option ChainPtr
  /-- an OWN follows the unlink -/
  wantOwn : Bool
  /-- back-off of the last RETRY, in base-die clocks (R99) -/
  backoff : Nat
  poison : Bool
  /-- a FETCH, or with true a RECALL, that came within a run of atomics (R334) -/
  asked : Option Bool
  /-- requests of the module that wait for the line, first served first -/
  queue : List Waiter
  deriving DecidableEq, Repr

/-- A migration-table entry (R114). -/
structure MigEntry where
  spage : Nat
  dpage : Nat
  dnode : Nat
  dhost : Bool
  tag : Word
  caddr : Nat
  /-- lines forwarded so far -/
  copied : Nat
  reported : Bool
  deriving DecidableEq, Repr

/-- A migration counter entry (R110). -/
structure MigCount where
  page : Nat
  /-- 0x1000 stands for the host -/
  owner : Nat
  count : Nat
  deriving DecidableEq, Repr

/-- An admission in progress at a Stile engine (R219 to R221, R250). -/
structure Admission where
  request : BitVec 512
  /-- the pages on which it has set PENDING -/
  pages : List Nat
  /-- the verdict: result record, and the kernel entry and bitmaps on a pass -/
  result : BitVec 512
  pass : Bool
  entry : BitVec 2048
  bitmaps : List (BitVec 16384)
  /-- offsets at which the kernel's epilogues begin and end (R381) -/
  epilogues : List (Nat × Nat)
  deriving DecidableEq, Repr

/-- What a base die holds. -/
structure Die where
  counts : List MigCount
  /-- proposals that are due and not yet written: page and owner (R110, R111) -/
  pqOut : List (Nat × Nat)
  migs : List MigEntry
  /-- requests waiting for the Stile engine, and the one in progress (R219) -/
  stileQ : List (BitVec 512)
  stile : Option Admission
  /-- COH.PURGE_DL, MIG.CTRL, MIG.PQBASE, MIG.PQHEAD, MIG.PQTAIL, MIG.RQTAIL, MIG.RQHEAD (R124) -/
  purgeDL : Word
  migCtrl : DWord
  pqBase : DWord
  pqHead : DWord
  pqTail : DWord
  rqTail : DWord
  rqHead : DWord
  deriving DecidableEq, Repr

/-- The home side of memory: tags, poison and forwarded lines. -/
structure Home where
  /-- lines held by the last-level cache, most recently used first -/
  tags : List HomeTag
  caches : List CacheTag
  /-- poisoned lines (R88) -/
  poison : List Nat
  /-- lines forwarded to a destination line: (line, node, destination), node 0x1000 for the host (R114) -/
  forwarded : List (Nat × Nat × Nat)
  /-- chain requests answered RETRY and not yet accepted, oldest first: slice, line, requester (R99) -/
  refused : List (Nat × Nat × ChainPtr)
  /-- requests at the slices' inputs, oldest first (R99, R100) -/
  inbox : List (Nat × Waiter)
  deriving DecidableEq, Repr

/-- The protected carve-out and the security controller's tables (R27). -/
structure Trusted where
  base : Nat
  size : Nat
  numBitmaps : Nat
  caps : List (Nat × BitVec 256)
  seals : List (Nat × DWord)
  bitmaps : List (Nat × BitVec 16384)
  kernels : List (Nat × BitVec 2048)
  keys : List (Nat × BitVec 256)
  /-- save counter of each protected context, by launch (R458) -/
  saveCtrs : List (Nat × DWord)
  /-- recorded CTR of each saved team: (launch, team, CTR) -/
  savedCtr : List (Nat × Nat × DWord)
  /-- launches that the trusted firmware has approved (R486) -/
  approved : List Nat
  /-- the epilogues of the admitted kernels: kernel, and the offsets at which one begins and ends (R381, log 34) -/
  epilogues : List (Nat × Nat × Nat)
  deriving DecidableEq, Repr

/-- A walk-cache entry: guest, stage, level, index path and entry value (R39). -/
structure WalkEntry where
  guest : Nat
  stage2 : Bool
  level : Nat
  path : Nat
  value : DWord
  deriving DecidableEq, Repr

/-- Registers of an invalidation or submission queue (R43, R426). -/
structure Queue where
  base : DWord
  ctrl : DWord
  tail : DWord
  head : DWord
  deriving DecidableEq, Repr

/-- A guest descriptor in use (R35): its bytes as they were read, the queues on which an `INV_S1_ALL` and an
`INV_S2_ALL` of the guest wait for a SYNC, and whether each has completed. -/
structure DescUse where
  guest : Nat
  value : BitVec 256
  s1 : List Nat
  s2 : List Nat
  s1done : Bool
  s2done : Bool
  deriving DecidableEq, Repr

/-- Translation machinery beside the TLBs. -/
structure Xlate where
  walkCaches : List (Nat × List WalkEntry)
  /-- valid guest descriptors in use (R35) -/
  descs : List DescUse
  /-- invalidation queues: guest g, and 4,096 for the hypervisor's -/
  iqs : List (Nat × Queue)
  /-- SYNC commands consumed and not complete: queue, the number that its time gives, ADDRESS and DATA (R45) -/
  syncs : List (Nat × Nat × DWord × Word)
  deriving DecidableEq, Repr

/-- Registers of BAR 0 that no other part of the state holds (R474). -/
structure Regs where
  gdtBase : DWord
  preDL : DWord
  hloss : DWord
  domNode : DWord
  domCtrl : DWord
  pwrLimit : DWord
  stickyQuota : List (Nat × Word)
  schedQuant : List (Nat × Word)
  featNative : BitVec 256
  featMask : List (Nat × BitVec 256)
  collBase : DWord
  hbmRetire : DWord
  qrep : DWord
  deriving DecidableEq, Repr

/-- The sequencers (R144, R145). -/
structure Seqr where
  /-- next ticket, and tickets granted and not performed, of the device sequencer -/
  devNext : Nat
  devOut : List Nat
  /-- the same for the fabric sequencer that this module asks -/
  fabNext : Nat
  fabOut : List Nat
  deriving DecidableEq, Repr

/-- A launch from acceptance to completion (R428 to R433). -/
structure Launch where
  id : Nat
  /-- submission queue that it came from: function, queue -/
  fn : Nat
  queue : Nat
  guest : Nat
  tenant : Nat
  kernel : Nat
  priv : Bool
  prot : Bool
  migr : Bool
  super : Bool
  fence : Bool
  prio : Nat
  sticky : Nat
  keyIdx : Nat
  nteam : Nat
  stashQ : Nat
  tileQ : Nat
  accQ : Nat
  code : DWord
  btab : DWord
  cpl : DWord
  cplPA : Nat
  tag : DWord
  trapVec : DWord
  /-- the launch image's scalars (R430) -/
  image : Vector DWord 64
  caps : List Nat
  /-- recorded shape: width, quad team, handles, roles as (groups, minimum, maximum, entry address) -/
  width : Nat
  quadTeam : Bool
  handles : Nat
  roles : List (Nat × Nat × Nat × DWord)
  /-- next team to place -/
  nextTeam : Nat
  /-- teams that have ended -/
  teamsDone : Nat
  /-- drain or freeze in progress: 0 none, 1 drain, 2 freeze (R450) -/
  tier : Nat
  quiesced : Bool
  /-- the launch for which the scheduler stopped this one (R438, R453) -/
  stoppedFor : Option Nat
  /-- it has accessed the host window since it was placed, and it is frozen by the loss of the host link (R478) -/
  touchedHost : Bool
  linkFrozen : Bool
  /-- ended by forced reset (R455) -/
  reset : Bool
  /-- it has waited 100 microseconds with no team placed (R438) -/
  waitLimit : Bool
  deriving DecidableEq, Repr

/-- A descriptor that waits for the result of an admission (R434): what the scheduler has read of it. -/
structure Pending where
  fn : Nat
  queue : Nat
  desc : BitVec 2048
  cplPA : Nat
  tenant : Nat
  kernel : Nat
  /-- submission tag and result address of the request that it waits for -/
  tag : DWord
  result : Nat
  deriving DecidableEq, Repr

/-- A saved team's image (R456 to R458): the header, and the sections as the state they hold. Cores are numbered
from the team's first. -/
structure Image where
  id : Nat
  launch : Nat
  header : BitVec 512
  /-- the team has been saved in it and has not been restored -/
  current : Bool
  /-- the team as it was saved -/
  team : Team
  groups : List Group
  /-- lines of the quota, by core and place in the quota -/
  stash : List (Nat × Nat × StashLine)
  maps : List (Nat × BitVec 128)
  tiles : List (Nat × Nat × TileSlot)
  /-- accumulator tiles, by place in the quota -/
  acc : List (Nat × AccTile)
  resv : List ResvEntry
  tileOps : List TileOp
  engOps : List EngOp
  /-- range-lock entries of the engine operations, by operation identifier -/
  ranges : List (Nat × BitVec 128)
  /-- the group that owned its quad's engine, and those in its owner queue -/
  owner : Option Nat
  queued : List Nat
  stream : Option Stream
  deriving DecidableEq, Repr

/-- The Hamper of the resident guest (R387, R396, R399). -/
structure Hamper where
  /-- the guest whose key spaces the slices hold -/
  guest : Option Nat
  /-- key spaces that are not clear, by number (R387) -/
  kspaces : List (Nat × BitVec 256)
  nextStamp : Nat
  /-- save areas of the guests that the scheduler has switched out: key spaces, and waiting records by slice (R410, R440) -/
  saved : List (Nat × List (Nat × BitVec 256) × List (Nat × HRec))
  /-- what groups of a guest that is neither held nor saved have done: guest, key space and count (R410, R411) -/
  owed : List (Nat × Nat × Nat)
  deriving DecidableEq, Repr

/-- The scheduler (R426 to R440). -/
structure Sched where
  sqs : List (Nat × Nat × Queue)
  launches : List Launch
  images : List Image
  nextLaunch : Nat
  nextImage : Nat
  nextGid : Nat
  nextSeq : Nat
  guest : Nat
  /-- the last restore result (R459) -/
  restoreResult : Nat
  /-- placement is paused by a firmware handover or a drain: quads withdrawn from placement -/
  withdrawn : List Nat
  /-- a verified image waits to take over (R488) -/
  handover : Bool
  /-- descriptors that wait for an admission (R434) -/
  pending : List Pending
  /-- the descriptor that each queue is being served with: function, queue, and its bytes, which are read once (R427) -/
  taken : List (Nat × Nat × BitVec 2048)
  /-- the queue of each function that it serves next (R427) -/
  nextQueue : List (Nat × Nat)
  /-- a switch to another guest is under way (R440) -/
  switchTo : Option Nat
  deriving DecidableEq, Repr

/-- Security state (R484), as `State.security` gives it. -/
inductive Security where
  | open'
  | production
  | protectedPresent
  deriving DecidableEq, Repr

/-- Debug state (R484). -/
inductive Debug where
  | off
  | tenant (t : Nat)
  | device
  deriving DecidableEq, Repr

/-- Power state (R484). The gating of idle clocks has no visible effect, and a quad that is off says so itself. -/
inductive Power where
  | active
  | deepSleep
  deriving DecidableEq, Repr

/-- State of one Otger port (R480). -/
inductive PortState where
  | off
  | training
  | awaitingRetry
  | up
  | down
  deriving DecidableEq, Repr

/-- A declaration of a dead agent in progress (R118). -/
structure Declaration where
  agent : Nat
  inc : Nat
  /-- modules whose acknowledgements and SCAN_DONEs the manager has -/
  acks : List Nat
  scans : List Nat
  phase : Nat
  deriving DecidableEq, Repr

/-- Severity of a logged host access (R27, R52). -/
inductive Severity where
  | advisory
  | uncorrectable
  deriving DecidableEq, Repr

/-- An entry of the device error log (R88, R52, R43 and others). -/
inductive LogEntry where
  | refusedWrite (line : Nat)
  | droppedWrite (line : Nat)
  | queueOverrun (q : Nat)
  | hamperDiscard (ks : Nat)
  | contextEnded (launch : Nat) (cause : DWord)
  | restoreRefused (launch team : Nat) (result : Nat)
  | featMaskIgnored (guest : Nat)
  | commandDiscarded (reg : Nat)
  /-- a host access of the carve-out or a host write of a sealed page, with its severity -/
  | hostAccess (line : Nat) (sev : Severity)
  | poisoned (line : Nat)
  | correctedError (line : Nat)
  | hostDead
  | nodeDead (node : Nat)
  | flrEnded (launch guest : Nat)
  | portDown (port : Nat)
  | overTemperature (die : Nat)
  | debugRefused
  | identityConflict (port : Nat)
  deriving DecidableEq, Repr

/-- A chain request that names a dead agent, held in phase 2 (R118). -/
inductive HeldKind where
  | read (mig : Bool)
  | own (mig : Bool)
  | unhead (fwd : ChainPtr)
  | setfwd (p : ChainPtr)
  | setback (p : ChainPtr)
  deriving DecidableEq, Repr

/-- Such a request with the line (at a caching entry, its key), its sender and incarnation. -/
structure Held where
  line : Nat
  src : ChainPtr
  inc : BitVec 8
  kind : HeldKind
  deriving DecidableEq, Repr

/-- The walk of an entry whose back neighbour is dead (R119): the line's key, the agent, and the entry that is being
purged. -/
structure Orphan where
  key : Nat
  agent : Nat
  target : ChainPtr
  deriving DecidableEq, Repr

/-- The platform around the compute part (19, and R117 to R123). -/
structure Plat where
  linkUp : Bool
  ports : List (Nat × PortState)
  /-- node at the other end of each trained port -/
  portNode : List (Nat × Nat)
  /-- failed flits of each port in the last second -/
  flits : List (Nat × Nat)
  /-- the production fuse is blown (R484) -/
  fused : Bool
  debug : Debug
  power : Power
  /-- incarnation table: agent to number; agent 4,096 is this module's host (R118) -/
  incs : List (Nat × BitVec 8)
  dead : List Nat
  declarations : List Declaration
  /-- chain requests that name a dead agent, and walks of entries that it has orphaned, in phase 2 (R118, R119) -/
  held : List Held
  orphans : List Orphan
  /-- modules reported to this module as manager, by reporter (R117) -/
  reports : List (Nat × Nat)
  /-- nodes of the domain known to this module -/
  nodes : List Nat
  /-- a management mirror of the error log and the recovery path -/
  recovery : Bool
  firmware : Nat
  pendingImage : Bool
  /-- vote points and dispatches withheld by the power window (R483) -/
  throttled : Bool
  /-- first pages of the 2 GiB ranges that have been retired (R488) -/
  retired : List Nat
  /-- spare cores swapped in, by compute die (R15, R488) -/
  spares : List (Nat × Nat)
  /-- QREP.STATE of each quad (R489) -/
  qstates : List (Nat × BitVec 3)
  /-- the management controller's copy of the device error log (R485) -/
  mirror : List LogEntry
  /-- Function Level Resets under way: the guest, and the quads that held its contexts (R476) -/
  resets : List (Nat × List Nat)
  deriving DecidableEq, Repr

/-- What a chain message asks or answers (R98, R101). -/
inductive ChainMsg where
  /-- requests to the home; MIG of the requester's leaf goes with READ and OWN (R110) -/
  | read (mig : Bool)
  | own (mig : Bool)
  | unhead (fwd : ChainPtr)
  | done
  | wb (dirty poison : Bool) (data : LineData)
  | purgeCopy (next : ChainPtr)
  | fetchAnswer (dirty poison : Bool) (data : LineData)
  | recallAnswer (dirty poison : Bool) (data : LineData)
  /-- from the home -/
  | data (oldHead : ChainPtr) (uncached poison : Bool) (data : LineData)
  | grant (oldHead : ChainPtr) (walkOwn poison : Bool) (data : LineData)
  | fetch
  | recall
  | notHead
  /-- between entries -/
  | purge
  | purgeAnswer (next : ChainPtr)
  | setfwd (p : ChainPtr)
  | setback (p : ChainPtr)
  | ack
  | stale
  | retry
  deriving DecidableEq, Repr

/-- A message that leaves this module's logic for another unit, module, the host or the management port. -/
inductive Msg where
  /-- a chain message: the line's physical address and its home's node, the sender's incarnation, and the entries or
  homes that send and receive it (R97) -/
  | chain (line home : Nat) (inc : BitVec 8) (src dst : ChainPtr) (m : ChainMsg)
  /-- a chain request for a line that has been forwarded goes on to its new home (R114) -/
  | forward (line node : Nat) (src : ChainPtr) (own : Bool)
  /-- a request that another module forwarded is refused: by the carve-out, or by a sealed page with the bytes that
  an atomic returns (R27, R52) -/
  | nack (line : Nat) (node : Nat) (value : Option LineData)
  /-- to the host: snoops and their answers, read data, completions (R105 to R108) -/
  | bisnpInv (line half : Nat)
  | bisnpData (line half : Nat)
  | rdShared (line half : Nat)
  | rdOwn (line half : Nat)
  | cleanEvict (line half : Nat)
  | dirtyEvict (line half : Nat) (data : BitVec 512)
  | hostData (line half : Nat) (poison : Bool) (data : BitVec 512)
  | hostDone (line half : Nat) (poison : Bool)
  | snoopAnswer (line half : Nat) (data : Option (BitVec 512))
  | bar2Data (off : Nat) (data : BitVec 512)
  | pageRequest (guest : Nat) (va : DWord)
  | interrupt (guest : Nat)
  /-- between modules (R92, R117, R118) -/
  | remoteRequest (node : Nat) (req : Nat)
  | remoteWrite (node line : Nat) (mig : Bool) (mask : BitVec 128) (data : LineData)
  /-- an atomic goes to its home, with the opcode of R333, its operand and its swap value (R90, R92) -/
  | remoteAtomic (node line opcode : Nat) (mig : Bool) (mask : BitVec 128) (data : LineData)
  | remoteAnswer (node line : Nat) (poison : Bool) (data : LineData)
  | report (node by' : Nat)
  | probe (node : Nat)
  | dead (agent inc : Nat)
  | deadAck (agent : Nat)
  | scanDone (agent : Nat)
  | resume (agent : Nat)
  | hostDeath
  | moveLine (node line dst : Nat) (poison : Bool) (data : LineData)
  /-- a request of the host, or one that another module forwarded, goes on to a line's new home (R114) -/
  | forwardHost (node line kind half : Nat) (data : BitVec 512)
  | forwardForeign (node line from' kind : Nat) (mask : BitVec 128) (data : LineData)
  | keyTransfer (launch key : Nat) (ctrs : List (Nat × DWord))
  /-- to the management port -/
  | linkLoss (count : Nat)
  | faultLog (entries : List LogEntry)
  /-- the contexts that the dump reaches -/
  | stateDump (launches : List Nat)
  | measurements (digests : List (BitVec 384))
  | telemetry (hloss : DWord)
  | refusal (what : Nat)
  /-- to the unit that asked for a change of a capability in use (R25) -/
  | busy (cap : Nat)
  /-- to the debugger -/
  | stopped (gid : Nat)
  deriving DecidableEq, Repr

/-- A clause that a port is issuing, with the lanes of its pick (R165). -/
structure Pick where
  core : Nat
  slot : Nat
  port : Nat
  /-- address of the clause header -/
  hdr : DWord
  cls : Nat
  /-- the clause's words, with the loop-stepped fields of this pass in place -/
  words : List Word
  /-- words already issued -/
  pos : Nat
  /-- YIELD of the header, or a `yield` (R184, R423) -/
  yields : Bool
  /-- the lanes of the pick, by group -/
  members : List (Nat × BitVec 64)
  /-- scalar (below 64) and handle (64 and above) registers that this port wrote in this cycle (R192) -/
  wrote : List (Nat × Nat)
  deriving DecidableEq, Repr

/-- The module. -/
structure State where
  /-- the model's own: the order in which the steps of the device's other units and of its surroundings
  come, which the manual leaves open; `none` gives the turn to the issue ports (log 1) -/
  agenda : List (Option Instr)
  /-- the model's own: counts the free values taken (log 16) -/
  fresh : Nat
  /-- CLOCK (R414) -/
  clock : DWord
  /-- memory by physical byte address, in canonical form -/
  mem : List Host.Cell
  home : Home
  dies : List (Nat × Die)
  trusted : Trusted
  xlate : Xlate
  regs : Regs
  cores : List (Nat × Core)
  quads : List (Nat × Quad)
  groups : List Group
  teams : List Team
  /-- the picks that ports hold, in the order in which the ports take their turns -/
  ports : List Pick
  /-- the pick that issues in this step -/
  cur : Option Pick
  reqs : List Req
  nextId : Nat
  seqr : Seqr
  engOps : List EngOp
  tileOps : List TileOp
  hamper : Hamper
  /-- flask table entries, by identifier (R77) -/
  flasks : List (Nat × BitVec 256)
  sched : Sched
  plat : Plat
  errlog : List LogEntry
  outbox : List Msg
  deriving DecidableEq, Repr

/-- A lane that holds nothing, as placement leaves it but for its program counter (R85). -/
def Lane.zero : Lane :=
  { v := Vector.replicate 128 0, p := 0, pc := 0, widx := 0, resume := none, lat := Vector.replicate 4 0, guard := false,
    pass := 0, loop := none, target := none, past := 0, age := 0, skip := false, status := .ready, pend := [],
    acq := [], missed := [] }

/-- A core with nothing in it. -/
def Core.empty : Core :=
  { l1 := [], icache := [], cbuf := [], stash := [], maps := [], tiles := [], outst := [], backs := [], unsent := [],
    itlb := [], dtlb := [] }

/-- A stash line as placement leaves it (R66). -/
def StashLine.zero : StashLine :=
  { state := .unbacked, data := 0, line := 0, coh := 0, remote := false, node := 0, ret := 0 }

/-- A free tile slot (R84). -/
def TileSlot.zero : TileSlot := { state := .free, data := 0, tag := 0, readers := [], writers := [] }

/-- An accumulator tile as placement leaves it: +0 of kind `f32` (R368). -/
def AccTile.zero : AccTile := { isInt := false, elems := [] }

/-- A quad with nothing in it. -/
def Quad.empty : Quad :=
  { acc := [], resv := [], owner := none, ownerQ := [], stream := none, ranges := [], l2tlb := [],
    hrecs := [], off := false }

/-- The registers of a base die at reset (R124). -/
def Die.empty : Die :=
  { counts := [], pqOut := [], migs := [], stileQ := [], stile := none, purgeDL := 0x000003E8#32,
    migCtrl := 0x010003E800000000#64, pqBase := 0, pqHead := 0, pqTail := 0, rqTail := 0, rqHead := 0 }

/-- Queue registers at reset (R43, R426). -/
def Queue.empty : Queue := { base := 0, ctrl := 0, tail := 0, head := 0 }

/-- The carve-out as the firmware placed it, with every table clear (log 3). -/
def Trusted.reset : Trusted :=
  { base := 0x00B000000000, size := 0x001000000000, numBitmaps := 16777216, caps := [], seals := [],
    bitmaps := [], kernels := [], keys := [], saveCtrs := [], savedCtr := [], approved := [], epilogues := [] }

/-- The registers of BAR 0 at reset (R450, R463, R475, R489). -/
def Regs.reset : Regs :=
  { gdtBase := 0, preDL := 0x000007D0000001F4#64, hloss := 0, domNode := 0, domCtrl := 0,
    pwrLimit := 0x0E10#64, stickyQuota := [], schedQuant := [], featNative := 0xFFFFF#256, featMask := [],
    collBase := 0, hbmRetire := 0, qrep := 0 }

/-- The platform at reset (log 15). -/
def Plat.reset : Plat :=
  { linkUp := true, ports := [], flits := [], fused := true, debug := .off,
    power := .active, portNode := [], incs := [], dead := [], declarations := [], held := [], orphans := [], reports := [], nodes := [],
    recovery := false, firmware := 0, pendingImage := false, throttled := false, retired := [],
    spares := [], qstates := [], mirror := [], resets := [] }

/-- The module right after cold reset: nothing is resident, every table is clear, and every register
holds the value that its chapter gives (R43, R64, R77, R124, R147, R426, R439, R450, R463, R475, R489).
The values that the manual does not give are those of logs 1, 2, 3, 14, 15 and 16. -/
def State.reset : State :=
  { agenda := [], fresh := 0, clock := 0, mem := [],
    home := { tags := [], caches := [], poison := [], forwarded := [], refused := [], inbox := [] },
    dies := [], trusted := Trusted.reset, xlate := { walkCaches := [], descs := [], iqs := [], syncs := [] },
    regs := Regs.reset, cores := [], quads := [], groups := [], teams := [], ports := [], cur := none,
    reqs := [], nextId := 0, seqr := { devNext := 0, devOut := [], fabNext := 0, fabOut := [] },
    engOps := [], tileOps := [], hamper := { guest := none, kspaces := [], nextStamp := 0, saved := [], owed := [] },
    flasks := [],
    sched := { sqs := [], launches := [], images := [], nextLaunch := 0, nextImage := 0, nextGid := 0,
               nextSeq := 0, guest := 0, restoreResult := 0, withdrawn := [], handover := false, pending := [], taken := [],
               nextQueue := [], switchTo := none },
    plat := Plat.reset, errlog := [], outbox := [] }

end Sys2Proof.Machine
end

