-- ==== Sys2Proof/Machine/Ops.lean ====
section
/-! DEFINITION. The named operations over memory, registers, lanes, counters and traps that every
meaning is built from. -/

namespace Sys2Proof.Machine

/-! ### Association lists by number -/

/-- The value listed for a key, or the default. -/
def alookup : List (Nat × α) → Nat → α → α
  | [], _, dflt => dflt
  | (k', v) :: l, k, dflt => if k' = k then v else alookup l k dflt

/-- Sets the value of a key, keys in rising order. -/
def aset : List (Nat × α) → Nat → α → List (Nat × α)
  | [], k, v => [(k, v)]
  | (k', v') :: l, k, v =>
    if k' = k then (k, v) :: l else if k < k' then (k, v) :: (k', v') :: l else (k', v') :: aset l k v

/-- Whether a key is listed. -/
def ahas (l : List (Nat × α)) (k : Nat) : Bool := l.any fun e => e.1 == k

/-- Removes a key. -/
def adel (l : List (Nat × α)) (k : Nat) : List (Nat × α) := l.filter fun e => e.1 != k

/-- The lowest number below a bound that a list does not use. -/
def firstFree (used : List Nat) (bound : Nat) : Option Nat :=
  (List.range bound).find? fun n => !used.contains n

/-! ### Memory -/

/-- What an address that is not listed reads as (log 2). -/
def memDefault : Byte := 0

/-- The byte at a physical address. -/
def memGet : List Host.Cell → Nat → Byte
  | [], _ => memDefault
  | (k, b) :: m, a => if k = a then b else if a < k then memDefault else memGet m a

/-- Writes one byte and keeps the canonical form. -/
def memSet : List Host.Cell → Nat → Byte → List Host.Cell
  | [], a, b => if b = memDefault then [] else [(a, b)]
  | (k, c) :: m, a, b =>
    if k = a then (if b = memDefault then m else (k, b) :: m)
    else if a < k then (if b = memDefault then (k, c) :: m else (a, b) :: (k, c) :: m)
    else (k, c) :: memSet m a b

/-- Whether the addresses of a memory are above a bound and strictly rising, with no default byte. -/
def memSorted : Option Nat → List Host.Cell → Bool
  | _, [] => true
  | lo, (k, b) :: m => (match lo with | none => true | some l => decide (l < k)) && b != memDefault &&
      memSorted (some k) m

/-- The canonical form of memory. -/
def Memory.wf (m : List Host.Cell) : Bool := memSorted none m

/-- Reads `n` bytes from an address, the first in the lowest bits (R8). -/
def readLE (m : List Host.Cell) (a : Nat) (w : Nat) : Nat → BitVec w
  | 0 => 0#w
  | n + 1 => (readLE m (a + 1) w n <<< 8) ||| (memGet m a).setWidth w

/-- Writes the low `n` bytes of a word at an address, the lowest first (R8). -/
def writeLE (m : List Host.Cell) (a : Nat) (x : BitVec w) : Nat → List Host.Cell
  | 0 => m
  | n + 1 => writeLE (memSet m a (x.setWidth 8)) (a + 1) (x >>> 8) n

/-- The 128 bytes of a line. -/
def readLine (m : List Host.Cell) (line : Nat) : LineData := readLE m (128 * line) 1024 128

/-- Byte `i` of a line's data. -/
def lineByte (d : BitVec w) (i : Nat) : Byte := d.extractLsb' (8 * i) 8

/-- Replaces byte `i` of a line's data. -/
def setLineByte (d : BitVec w) (i : Nat) (b : Byte) : BitVec w :=
  (d &&& ~~~((255#w) <<< (8 * i))) ||| (b.setWidth w <<< (8 * i))

/-- The masked bytes of `new` over `old`. -/
def mergeBytes (old new : LineData) (mask : BitVec 128) : Nat → LineData
  | 0 => old
  | n + 1 =>
    let r := mergeBytes old new mask n
    if mask.getLsbD n then setLineByte r n (lineByte new n) else r

/-- Writes the masked bytes of a line. -/
def writeMasked (m : List Host.Cell) (line : Nat) (mask : BitVec 128) (d : LineData) : Nat → List Host.Cell
  | 0 => m
  | n + 1 =>
    let m := writeMasked m line mask d n
    if mask.getLsbD n then memSet m (128 * line + n) (lineByte d n) else m

/-- Writes a whole line. -/
def writeLine (m : List Host.Cell) (line : Nat) (d : LineData) : List Host.Cell :=
  writeLE m (128 * line) d 128

/-- The mask of `n` bytes from byte `lo` of a line. -/
def byteMask (lo n : Nat) : BitVec 128 := ((BitVec.ofNat 128 (2 ^ n - 1)) <<< lo)

/-! ### Cores, quads, groups, teams -/

def State.core (s : State) (k : Nat) : Core := alookup s.cores k Core.empty
def State.setCore (s : State) (k : Nat) (c : Core) : State := { s with cores := aset s.cores k c }
def State.updCore (s : State) (k : Nat) (f : Core → Core) : State := s.setCore k (f (s.core k))
def State.quad (s : State) (k : Nat) : Quad := alookup s.quads k Quad.empty
def State.setQuad (s : State) (k : Nat) (q : Quad) : State := { s with quads := aset s.quads k q }
def State.updQuad (s : State) (k : Nat) (f : Quad → Quad) : State := s.setQuad k (f (s.quad k))
def State.die (s : State) (k : Nat) : Die := alookup s.dies k Die.empty
def State.setDie (s : State) (k : Nat) (d : Die) : State := { s with dies := aset s.dies k d }
def State.updDie (s : State) (k : Nat) (f : Die → Die) : State := s.setDie k (f (s.die k))

/-- The group with a number. -/
def State.group? (s : State) (gid : Nat) : Option Group := s.groups.find? fun g => g.gid == gid

/-- Changes the group with a number. -/
def State.updGroup (s : State) (gid : Nat) (f : Group → Group) : State :=
  { s with groups := s.groups.map fun g => if g.gid = gid then f g else g }

/-- The team of a launch with a number. -/
def State.team? (s : State) (launch team : Nat) : Option Team :=
  s.teams.find? fun t => t.launch == launch && t.team == team

def State.updTeam (s : State) (launch team : Nat) (f : Team → Team) : State :=
  { s with teams := s.teams.map fun t => if t.launch = launch ∧ t.team = team then f t else t }

def State.launch? (s : State) (id : Nat) : Option Launch := s.sched.launches.find? fun l => l.id == id

def State.updLaunch (s : State) (id : Nat) (f : Launch → Launch) : State :=
  { s with sched := { s.sched with launches := s.sched.launches.map fun l => if l.id = id then f l else l } }

/-- An entry enters the device error log and the management controller's copy of it (R485). -/
def State.log (s : State) (e : LogEntry) : State :=
  { s with errlog := s.errlog ++ [e], plat := { s.plat with mirror := s.plat.mirror ++ [e] } }
def State.send (s : State) (m : Msg) : State := { s with outbox := s.outbox ++ [m] }

/-- Quad of a core (R160). -/
def quadOf (core : Nat) : Nat := core / 4

/-- First line of a team's stash quota on a core. -/
def Team.stashAt (t : Team) (core : Nat) : Nat := (t.stashBases[core - t.core]?).getD 0

/-- The quad-local cores of a team. -/
def Team.coreOf (t : Team) (index : Nat) : Nat := if t.quadTeam then t.core + index % 4 else t.core

/-- Fields of CTX.ID (R415). -/
def Group.guest (g : Group) : Nat := fldN g.ctxId 52 12
def Group.tenant (g : Group) : Nat := fldN g.ctxId 36 16
def Group.kernel (g : Group) : Nat := fldN g.ctxId 0 24
def Group.priv (g : Group) : Bool := g.ctxId.getLsbD 35
/-- WTRAP of TRAP.MASK (R417). -/
def Group.wtrap (g : Group) : Bool := g.trapMask.getLsbD 1
/-- MASKED of TRAP.MASK (R417). -/
def Group.masked (g : Group) : Bool := g.trapMask.getLsbD 0

/-! ### Registers of a lane -/

/-- A vector register; a number past v127 names no register and reads 0. -/
def Lane.reg (l : Lane) (n : Nat) : Word := if h : n < 128 then l.v[n] else 0

/-- Writes a vector register. A result still on its way to it will be discarded (R182). -/
def Lane.setReg (l : Lane) (n : Nat) (x : Word) : Lane :=
  if h : n < 128 then { l with v := l.v.set n x h, pend := l.pend.filter fun e => e.1 != n } else l

/-- A pair, its low half in the even register (R188). -/
def Lane.pair (l : Lane) (n : Nat) : DWord := l.reg (n + 1) ++ l.reg n

/-- Writes a pair. -/
def Lane.setPair (l : Lane) (n : Nat) (x : DWord) : Lane :=
  (l.setReg n (x.extractLsb' 0 32)).setReg (n + 1) (x.extractLsb' 32 32)

/-- Four registers as 16 bytes. -/
def Lane.quadReg (l : Lane) (n : Nat) : BitVec 128 := l.pair (n + 2) ++ l.pair n

/-- A predicate; p7 is always 1 (R11). -/
def Lane.pred (l : Lane) (n : Nat) : Bool := n == 7 || l.p.getLsbD n

/-- Writes a predicate; a write to p7 is discarded (R195). -/
def Lane.setPred (l : Lane) (n : Nat) (c : Bool) : Lane :=
  if n = 7 then l
  else { l with p := (l.p &&& ~~~(1#8 <<< n)) ||| (if c then 1#8 <<< n else 0#8) }

/-- A 32-bit result enters the latches (R191). -/
def Lane.push32 (l : Lane) (x : Word) : Lane :=
  { l with lat := #v[x, l.lat[0], l.lat[1], l.lat[2]] }

/-- A 64-bit result enters the latches (R191). -/
def Lane.push64 (l : Lane) (x : DWord) : Lane :=
  { l with lat := #v[x.extractLsb' 0 32, x.extractLsb' 32 32, l.lat[0], l.lat[1]] }

/-- A 32-bit vector result: to D unless WS is 1, and into the latches; a lane whose guard is false keeps
D and receives its value, or 0, in the latches (R190, R191). -/
def Lane.result32 (l : Lane) (d : Nat) (w : BitVec 1) (x : Word) : Lane :=
  if l.guard then (if w = 0#1 then l.setReg d x else l).push32 x
  else l.push32 (if w = 0#1 then l.reg d else 0)

/-- A 64-bit vector result (R190, R191). -/
def Lane.result64 (l : Lane) (d : Nat) (w : BitVec 1) (x : DWord) : Lane :=
  if l.guard then (if w = 0#1 then l.setPair d x else l).push64 x
  else l.push64 (if w = 0#1 then l.pair d else 0)

/-- A predicate result (R285). -/
def Lane.resultPred (l : Lane) (p : Nat) (c : Bool) : Lane := if l.guard then l.setPred p c else l

/-- A lane that takes part in its group: neither exited nor parked (R170). -/
def Lane.live (l : Lane) : Bool := l.status != .exited && l.status != .parked

/-- The lane's place in the code. -/
def Lane.place (l : Lane) : Place := { pc := l.pc, widx := l.widx, pass := l.pass, loop := l.loop }

/-- Moves a lane to a place. -/
def Lane.goTo (l : Lane) (p : Place) : Lane :=
  { l with pc := p.pc, widx := p.widx, pass := p.pass, loop := p.loop }

/-! ### Groups -/

/-- The innermost handler frame that a lane runs in (R445, R447). -/
def Group.frameOf (g : Group) (i : Nat) : Option Frame := g.frames.find? fun f => f.sub.lanes.getLsbD i

/-- The scalar registers that a lane reads: the handler bank in a handler (R445). -/
def Group.scalars (g : Group) (i : Nat) : Vector DWord 64 :=
  match g.frameOf i with
  | some f => f.bankS
  | none => g.s

/-- The handle registers that a lane reads. -/
def Group.handles (g : Group) (i : Nat) : Vector (BitVec 16) 32 :=
  match g.frameOf i with
  | some f => f.bankH
  | none => g.h

/-- A scalar register as a lane reads it. -/
def Group.scalar (g : Group) (i : Nat) (n : Nat) : DWord := if h : n < 64 then (g.scalars i)[n] else 0

/-- A handle register as a lane reads it. -/
def Group.handle (g : Group) (i : Nat) (n : Nat) : BitVec 16 := if h : n < 32 then (g.handles i)[n] else 0

/-- Changes the first frame that holds lane `i`. -/
def updFrame (i : Nat) (f : Frame → Frame) : List Frame → List Frame
  | [] => []
  | x :: xs => if x.sub.lanes.getLsbD i then f x :: xs else x :: updFrame i f xs

/-- Writes a scalar register for a lane: of the handler bank in a handler (R445). A result still on its way to
it will be discarded (R182). -/
def Group.setScalar (g : Group) (i : Nat) (n : Nat) (x : DWord) : Group :=
  if h : n < 64 then
    match g.frameOf i with
    | some _ => { g with frames := updFrame i (fun f => { f with bankS := f.bankS.set n x h }) g.frames }
    | none => { g with s := g.s.set n x h, spend := g.spend.filter fun e => e.1 != n }
  else g

/-- Writes a scalar register of the group's own bank. -/
def Group.setOwnScalar (g : Group) (n : Nat) (x : DWord) : Group :=
  if h : n < 64 then { g with s := g.s.set n x h, spend := g.spend.filter fun e => e.1 != n } else g

/-- Writes a handle register for a lane. -/
def Group.setHandle (g : Group) (i : Nat) (n : Nat) (x : BitVec 16) : Group :=
  if h : n < 32 then
    match g.frameOf i with
    | some _ => { g with frames := updFrame i (fun f => { f with bankH := f.bankH.set n x h }) g.frames }
    | none => { g with h := g.h.set n x h }
  else g

/-- Changes the lanes of a mask, each with its number. -/
def Group.mapLanes (g : Group) (m : BitVec 64) (f : Nat → Lane → Lane) : Group :=
  { g with lanes := g.lanes.mapIdx fun i l => if m.getLsbD i then f i l else l }

/-- Changes the lanes of a mask and what the trap frames hold of them, where results of earlier operations still
arrive (R182, R445). -/
def Group.mapHeld (g : Group) (m : BitVec 64) (f : Nat → Lane → Lane) : Group :=
  { g.mapLanes m f with frames := g.frames.map fun x =>
      { x with saved := x.saved.map fun e => if m.getLsbD e.idx then { e with lane := f e.idx e.lane } else e } }

/-- The lanes that satisfy a condition, as a mask. -/
def Group.maskOf (g : Group) (p : Nat → Lane → Bool) : BitVec 64 :=
  (g.lanes.zipIdx).foldl (fun m e => if p e.2 e.1 then m ||| (1#64 <<< e.2) else m) 0#64

/-- The lowest lane of a mask that satisfies a condition. -/
def Group.lowest (g : Group) (m : BitVec 64) (p : Nat → Lane → Bool) : Option (Nat × Lane) :=
  match (g.lanes.zipIdx).find? (fun e => m.getLsbD e.2 && p e.2 e.1) with
  | some e => some (e.2, e.1)
  | none => none

/-- The lowest guard-true lane of a mask (R192, R323). -/
def Group.lead (g : Group) (m : BitVec 64) : Option (Nat × Lane) := g.lowest m fun _ l => l.guard

/-- The counters c0 to c3 (R182). -/
def Group.c0 (g : Group) : Nat := g.q0.length
def Group.c1 (g : Group) : Nat := g.q1.length
def Group.c2 (g : Group) : Nat := g.q2.length
def Group.c3 (g : Group) : Nat := g.q3.length

/-- Takes one back from the event counters that select an event: a clause that waits at issue has not issued (R422). -/
def Group.uncount (g : Group) (ev : Nat) : Group :=
  { g with ctrs := g.ctrs.map fun c => if c.sel.toNat = ev then { c with val := c.val - 1 } else c }

/-- Adds to the event counters that select an event, saturating (R422). -/
def Group.count (g : Group) (ev : Nat) (n : Nat) : Group :=
  { g with ctrs := g.ctrs.map fun c =>
      if c.sel.toNat = ev ∧ ev ≠ 0 then
        { c with val := BitVec.ofNat 48 (min (2 ^ 48 - 1) (c.val.toNat + n)) } else c }

/-- Drops the operations at the head of a queue that have no part left: c0 and c1 count down in issue
order (R182). -/
def popDone : List Counted → List Counted
  | [] => []
  | c :: cs => if c.left = 0 then popDone cs else c :: cs

/-- One part of an operation has completed. -/
def finishPart (op : Nat) (q : List Counted) : List Counted :=
  popDone (q.map fun c => if c.op = op then { c with left := c.left - 1 } else c)

/-- All parts of an operation have completed. -/
def finishOp (op : Nat) (q : List Counted) : List Counted :=
  popDone (q.map fun c => if c.op = op then { c with left := 0 } else c)

/-- Removes one entry with a number: c2 and c3 count down in completion order (R182). -/
def dropOne (op : Nat) (q : List Nat) : List Nat := q.erase op

/-! ### The pick that issues -/

/-- The lanes of a group in a pick. -/
def Pick.mask (p : Pick) (gid : Nat) : BitVec 64 := alookup p.members gid 0#64

/-- Address of the clause after the pick's own (R179). -/
def Pick.nextClause (p : Pick) : DWord := p.hdr + BitVec.ofNat 64 (4 * (1 + p.words.length))

/-- Address of the word at which the pick stands. -/
def Pick.here (p : Pick) : DWord := p.hdr + BitVec.ofNat 64 (4 * (1 + p.pos))

/-- Changes every lane of the issuing pick, given its group and number. -/
def State.mapPick (s : State) (f : Group → Nat → Lane → Lane) : State :=
  match s.cur with
  | none => s
  | some p => { s with groups := s.groups.map fun g => g.mapLanes (p.mask g.gid) (f g) }

/-- Changes every group of the issuing pick, given its lanes in the pick. -/
def State.mapPickGroups (s : State) (f : BitVec 64 → Group → Group) : State :=
  match s.cur with
  | none => s
  | some p => { s with groups := s.groups.map fun g =>
      if (p.mask g.gid) = 0#64 then g else f (p.mask g.gid) g }

/-- Runs a change of the machine once for each group of the issuing pick, in the pick's order. -/
def State.forPick (s : State) (f : State → Nat → BitVec 64 → State) : State :=
  match s.cur with
  | none => s
  | some p => p.members.foldl (fun s e => f s e.1 e.2) s

/-- Takes lanes of a group out of the issuing pick. -/
def Pick.remove (p : Pick) (gid : Nat) (m : BitVec 64) : Pick :=
  { p with members := p.members.map fun e => if e.1 = gid then (e.1, e.2 &&& ~~~m) else e }

def State.leave (s : State) (gid : Nat) (m : BitVec 64) : State :=
  { s with cur := s.cur.map fun p => p.remove gid m }

/-- Whether port 0 of the slot wrote the register in this cycle, so that port 1's write is lost (R192). -/
def State.lostWrite (s : State) (gid n : Nat) : Bool :=
  match s.cur with
  | none => false
  | some p => p.port == 1 && s.ports.any fun q =>
      q.core == p.core && q.slot == p.slot && q.port == 0 && q.wrote.contains (gid, n)

/-- Records a scalar or handle write of this cycle. -/
def State.noteWrite (s : State) (gid n : Nat) : State :=
  { s with cur := s.cur.map fun p => { p with wrote := p.wrote ++ [(gid, n)] } }

/-! ### Where a lane goes when a clause ends -/

/-- The place after a clause and `n` more that a lane passes over, the next of which is at `next`: in its loop, in the next
pass of the loop, or past it (R295, R296). -/
def Lane.goesOn (l : Lane) (n : Nat) (next : DWord) : Place :=
  match l.loop with
  | some lp =>
    if lp.idx + n + 1 < lp.ncl then
      { pc := next, widx := 0, pass := l.pass, loop := some { lp with idx := lp.idx + n + 1 } }
    else if l.pass + 1 < lp.count then
      { pc := lp.start, widx := 0, pass := l.pass + 1, loop := some { lp with idx := 0 } }
    else { pc := next, widx := 0, pass := 0, loop := none }
  | none => { pc := next, widx := 0, pass := 0, loop := none }

/-- The place after the last word of a clause, for a lane: the target of its control transfer, the clause after a stream's
body, the next pass of its loop, or the next clause (R179, R295, R296, R375). -/
def Lane.clauseEnd (l : Lane) (next : DWord) : Place :=
  match l.target with
  | some t => if l.past = 0 then { pc := t, widx := 0, pass := l.pass, loop := l.loop } else l.goesOn l.past t
  | none => l.goesOn 0 next

/-- The place after `n` more words of the pick's clause. -/
def Pick.placeAfter (p : Pick) (n : Nat) (l : Lane) : Place :=
  if p.pos + n < p.words.length then
    { pc := p.hdr, widx := p.pos + n + 1, pass := l.pass, loop := l.loop }
  else l.clauseEnd p.nextClause

/-- The place of the instruction that issues. -/
def Pick.placeHere (p : Pick) (l : Lane) : Place :=
  { pc := p.hdr, widx := p.pos + 1, pass := l.pass, loop := l.loop }

/-- Clears the latches of a lane that leaves its clause (R191). -/
def Lane.settleLatches (l : Lane) : Lane := if l.widx = 0 then { l with lat := Vector.replicate 4 0 } else l

/-- A lane arrives at a place and is ready there; inside its clause it keeps where the clause sends it. -/
def Lane.arrive (l : Lane) (p : Place) : Lane :=
  let l := if p.widx = 0 then { l with target := none, past := 0 } else l
  ({ (l.goTo p) with status := .ready, resume := none }).settleLatches

/-- A lane leaves the pick to wait: it stands at the instruction and goes on after it (n words). -/
def Pick.wait (p : Pick) (n : Nat) (w : Wait) (l : Lane) : Lane :=
  { (l.goTo (p.placeHere l)) with status := .waiting w, resume := some (p.placeAfter n l), age := 0 }

/-- A waiting lane goes on after its instruction. -/
def Lane.goOn (l : Lane) : Lane :=
  match l.resume with
  | some p => l.arrive p
  | none => { l with status := .ready }

/-- Where a lane stands that must wait at issue: at the instruction, or before the clause while the clause has issued
none (R165, R182). -/
def Pick.heldPlace (p : Pick) (l : Lane) : Place :=
  if p.pos = 0 then { p.placeHere l with widx := 0 } else p.placeHere l

/-- A lane leaves the pick and will execute the instruction again when resources have changed. -/
def Pick.hold (p : Pick) (l : Lane) : Lane :=
  { (l.goTo (p.heldPlace l)) with status := .waiting .resource, resume := some (p.heldPlace l) }

/-- Lanes of a group will execute the issuing instruction again when resources have changed (R60, R86, R148, R182). -/
def State.holdLanes (s : State) (gid : Nat) (m : BitVec 64) : State :=
  match s.cur with
  | none => s
  | some p =>
    (s.updGroup gid fun g =>
      let g := if p.pos = 0 ∧ p.mask gid &&& ~~~m = 0#64 then g.uncount 0x01 else g
      g.mapLanes m fun _ l => p.hold l).leave gid m

/-- Lanes that waited for a resource try again. -/
def Lane.retry (l : Lane) : Lane :=
  if l.status = .waiting .resource then l.goOn else l

def State.retryHeld (s : State) : State :=
  { s with groups := s.groups.map fun g => { g with lanes := g.lanes.map Lane.retry } }

/-! ### Operations whose answers may trap (R193, log 27) -/

def ReqKind.mayTrap : ReqKind → Bool
  | .load => true
  | .touch _ => true
  | .atom _ => true
  | .hamper _ => true
  | .store => false
  | .flask _ => false
  | .fence => false
  | .lockAcq => false
  | .lockRel => false
  | .hint => false
  | .stash _ => false

/-- An operation of a lane is out whose answer brings a value, or may trap. No later store of the lane becomes visible
before (R141), and none of its later instructions acts on anything but the lane itself (R193). -/
def State.awaits (s : State) (gid lane : Nat) : Bool :=
  s.reqs.any fun r => r.gid == gid && r.kind.mayTrap && r.held.any fun e => e.1 == lane

/-- A result reaches lanes of a group: as they are, as the trap frames hold them, and as later operations hold them in
case they trap (R182, R193, R445). -/
def State.giveLanes (s : State) (gid : Nat) (m : BitVec 64) (f : Nat → Lane → Lane) : State :=
  let give := fun (e : Nat × Lane) => if m.getLsbD e.1 then (e.1, f e.1 e.2) else e
  let s := s.updGroup gid fun g => g.mapHeld m f
  { s with reqs := s.reqs.map fun r => if r.gid = gid then { r with held := r.held.map give } else r }

/-- Lanes of the pick with such an operation out wait at issue. -/
def State.holdAwaiting (s : State) : State :=
  s.forPick fun s gid m =>
    match s.group? gid with
    | none => s
    | some g =>
      let w := g.maskOf fun i _ => m.getLsbD i && s.awaits gid i
      if w = 0#64 then s else s.holdLanes gid w

/-- The lanes of a pick wait at an instruction that performs once for them, when such an operation of the performing lane
is out. -/
def State.holdLead (s : State) : State :=
  s.forPick fun s gid m =>
    match s.group? gid with
    | none => s
    | some g =>
      match g.lead m with
      | none => s
      | some (i, _) => if s.awaits gid i then s.holdLanes gid m else s

/-- Writes a scalar register for each group of the pick, with the value that its lowest guard-true lane
computes; a group without such a lane writes nothing (R192, log 5). -/
def State.writeScalar (s : State) (sd : Nat) (f : Group → Nat → Lane → DWord) : State :=
  s.holdLead.forPick fun s gid m =>
    match s.group? gid with
    | none => s
    | some g =>
      match g.lead m with
      | none => s
      | some (i, l) =>
        if s.lostWrite gid sd then s
        else (s.updGroup gid fun g => g.setScalar i sd (f g i l)).noteWrite gid sd

/-- Writes a handle register for lane `i` of a group (R192, R356). -/
def State.writeHandle (s : State) (gid i hd : Nat) (x : BitVec 16) : State :=
  if s.lostWrite gid (64 + hd) then s
  else (s.updGroup gid fun g => g.setHandle i hd x).noteWrite gid (64 + hd)

/-! ### Traps (R416, R443) -/

/-- A cause code with its detail (R416). -/
def causeOf (code detail : Nat) : DWord := BitVec.ofNat 16 detail ++ 0#40 ++ BitVec.ofNat 8 code

def cXlateMiss : Nat := 0x01
def cXlatePerm : Nat := 0x02
def cXlateFormat : Nat := 0x03
def cFetchFault : Nat := 0x04
def cSealWrite : Nat := 0x05
def cDataPoison : Nat := 0x06
def cRangeBusy : Nat := 0x07
def cNodeDead : Nat := 0x08
def cStash : Nat := 0x09
def cFlaskArg : Nat := 0x0A
def cBarMode : Nat := 0x0B
def cLockState : Nat := 0x0C
def cScopeFallback : Nat := 0x0D
def cConvMismatch : Nat := 0x0E
def cBoundsCheck : Nat := 0x0F
def cAlignCheck : Nat := 0x10
def cBadLanding : Nat := 0x11
def cTileStale : Nat := 0x12
def cTileFull : Nat := 0x13
def cTileFmt : Nat := 0x14
def cTileRing : Nat := 0x15
def cTileArg : Nat := 0x17
def cAccRange : Nat := 0x18
def cAccKind : Nat := 0x19
def cMxState : Nat := 0x1A
def cHmKspace : Nat := 0x1B
def cHmSpillFault : Nat := 0x1C
def cHmState : Nat := 0x1D
def cUserTrap : Nat := 0x1E
def cBreakpoint : Nat := 0x1F
def cTrapState : Nat := 0x20

/-- What TRAP.VA holds for a cause that has no address and no operand: a free value (R414, log 31). -/
def noVA (code : Nat) : DWord := Config.trapVA code

/-- The cause code of a TRAP.CAUSE value. -/
def codeOf (c : DWord) : Nat := fldN c 0 8

/-- A lane that traps: its cause and the address or operand that TRAP.VA would name. -/
structure LaneTrap where
  lane : Nat
  cause : DWord
  va : DWord
  deriving DecidableEq, Repr

/-- Inserts a cause into a rising list without repeats. -/
def insertCause (c : DWord) : List DWord → List DWord
  | [] => [c]
  | x :: xs => if x = c then x :: xs else if c.toNat < x.toNat then c :: x :: xs else x :: insertCause c xs

/-- The distinct causes of a list of traps, ascending (R443). -/
def causesOf (ts : List LaneTrap) : List DWord := ts.foldl (fun acc t => insertCause t.cause acc) []

/-- The lanes of a list of traps, as a mask. -/
def lanesOf (ts : List LaneTrap) : BitVec 64 := ts.foldl (fun m t => m ||| (1#64 <<< t.lane)) 0#64

/-- The lane of a list with the lowest number. -/
def lowestTrap : List LaneTrap → Option LaneTrap
  | [] => none
  | t :: ts =>
    match lowestTrap ts with
    | none => some t
    | some u => if u.lane < t.lane then some u else some t

/-- The address of a place: the header, or the word. -/
def Place.address (p : Place) : DWord := p.pc + BitVec.ofNat 64 (4 * p.widx)

/-- TAKING A TRAP (R443, R444, R193): the trapping lanes leave the live lanes of their group and form one
parked sub-group for each distinct cause, in ascending order of the cause; each sub-group takes TRAP.VA
from its lowest lane and continues at the place `at'` gives for its lanes. Delivery is a step of its own
(TRAP_DELIVERY). -/
def Group.park (g : Group) (at' : Lane → Place) (fetch : Option PageReq) (keep : List Nat) (ts : List LaneTrap) :
    Group :=
  (causesOf ts).foldl (fun g c =>
    let mine := ts.filter fun t => t.cause == c
    let m := lanesOf mine
    match lowestTrap mine with
    | none => g
    | some low =>
      let pc := match g.lanes[low.lane]? with
        | some l => (at' l).address
        | none => 0
      let g := g.mapLanes m fun _ l =>
        { (l.goTo (at' l)) with status := .parked, resume := none, age := 0 }
      let g := g.count 0x05 1
      { g with parkedSubs := g.parkedSubs ++ [{ lanes := m, cause := c, pc := pc, va := low.va,
                                                      keep := keep, fetch := fetch }] })
    g

/-- Lanes of one group trap at the issuing instruction and leave the pick; `after` gives the words of the
instruction when its resume point is the one after it (R416). -/
def State.trapLanes (s : State) (gid : Nat) (after : Option Nat) (ts : List LaneTrap) (keep : List Nat := []) :
    State :=
  match s.cur with
  | none => s
  | some p =>
    let place := fun l => match after with
      | some n => p.placeAfter n l
      | none => p.placeHere l
    let s := s.updGroup gid fun g => g.park place none keep ts
    s.leave gid (lanesOf ts)

/-- Every lane of a mask with one cause and one address. -/
def trapsOf (m : BitVec 64) (n : Nat) (cause va : DWord) : List LaneTrap :=
  (List.range n).filterMap fun i => if m.getLsbD i then some { lane := i, cause := cause, va := va } else none

/-- The traps that the guard-true lanes of a pick's group raise. -/
def Group.traps (g : Group) (m : BitVec 64) (f : Nat → Lane → Option (DWord × DWord)) : List LaneTrap :=
  (g.lanes.zipIdx).filterMap fun e =>
    if m.getLsbD e.2 && e.1.guard then
      match f e.2 e.1 with
      | some (c, va) => some { lane := e.2, cause := c, va := va }
      | none => none
    else none

/-- Traps raised lane by lane in every group of the pick. -/
def State.trapPick (s : State) (after : Option Nat) (f : Group → Nat → Lane → Option (DWord × DWord))
    (keep : List Nat := []) : State :=
  s.forPick fun s gid m =>
    match s.group? gid with
    | none => s
    | some g =>
      let ts := g.traps m (f g)
      if ts = [] then s else s.trapLanes gid after ts keep

/-- Sets WARN bits of a group (R202, R203). -/
def State.warn (s : State) (gid : Nat) (w : BitVec 4) : State :=
  s.updGroup gid fun g => { g with warn := g.warn ||| w }

/-- WARN bits (R203). -/
def wOrder : BitVec 4 := 1#4
def wScope : BitVec 4 := 2#4
def wClass : BitVec 4 := 4#4
def wRet : BitVec 4 := 8#4

/-- A fresh identifier for a request or operation. -/
def State.newId (s : State) : State × Nat := ({ s with nextId := s.nextId + 1 }, s.nextId)

end Sys2Proof.Machine
end

