-- ==== Sys2Proof/Machine/Operands.lean ====
section
/-! DEFINITION. The operand forms of R188 and R189, the effective address of R322, and the lane-wise
shapes in which vector, predicate and scalar results are written. -/

namespace Sys2Proof.Machine

/-- The outcome of a meaning. -/
abbrev Out := Host.Outcome State Fault Refusal

/-- Constant selectors as 32-bit values (R189). -/
def const32 (g : Group) (i : Nat) (a : Nat) : Word :=
  if a = 0x84 then 0x00000000#32
  else if a = 0x85 then BitVec.ofNat 32 i
  else if a = 0x86 then BitVec.ofNat 32 g.width
  else if a = 0x87 then 0xFFFFFFFF#32
  else if a = 0x88 then 0x3F800000#32
  else if a = 0x89 then 0x3F000000#32
  else if a = 0x8A then 0x40000000#32
  else if a = 0x8B then 0x7F800000#32
  else if a = 0x8C then 0xFF800000#32
  else if a = 0x8D then 0x7FC00000#32
  else if a = 0x8E then 0x7F7FFFFF#32
  else if a = 0x8F then 0x00800000#32
  else if a < 0xB0 then BitVec.ofNat 32 (a - 0x90)
  else BitVec.ofInt 32 (Int.ofNat a - 0xC0)

/-- A source as a 32-bit operand (R188). -/
def src32 (g : Group) (i : Nat) (l : Lane) (a : BitVec 8) : Word :=
  if a.toNat < 0x80 then l.reg a.toNat
  else if a.toNat < 0x84 then l.lat[a.toNat - 0x80]?.getD 0
  else if a.toNat < 0xC0 then const32 g i a.toNat
  else (g.scalar i (a.toNat - 0xC0)).extractLsb' 0 32

/-- A source as a 64-bit operand (R188, R189). -/
def src64 (g : Group) (i : Nat) (l : Lane) (a : BitVec 8) : DWord :=
  if a.toNat < 0x80 then l.pair a.toNat
  else if a.toNat < 0x84 then
    (l.lat[a.toNat - 0x80 + 1]?.getD 0 : Word) ++ (l.lat[a.toNat - 0x80]?.getD 0 : Word)
  else if a = 0x85#8 ∨ a = 0x86#8 then (const32 g i a.toNat).setWidth 64
  else if a.toNat < 0xC0 then (const32 g i a.toNat).signExtend 64
  else g.scalar i (a.toNat - 0xC0)

/-- A source of a check: 64 bits for scalars, constants and, when W is 1, pairs; otherwise the 32-bit
register sign-extended (R298). -/
def srcCheck64 (g : Group) (i : Nat) (l : Lane) (x : BitVec 1) (a : BitVec 8) : DWord :=
  if x = 1#1 ∨ 0x84 ≤ a.toNat then src64 g i l a else (src32 g i l a).signExtend 64

/-- The source of an alignment check: 64 bits of a scalar or constant, or a register zero-extended (R301). -/
def srcAlign64 (g : Group) (i : Nat) (l : Lane) (a : BitVec 8) : DWord :=
  if 0x84 ≤ a.toNat then src64 g i l a else (src32 g i l a).setWidth 64

/-- The index of a memory access: a scalar, or 32 bits extended as `.sx` says (R322). -/
def srcIndex (g : Group) (i : Nat) (l : Lane) (sx : Bool) (b : BitVec 8) : DWord :=
  if 0xC0 ≤ b.toNat then g.scalar i (b.toNat - 0xC0)
  else if sx then (src32 g i l b).signExtend 64
  else (src32 g i l b).setWidth 64

/-- The effective address of a global access (R322). -/
def effAddr (g : Group) (i : Nat) (l : Lane) (a b : BitVec 8) (x : XM) : DWord :=
  src64 g i l a + srcIndex g i l (x.mode.getLsbD 0) b + x.off.signExtend 64

/-- A uniform 64-bit source of an operation that performs once for the pick (R323): a scalar or constant. -/
def srcUniform (g : Group) (i : Nat) (l : Lane) (a : BitVec 8) : DWord := src64 g i l a

/-- A 32-bit vector result in every lane of the pick. -/
def State.vec32 (s : State) (d : Nat) (w : BitVec 1) (f : Group → Nat → Lane → Word) : State :=
  s.mapPick fun g i l => l.result32 d w (f g i l)

/-- A 64-bit vector result in every lane of the pick. -/
def State.vec64 (s : State) (d : Nat) (w : BitVec 1) (f : Group → Nat → Lane → DWord) : State :=
  s.mapPick fun g i l => l.result64 d w (f g i l)

/-- A predicate result in every lane of the pick. -/
def State.vecPred (s : State) (p : Nat) (f : Group → Nat → Lane → Bool) : State :=
  s.mapPick fun g i l => l.resultPred p (f g i l)

/-- A 32-bit result of one 32-bit source. -/
def State.un32 (s : State) (d : BitVec 7) (w : BitVec 1) (a : BitVec 8) (f : Word → Word) : State :=
  s.vec32 d.toNat w fun g i l => f (src32 g i l a)

/-- A 32-bit result of two 32-bit sources. -/
def State.bin32 (s : State) (d : BitVec 7) (w : BitVec 1) (a b : BitVec 8) (f : Word → Word → Word) : State :=
  s.vec32 d.toNat w fun g i l => f (src32 g i l a) (src32 g i l b)

/-- A 32-bit result of two 32-bit sources and the destination's own value (R190). -/
def State.tri32 (s : State) (d : BitVec 7) (w : BitVec 1) (a b : BitVec 8) (f : Word → Word → Word → Word) :
    State :=
  s.vec32 d.toNat w fun g i l => f (src32 g i l a) (src32 g i l b) (l.reg d.toNat)

/-- A 64-bit result, to the pair whose number the field holds, of two 64-bit sources. -/
def State.bin64 (s : State) (d : BitVec 6) (w : BitVec 1) (a b : BitVec 8) (f : DWord → DWord → DWord) :
    State :=
  s.vec64 (2 * d.toNat) w fun g i l => f (src64 g i l a) (src64 g i l b)

/-- A 64-bit result of a 64-bit source and a 32-bit count. -/
def State.shift64 (s : State) (d : BitVec 6) (w : BitVec 1) (a b : BitVec 8) (f : DWord → Nat → DWord) :
    State :=
  s.vec64 (2 * d.toNat) w fun g i l => f (src64 g i l a) (src32 g i l b).toNat

/-- A 64-bit result of two 32-bit sources. -/
def State.wide32 (s : State) (d : BitVec 6) (w : BitVec 1) (a b : BitVec 8) (f : Word → Word → DWord) :
    State :=
  s.vec64 (2 * d.toNat) w fun g i l => f (src32 g i l a) (src32 g i l b)

/-- A predicate from two 32-bit sources. -/
def State.cmp32 (s : State) (p : BitVec 3) (a b : BitVec 8) (f : Word → Word → Bool) : State :=
  s.vecPred p.toNat fun g i l => f (src32 g i l a) (src32 g i l b)

/-- A predicate from a 32-bit source and a sign-extended literal (R285). -/
def State.cmpImm (s : State) (p : BitVec 3) (a i8 : BitVec 8) (f : Word → Word → Bool) : State :=
  s.vecPred p.toNat fun g i l => f (src32 g i l a) (i8.signExtend 32)

/-- A predicate from two 64-bit sources. -/
def State.cmp64 (s : State) (p : BitVec 3) (a b : BitVec 8) (f : DWord → DWord → Bool) : State :=
  s.vecPred p.toNat fun g i l => f (src64 g i l a) (src64 g i l b)

end Sys2Proof.Machine
end

