-- ==== Sys2Proof/Machine/Flags.lean ====
section
/-! DEFINITION. The conditions that set predicates, the saturations of integers, and the fallbacks of
illegal modifier combinations with the WARN bits they set. -/

namespace Sys2Proof.Machine

/-- Signed and unsigned order of two patterns (R269, R285). -/
def ltS (a b : BitVec n) : Bool := decide (a.toInt < b.toInt)
def leS (a b : BitVec n) : Bool := decide (a.toInt ≤ b.toInt)
def ltU (a b : BitVec n) : Bool := decide (a.toNat < b.toNat)
def leU (a b : BitVec n) : Bool := decide (a.toNat ≤ b.toNat)

/-- The lesser and greater under each reading (R276). -/
def minS (a b : BitVec n) : BitVec n := if a.toInt ≤ b.toInt then a else b
def maxS (a b : BitVec n) : BitVec n := if a.toInt ≤ b.toInt then b else a
def minU (a b : BitVec n) : BitVec n := if a.toNat ≤ b.toNat then a else b
def maxU (a b : BitVec n) : BitVec n := if a.toNat ≤ b.toNat then b else a

/-- `SatTo` of an exact integer to `w` bits, two's complement (R265). -/
def satS (w : Nat) (x : Int) : BitVec w :=
  if x < -(2 : Int) ^ (w - 1) then BitVec.ofInt w (-(2 : Int) ^ (w - 1))
  else if (2 : Int) ^ (w - 1) - 1 < x then BitVec.ofInt w ((2 : Int) ^ (w - 1) - 1)
  else BitVec.ofInt w x

/-- `SatTo` of an exact integer to `w` bits, unsigned (R265). -/
def satU (w : Nat) (x : Int) : BitVec w :=
  if x < 0 then 0 else if (2 : Int) ^ w - 1 < x then BitVec.allOnes w else BitVec.ofInt w x

/-! ### Scopes, orders and fallbacks (R91, R129 to R133, R202) -/

/-- The widest scope that a coherence class honours: device for `nc`, system otherwise (R90). -/
def widest (coh : BitVec 2) : BitVec 3 := if coh = 0#2 then 4#3 else 6#3

/-- A scope and order after the fallbacks of R202, with the WARN bits of the rows that matched. -/
structure Modifiers where
  scope : BitVec 3
  order : BitVec 3
  warn : BitVec 4
  deriving DecidableEq, Repr

def Modifiers.note (m : Modifiers) (c : Bool) (w : BitVec 4) (f : Modifiers → Modifiers) : Modifiers :=
  if c then f { m with warn := m.warn ||| w } else m

/-- Orders (R132). -/
def oRelaxed : BitVec 3 := 0
def oAcquire : BitVec 3 := 1
def oRelease : BitVec 3 := 2
def oAcqRel : BitVec 3 := 3
def oSeqCst : BitVec 3 := 4

/-- The kinds of access that R202 tells apart. -/
inductive AccessKind where
  | load (wide : Bool)
  | store (wide : Bool)
  | atomic
  | fence
  deriving DecidableEq, Repr

/-- The fallbacks of R202 for an access, in the order of its table; `coh` is the class of the page, or
none where no class narrows the scope. A relaxed load or store keeps its scope: R91 narrows fences and
atomics. -/
def fallbacks (k : AccessKind) (coh : Option (BitVec 2)) (scope order : BitVec 3) : Modifiers :=
  let m : Modifiers := { scope := scope, order := order, warn := 0 }
  let isLoad := match k with | .load _ => true | _ => false
  let isStore := match k with | .store _ => true | _ => false
  let isWide := match k with | .load w => w | .store w => w | _ => false
  let m := m.note (isLoad && (m.order == oRelease || m.order == oAcqRel)) wOrder
    fun m => { m with order := oAcquire }
  let m := m.note (isStore && (m.order == oAcquire || m.order == oAcqRel)) wOrder
    fun m => { m with order := oRelease }
  let m := m.note (k == AccessKind.fence && m.order == oRelaxed) wOrder fun m => { m with order := oAcqRel }
  let m := m.note (m.order == oSeqCst && m.scope == 6#3) wScope
    fun m => { m with order := if isLoad then oAcquire else if isStore then oRelease else oAcqRel }
  let m := match coh with
    | some c => m.note ((k == AccessKind.atomic || k == AccessKind.fence) && decide ((widest c).toNat < m.scope.toNat)) wClass
        fun m => { m with scope := widest c }
    | none => m
  m.note (isWide && m.order == oSeqCst) wOrder
    fun m => { m with order := if isLoad then oAcquire else oRelease }

/-- The order acts as an acquire, or as a release (R135). -/
def isAcquire (o : BitVec 3) : Bool := o == oAcquire || o == oAcqRel || o == oSeqCst
def isRelease (o : BitVec 3) : Bool := o == oRelease || o == oAcqRel || o == oSeqCst

/-- Quad scope or wider (R58, R60, R61). -/
def beyondCore (scope : BitVec 3) : Bool := decide (3 ≤ scope.toNat)

/-- WARN bits of an instruction that is performed as `relaxed` whatever its order: `seqcst` at system scope has set
W_SCOPE before (R202). -/
def relaxedWarn (scope order : BitVec 3) : BitVec 4 :=
  (if order = oSeqCst ∧ scope = 6#3 then wScope else 0#4) ||| (if order = oRelaxed then 0#4 else wOrder)

/-- Fallbacks of an engine operation: quad scope at least, and relaxed order (R202). -/
def engineFallbacks (scope order : BitVec 3) : BitVec 3 × BitVec 4 :=
  (if scope.toNat < 3 then 3#3 else scope, relaxedWarn scope order ||| (if scope.toNat < 3 then wOrder else 0#4))

end Sys2Proof.Machine
end

