-- ==== Sys2Proof/Machine/Float.lean ====
section
/-! DEFINITION. Number formats and rounding: exact values, and the helpers of R264 to R266 through which
every floating-point meaning rounds. -/

namespace Sys2Proof.Machine

/-- An exact value: NaN, an infinity, or (−1)^neg × m × 2^e; a zero keeps its sign (R262). -/
inductive Exact where
  | nan
  | inf (neg : Bool)
  | fin (neg : Bool) (m : Nat) (e : Int)
  deriving DecidableEq, Repr

/-- A floating-point format (R256). -/
structure Fmt where
  ebits : Nat
  mbits : Nat
  bias : Nat
  /-- the top exponent encodes infinities and NaNs -/
  ieee : Bool
  /-- a zero result keeps its sign -/
  negZero : Bool
  /-- canonical NaN code -/
  nan : Nat
  deriving DecidableEq, Repr

def f32 : Fmt := ⟨8, 23, 127, true, true, 0x7FC00000⟩
def f16 : Fmt := ⟨5, 10, 15, true, true, 0x7E00⟩
def bf16 : Fmt := ⟨8, 7, 127, true, true, 0x7FC0⟩
def f8a : Fmt := ⟨4, 3, 8, false, false, 0x80⟩
def f8b : Fmt := ⟨5, 2, 16, false, false, 0x80⟩
def f4 : Fmt := ⟨2, 1, 1, false, false, 0⟩

/-- Width of a code. -/
def Fmt.width (F : Fmt) : Nat := 1 + F.ebits + F.mbits
/-- Exponent of the quantum of the subnormals. -/
def Fmt.minExp (F : Fmt) : Int := 1 - F.bias - F.mbits
/-- Largest exponent field of a finite value. -/
def Fmt.maxField (F : Fmt) : Nat := if F.ieee then 2 ^ F.ebits - 2 else 2 ^ F.ebits - 1

/-- The exact value that a code encodes (R256, R257); `f4` codes are read with `decodeF4`. -/
def Fmt.decode (F : Fmt) (x : Nat) : Exact :=
  let x := x % 2 ^ F.width
  let neg := decide (2 ^ (F.width - 1) ≤ x)
  let e := x / 2 ^ F.mbits % 2 ^ F.ebits
  let m := x % 2 ^ F.mbits
  if F.ieee ∧ e = 2 ^ F.ebits - 1 then (if m = 0 then .inf neg else .nan)
  else if ¬ F.ieee ∧ x = 2 ^ (F.width - 1) then .nan
  else if e = 0 then .fin neg m F.minExp
  else .fin neg (m + 2 ^ F.mbits) (F.minExp + (e - 1))

/-- Rounding directions (R264). -/
inductive Rnd where
  | ne
  | z
  | down
  | up
  deriving DecidableEq, Repr

/-- The rounding that a two-bit field names (R305). -/
def rndOf (r : BitVec 2) : Rnd :=
  if r = 0#2 then .ne else if r = 1#2 then .z else if r = 2#2 then .down else .up

/-- `.rn` or `.rz` (R306). -/
def rnd1 (r : BitVec 1) : Rnd := if r = 0#1 then .ne else .z

/-- Rounds m × 2^(−sh) to an integer. -/
def roundShift (rnd : Rnd) (neg : Bool) (m sh : Nat) : Nat :=
  let q := m / 2 ^ sh
  let r := m % 2 ^ sh
  match rnd with
  | .ne => if 2 * r < 2 ^ sh then q else if 2 ^ sh < 2 * r then q + 1 else q + q % 2
  | .z => q
  | .down => if neg ∧ r ≠ 0 then q + 1 else q
  | .up => if ¬ neg ∧ r ≠ 0 then q + 1 else q

/-- A finite non-zero magnitude rounded to significand width `mb` and smallest exponent `minE`, with no
largest exponent: the significand and its exponent (R264, step 2). -/
def roundMag (rnd : Rnd) (neg : Bool) (mb : Nat) (minE : Int) (m : Nat) (e : Int) : Nat × Int :=
  let top := (m.log2 : Int) + e
  let q := max (top - mb) minE
  if q ≤ e then (m * 2 ^ (e - q).toNat, q) else (roundShift rnd neg m (q - e).toNat, q)

/-- Code of ±largest finite. -/
def Fmt.maxCode (F : Fmt) (neg : Bool) : Nat :=
  (if neg then 2 ^ (F.width - 1) else 0) + F.maxField * 2 ^ F.mbits + (2 ^ F.mbits - 1)

/-- Code of an infinity. -/
def Fmt.infCode (F : Fmt) (neg : Bool) : Nat :=
  (if neg then 2 ^ (F.width - 1) else 0) + (2 ^ F.ebits - 1) * 2 ^ F.mbits

/-- The helpers `RoundNE`, `RoundZ`, `RoundDown` and `RoundUp` (R263, R264): the code in the format. -/
def Fmt.round (F : Fmt) (rnd : Rnd) (x : Exact) : Nat :=
  match x with
  | .nan => F.nan
  | .inf neg => if F.ieee then F.infCode neg else F.nan
  | .fin neg m e =>
    let sign := if neg then 2 ^ (F.width - 1) else 0
    if m = 0 then (if F.negZero then sign else 0)
    else
      let (r, q) := roundMag rnd neg F.mbits F.minExp m e
      let (r, q) := if 2 ^ (F.mbits + 1) ≤ r then (r / 2, q + 1) else (r, q)
      if r = 0 then (if F.negZero then sign else 0)
      else if r < 2 ^ F.mbits then sign + r
      else
        let field := (q - F.minExp + 1).toNat
        if F.maxField < field then
          if F.ieee then
            match rnd with
            | .ne => F.infCode neg
            | .z => F.maxCode neg
            | .down => if neg then F.infCode true else F.maxCode false
            | .up => if neg then F.maxCode true else F.infCode false
          else F.nan
        else sign + field * 2 ^ F.mbits + (r - 2 ^ F.mbits)

/-- Sum of two finite values with exponents, as a signed integer over the lesser exponent. -/
def alignAdd (an : Bool) (am : Nat) (ae : Int) (bn : Bool) (bm : Nat) (be : Int) : Int × Int :=
  let e := min ae be
  let x : Int := (am * 2 ^ (ae - e).toNat : Nat)
  let y : Int := (bm * 2 ^ (be - e).toNat : Nat)
  ((if an then -x else x) + (if bn then -y else y), e)

/-- The exact sum; an exactly zero sum of operands of opposite sign is +0, or −0 when `down` (R262). -/
def Exact.add (down : Bool) (a b : Exact) : Exact :=
  match a, b with
  | .nan, _ => .nan
  | _, .nan => .nan
  | .inf s, .inf t => if s = t then .inf s else .nan
  | .inf s, .fin _ _ _ => .inf s
  | .fin _ _ _, .inf t => .inf t
  | .fin an am ae, .fin bn bm be =>
    let (v, e) := alignAdd an am ae bn bm be
    if v = 0 then .fin (if an = bn then an else down) 0 0
    else .fin (decide (v < 0)) v.natAbs e

/-- The exact product (R262). -/
def Exact.mul (a b : Exact) : Exact :=
  match a, b with
  | .nan, _ => .nan
  | _, .nan => .nan
  | .inf s, .inf t => .inf (s != t)
  | .inf s, .fin t m _ => if m = 0 then .nan else .inf (s != t)
  | .fin s m _, .inf t => if m = 0 then .nan else .inf (s != t)
  | .fin s am ae, .fin t bm be => .fin (s != t) (am * bm) (ae + be)

/-- The negated value. -/
def Exact.neg (a : Exact) : Exact :=
  match a with
  | .nan => .nan
  | .inf s => .inf (!s)
  | .fin s m e => .fin (!s) m e

/-- The value of an integer. -/
def Exact.ofInt (x : Int) : Exact := .fin (decide (x < 0)) x.natAbs 0

/-- Comparison of two values that are not NaN, with −0 equal to +0: negative, zero or positive. -/
def Exact.cmp (a b : Exact) : Int :=
  match a, b with
  | .nan, _ => 0
  | _, .nan => 0
  | .inf s, .inf t => if s = t then 0 else if s then -1 else 1
  | .inf s, .fin _ _ _ => if s then -1 else 1
  | .fin _ _ _, .inf t => if t then 1 else -1
  | .fin an am ae, .fin bn bm be => (alignAdd an am ae (!bn) bm be).1

def Exact.isNaN (a : Exact) : Bool := a == .nan
/-- Sign of a value that is not NaN. -/
def Exact.sign (a : Exact) : Bool :=
  match a with
  | .nan => false
  | .inf s => s
  | .fin s _ _ => s
def Exact.isZero (a : Exact) : Bool :=
  match a with
  | .fin _ m _ => m == 0
  | _ => false

/-- An exact value rounded to an integer of unbounded range (R264), for a finite value. -/
def roundInt (rnd : Rnd) (neg : Bool) (m : Nat) (e : Int) : Int :=
  let r := if 0 ≤ e then m * 2 ^ e.toNat else roundShift rnd neg m (-e).toNat
  if neg then -(r : Int) else r

/-- `SatTo(Round(x, F), F)` for an integer format with bounds: NaN gives 0, and values outside the range
the nearer bound (R265). -/
def roundSat (rnd : Rnd) (lo hi : Int) (x : Exact) : Int :=
  match x with
  | .nan => 0
  | .inf neg => if neg then lo else hi
  | .fin neg m e => max lo (min hi (roundInt rnd neg m e))

/-- `SatTo(x, F)` for a floating-point format: the value clamped to ±largest finite (R265). -/
def Fmt.sat (F : Fmt) (x : Exact) : Exact :=
  let big := (2 : Nat) ^ (F.mbits + 1) - 1
  let e := F.minExp + (F.maxField - 1)
  match x with
  | .nan => .nan
  | .inf neg => .fin neg big e
  | .fin neg m e' =>
    if (Exact.cmp (.fin false m e') (.fin false big e)) > 0 then .fin neg big e else .fin neg m e'

/-! ### The 32-bit format -/

/-- x(a) of a 32-bit pattern (R302). -/
def xf (a : Word) : Exact := f32.decode a.toNat
/-- Rounds to `f32`. -/
def toF32 (rnd : Rnd) (x : Exact) : Word := BitVec.ofNat 32 (f32.round rnd x)

def fadd (rnd : Rnd) (a b : Word) : Word := toF32 rnd ((xf a).add (rnd == .down) (xf b))
def fsub (rnd : Rnd) (a b : Word) : Word := toF32 rnd ((xf a).add (rnd == .down) (xf b).neg)
def fmul (rnd : Rnd) (a b : Word) : Word := toF32 rnd ((xf a).mul (xf b))
/-- One rounding of the exact value (R305). -/
def ffma (rnd : Rnd) (a b c : Word) : Word := toF32 rnd (((xf a).mul (xf b)).add (rnd == .down) (xf c))

/-- The lesser or greater of two patterns, −0 below +0, a NaN giving way to the other operand (R307). -/
def fminmax (wantMax : Bool) (a b : Word) : Word :=
  if (xf a).isNaN then (if (xf b).isNaN then 0x7FC00000#32 else b)
  else if (xf b).isNaN then a
  else
    let c := (xf a).cmp (xf b)
    let aLess := if c = 0 then (xf a).sign && !(xf b).sign else decide (c < 0)
    if aLess = wantMax then b else a

def fabs (a : Word) : Word := if (xf a).isNaN then 0x7FC00000#32 else a &&& 0x7FFFFFFF#32
def fneg (a : Word) : Word := if (xf a).isNaN then 0x7FC00000#32 else a ^^^ 0x80000000#32

/-- Integer square root, one bit at a time from bit `n`: the greatest r with r² ≤ x, starting from r. -/
def isqrtFrom (x : Nat) : Nat → Nat → Nat
  | 0, r => if (r + 1) * (r + 1) ≤ x then r + 1 else r
  | n + 1, r => isqrtFrom x n (if (r + 2 ^ (n + 1)) * (r + 2 ^ (n + 1)) ≤ x then r + 2 ^ (n + 1) else r)

def isqrt (x : Nat) : Nat := isqrtFrom x (x.log2 / 2 + 1) 0

/-- The square root with a sticky bit below enough bits to round correctly (R308). -/
def Exact.sqrt (x : Exact) : Exact :=
  match x with
  | .nan => .nan
  | .inf neg => if neg then .nan else .inf false
  | .fin neg m e =>
    if m = 0 then .fin neg 0 e
    else if neg then .nan
    else
      let k : Nat := if e % 2 = 0 then 80 else 81
      let big := m * 2 ^ k
      let r := isqrt big
      .fin false (2 * r + (if r * r = big then 0 else 1)) ((e - k) / 2 - 1)

def fsqrt (rnd : Rnd) (a : Word) : Word := toF32 rnd (xf a).sqrt

/-! ### Packed 16-bit elements (R255, R306) -/

def half (a : Word) (i : Nat) : Nat := a.toNat / 2 ^ (16 * i) % 2 ^ 16

/-- One operation on both elements. -/
def packed (f : Nat → Nat) : Word := BitVec.ofNat 32 (f 0 + 2 ^ 16 * f 1)

def padd (F : Fmt) (rnd : Rnd) (a b : Word) : Word :=
  packed fun i => F.round rnd ((F.decode (half a i)).add (rnd == .down) (F.decode (half b i)))
def pmul (F : Fmt) (rnd : Rnd) (a b : Word) : Word :=
  packed fun i => F.round rnd ((F.decode (half a i)).mul (F.decode (half b i)))
def pfma (F : Fmt) (rnd : Rnd) (a b c : Word) : Word :=
  packed fun i => F.round rnd
    (((F.decode (half a i)).mul (F.decode (half b i))).add (rnd == .down) (F.decode (half c i)))

/-! ### Narrow formats and quantisation -/

/-- An `f4` code with its extra value (R258). -/
def decodeF4 (x : Nat) (xval : Nat) : Exact :=
  if x % 16 = 8 then f16.decode xval
  else
    let neg := decide (8 ≤ x % 16)
    let e := x / 2 % 4
    let m := x % 2
    if e = 0 then .fin neg m (-1) else .fin neg (m + 2) (e - 2)

/-- `RoundNE(SatTo(x, f4), f4)`, with NaN to 0 (R265). -/
def encodeF4 (x : Exact) : Nat :=
  match x with
  | .nan => 0
  | x => f4.round .ne (f4.sat x)

/-- The nearest integer to (n / d), ties to even. -/
def divNE (n d : Nat) : Nat :=
  let q := n / d
  let r := n % d
  if 2 * r < d then q else if d < 2 * r then q + 1 else q + q % 2

/-- `Quantise` (R266): the code of `b` bits. -/
def quantise (x s : Exact) (z b : Nat) : Nat :=
  match x, s with
  | .nan, _ => z
  | _, .nan => z
  | _, .inf _ => z
  | .inf xn, .fin sn sm _ => if sm = 0 then z else if xn = sn then 2 ^ b - 1 else 0
  | .fin xn xm xe, .fin sn sm se =>
    if sm = 0 then z
    else
      let q := divNE (xm * 2 ^ (xe - se).toNat) (sm * 2 ^ (se - xe).toNat)
      let v : Int := (if xn = sn then (q : Int) else -(q : Int)) + z
      (max 0 (min ((2 : Int) ^ b - 1) v)).toNat

/-- The exact value s × (q − z) of a quantised code (R260). -/
def dequantExact (q : Nat) (s : Exact) (z : Nat) : Exact := s.mul (.ofInt ((q : Int) - z))

/-- `Dequantise` (R266). -/
def dequantise (q : Nat) (s : Exact) (z : Nat) : Word := toF32 .ne (dequantExact q s z)

/-! ### Compares (R310) -/

def feq (a b : Word) : Bool := !(xf a).isNaN && !(xf b).isNaN && (xf a).cmp (xf b) == 0
def flt (a b : Word) : Bool := !(xf a).isNaN && !(xf b).isNaN && decide ((xf a).cmp (xf b) < 0)
def fle (a b : Word) : Bool := !(xf a).isNaN && !(xf b).isNaN && decide ((xf a).cmp (xf b) ≤ 0)

/-! ### Approximations (R309): the special values, and a free value within the bounds (log 12) -/

/-- |v − 1/x| ≤ u, for finite v, x ≠ 0, u. -/
def nearRecip (v x u : Exact) : Bool :=
  let d := (v.mul x).add false (.fin true 1 0)
  let b := match x with | .fin _ m e => u.mul (.fin false m e) | _ => u
  match d with
  | .fin _ m e => decide (Exact.cmp (.fin false m e) b ≤ 0)
  | _ => false

/-- (v − u)² × y ≤ w ≤ (v + u)² × y for non-negative v, with v − u taken as 0 when negative. -/
def nearSquare (v u y w : Exact) : Bool :=
  let lo := v.add false u.neg
  let lo := if lo.sign then .fin false 0 0 else lo
  let hi := v.add false u
  decide (((lo.mul lo).mul y).cmp w ≤ 0) && decide (w.cmp ((hi.mul hi).mul y) ≤ 0)

/-- One ulp at a 32-bit result: the spacing of `f32` values there (R309). -/
def ulpOf (r : Word) : Exact :=
  let e : Nat := r.toNat / 2 ^ 23 % 256
  if e = 0 then .fin false 1 (-149) else .fin false 1 ((e : Int) - 150)

/-- The reciprocal with a sticky bit. -/
def Exact.recip (x : Exact) : Exact :=
  match x with
  | .fin neg m e =>
    let q := 2 ^ 120 / m
    .fin neg (2 * q + (if q * m = 2 ^ 120 then 0 else 1)) (-e - 121)
  | x => x

/-- A free candidate, when a bound accepts it; the correctly rounded result otherwise. -/
def within (op : Nat) (a rounded : Word) (ok : Word → Bool) : Word :=
  let c := Config.approx op a
  if ok c then c else rounded

/-- Whether a pattern is finite. -/
def finite (a : Word) : Bool := match xf a with | .fin _ _ _ => true | _ => false

/-- The pattern 2^n for an integer from −149 to 127, exactly. -/
def pow2 (n : Int) : Word := toF32 .ne (.fin false 1 n)

/-- `rcp.approx.f32`: 1 ulp. -/
def approxRcp (a : Word) : Word :=
  match xf a with
  | .nan => 0x7FC00000#32
  | .inf neg => if neg then 0x80000000#32 else 0#32
  | .fin neg m e =>
    if m = 0 then (if neg then 0xFF800000#32 else 0x7F800000#32)
    else
      let r := toF32 .ne (Exact.fin neg m e).recip
      within 0x20 a r fun c => finite c && nearRecip (xf c) (.fin neg m e) (ulpOf r)

/-- `rsqrt.approx.f32`: 2 ulp. -/
def approxRsqrt (a : Word) : Word :=
  match xf a with
  | .nan => 0x7FC00000#32
  | .inf neg => if neg then 0x7FC00000#32 else 0#32
  | .fin neg m e =>
    if m = 0 then (if neg then 0xFF800000#32 else 0x7F800000#32)
    else if neg then 0x7FC00000#32
    else
      let r := toF32 .ne (Exact.fin false m e).recip.sqrt
      within 0x21 a r fun c => finite c && !(xf c).sign &&
        nearSquare (xf c) ((ulpOf r).mul (.fin false 2 0)) (.fin false m e) (.fin false 1 0)

/-- `sqrt.approx.f32`: 1 ulp. -/
def approxSqrt (a : Word) : Word :=
  match xf a with
  | .nan => 0x7FC00000#32
  | .inf neg => if neg then 0x7FC00000#32 else 0x7F800000#32
  | .fin neg m e =>
    if m = 0 then a
    else if neg then 0x7FC00000#32
    else
      let r := fsqrt .ne a
      within 0x22 a r fun c => finite c && !(xf c).sign &&
        nearSquare (xf c) (ulpOf r) (.fin false 1 0) (.fin false m e)

/-- The integer that a value is, when it is one. -/
def Exact.toInteger (x : Exact) : Option Int :=
  match x with
  | .fin neg m e =>
    if 0 ≤ e then some (roundInt .z neg m e)
    else if m % 2 ^ (-e).toNat = 0 then some (roundInt .z neg m e) else none
  | _ => none

/-- Fraction bits of the fixed-point values below. -/
def fxBits : Nat := 256
/-- A magnitude as a fixed-point value, rounded down. -/
def toFix (m : Nat) (e : Int) : Nat :=
  if 0 ≤ e + fxBits then m * 2 ^ (e + fxBits).toNat else m / 2 ^ (-(e + fxBits)).toNat
/-- A fixed-point value as an exact value. -/
def ofFix (x : Int) : Exact := .fin (decide (x < 0)) x.natAbs (-(fxBits : Int))
def fxMul (a b : Nat) : Nat := a * b / 2 ^ fxBits
/-- 2π and ln 2 in fixed point, rounded down. -/
def fxTwoPi : Nat := 0x6487ed5110b4611a62633145c06e0e68948127044533e63a0105df531d89cd912
def fxLn2 : Nat := 0xb17217f7d1cf79abc9e3b39803f2f6af <<< 128

/-- The power series of the exponential: `n` terms from term `k`, whose value is `t`. -/
def fxExpFrom (x : Nat) : Nat → Nat → Nat → Nat
  | 0, _, _ => 0
  | n + 1, k, t => t + fxExpFrom x n (k + 1) (fxMul t x / (k + 1))
/-- e^x for x below 20. -/
def fxExp (x : Nat) : Nat := fxExpFrom x 140 0 (2 ^ fxBits)

/-- Alternating terms t − t x²/((k+1)(k+2)) + …: the sine from t = x, k = 1 and the cosine from t = 1, k = 0. -/
def fxTrig (x : Nat) : Nat → Nat → Nat → Int
  | 0, _, _ => 0
  | n + 1, k, t => (t : Int) - fxTrig x n (k + 2) (fxMul (fxMul t x) x / ((k + 1) * (k + 2)))

/-- Fraction bits of the binary logarithm of z in [1, 2), by squaring. -/
def fxLog2From : Nat → Nat → Nat → Nat
  | 0, _, acc => acc
  | n + 1, z, acc =>
    let z := fxMul z z
    if 2 ^ (fxBits + 1) ≤ z then fxLog2From n (z / 2) (2 * acc + 1) else fxLog2From n z (2 * acc)
/-- log2 of m × 2^e for m ≠ 0, in fixed point. -/
def fxLog2 (m : Nat) (e : Int) : Int :=
  ((m.log2 : Int) + e) * 2 ^ fxBits + (fxLog2From 96 (toFix m (-(m.log2 : Int))) 0 : Nat) * 2 ^ (fxBits - 96)

/-- |c − x| ≤ u for the exact x that the fixed-point value v stands for: v is within 2^−80 of it. -/
def nearFix (c : Exact) (v u : Exact) : Bool :=
  match c.add false v.neg with
  | .fin _ m e => decide (Exact.cmp (.fin false m e) (u.add false (.fin true 1 (-80))) ≤ 0)
  | _ => false

/-- `exp2.approx.f32`: exact at integers; 2 ulp elsewhere. -/
def approxExp2 (a : Word) : Word :=
  match xf a with
  | .nan => 0x7FC00000#32
  | .inf neg => if neg then 0#32 else 0x7F800000#32
  | .fin neg m e =>
    if m = 0 then 0x3F800000#32
    else if 0 ≤ (Exact.fin neg m e).cmp (.ofInt 128) then 0x7F800000#32
    else if (Exact.fin neg m e).cmp (.ofInt (-150)) ≤ 0 then 0#32
    else
      match (Exact.fin neg m e).toInteger with
      | some n => pow2 n
      | none =>
        let n := roundInt .down neg m e
        let x : Int := (if neg then -(toFix m e : Int) else toFix m e) - n * 2 ^ fxBits
        let v := fxExp (fxMul x.toNat fxLn2)
        let exact : Exact := .fin false v (n - fxBits)
        let r := toF32 .ne exact
        within 0x23 a r fun c => finite c && !(xf c).sign &&
          nearFix ((xf c).mul (.fin false 1 (-n))) (ofFix v) ((ulpOf r).mul (.fin false 1 (1 - n)))

/-- `log2.approx.f32`: exact at powers of two; 2^−22 in [0.5, 2] and 2 ulp elsewhere. -/
def approxLog2 (a : Word) : Word :=
  match xf a with
  | .nan => 0x7FC00000#32
  | .inf neg => if neg then 0x7FC00000#32 else 0x7F800000#32
  | .fin neg m e =>
    if m = 0 then 0xFF800000#32
    else if neg then 0x7FC00000#32
    else if m = 2 ^ m.log2 then toF32 .ne (.ofInt (m.log2 + e))
    else
      let v := ofFix (fxLog2 m e)
      let r := toF32 .ne v
      let u : Exact := if ((m.log2 : Int) + e = 0 ∨ (m.log2 : Int) + e = -1) then .fin false 1 (-22)
        else (ulpOf r).mul (.fin false 2 0)
      within 0x24 a r fun c => finite c && nearFix (xf c) v u

/-- |c| ≤ 1. -/
def inUnit (c : Word) : Bool := finite c && decide ((xf (fabs c)).cmp (.ofInt 1) ≤ 0)

/-- A finite magnitude modulo 2π, in fixed point. -/
def modTwoPi (a : Word) : Nat :=
  match xf a with
  | .fin _ m e => toFix m e % fxTwoPi
  | _ => 0

/-- `sin.approx.f32`: odd, within [−1, 1] and 2^−21. -/
def approxSin (a : Word) : Word :=
  if !finite a then 0x7FC00000#32
  else if (xf a).isZero then a
  else
    let x := modTwoPi (fabs a)
    let v := ofFix (fxTrig x 40 1 x)
    let r := within 0x25 (fabs a) (toF32 .z v) fun c => inUnit c && nearFix (xf c) v (.fin false 1 (-21))
    if (xf a).sign then fneg r else r

/-- `cos.approx.f32`: even, within [−1, 1] and 2^−21. -/
def approxCos (a : Word) : Word :=
  if !finite a then 0x7FC00000#32
  else if (xf a).isZero then 0x3F800000#32
  else
    let v := ofFix (fxTrig (modTwoPi (fabs a)) 40 0 (2 ^ fxBits))
    within 0x26 (fabs a) (toF32 .z v) fun c => inUnit c && nearFix (xf c) v (.fin false 1 (-21))

/-- `tanh.approx.f32`: odd, ±1 from |x| = 9, within 2^−22. -/
def approxTanh (a : Word) : Word :=
  if (xf a).isNaN then 0x7FC00000#32
  else if (xf a).isZero then a
  else
    let r :=
      match xf (fabs a) with
      | .fin _ m e =>
        if 0 ≤ (Exact.fin false m e).cmp (.ofInt 9) then 0x3F800000#32
        else
          let t := fxExp (2 * toFix m e)
          let v := ofFix (((t - 2 ^ fxBits) * 2 ^ fxBits / (t + 2 ^ fxBits) : Nat) : Int)
          within 0x27 (fabs a) (toF32 .z v) fun c => finite c && nearFix (xf c) v (.fin false 1 (-22))
      | _ => 0x3F800000#32
    if (xf a).sign then fneg r else r

end Sys2Proof.Machine
end

