-- ==== Sys2Proof/WellFormed.lean ====
section
/-! DEFINITION. Well-formed instructions: the encoding rules of R201 that a single instruction can
break, with the Stile's rule code for each. -/

namespace Sys2Proof

/-- Why an encoding is rejected at admission (R201): the conditions of its table, in its order. -/
inductive Reject where
  /-- HCHK is not 0b101 where a header is due, ST-001 -/
  | headerCheck
  /-- WCOUNT is 0 or the words do not add up, ST-002 -/
  | wordCount
  /-- CLASS is 7, ST-003 -/
  | badClass
  /-- an opcode that R195 to R198 mark reserved, ST-004 -/
  | reservedOpcode
  /-- a field required to hold a fixed value does not, ST-005 -/
  | mustBeZero
  /-- a selector that is illegal for its operand, or an odd pair, ST-006 -/
  | illegalOperand
  /-- a latch that holds no value of the clause, ST-007 -/
  | latch
  /-- a control transfer that R181 does not allow, ST-008 -/
  | control
  /-- a reserved SCOPE or ORDER, ST-009 -/
  | scopeOrder
  /-- GPRED 0b111 with GNEG 1, ST-010 -/
  | guardNever
  /-- a loop field that R194 or R201 does not allow, ST-011 -/
  | loopField
  deriving DecidableEq, Repr

/-- The rule code ST-nnn that the fault record names (R201). -/
def Reject.code : Reject → Nat
  | .headerCheck => 1
  | .wordCount => 2
  | .badClass => 3
  | .reservedOpcode => 4
  | .mustBeZero => 5
  | .illegalOperand => 6
  | .latch => 7
  | .control => 8
  | .scopeOrder => 9
  | .guardNever => 10
  | .loopField => 11

/-- The rejection unless the condition holds. -/
def need (ok : Bool) (r : Reject) : Option Reject := if ok then none else some r

/-- When WS is 1, D is 0 (R190). -/
def wsClear (w : BitVec 1) (d : BitVec n) : Option Reject := need (w == 0#1 || d == 0#n) .mustBeZero

/-- A selector legal as a 64-bit operand (R188, R189). -/
def src64 (a : BitVec 8) : Option Reject :=
  need (if a.toNat < 0x80 then a.toNat % 2 == 0
    else if a.toNat < 0x84 then a == 0x80#8 || a == 0x82#8
    else decide (a.toNat < 0x88 || 0x90 ≤ a.toNat)) .illegalOperand

/-- A scalar or an even vector pair (R291, R322). -/
def srcAddr (a : BitVec 8) : Option Reject :=
  need (0xC0 ≤ a.toNat || a.toNat < 0x80 && a.toNat % 2 == 0) .illegalOperand

/-- A source of a check: pairs when W is 1, and 64-bit scalars and constants always (R298). -/
def srcCheck (x : BitVec 1) (a : BitVec 8) : Option Reject :=
  if x == 1#1 || 0x84 ≤ a.toNat then src64 a else none

/-- A uniform count: a scalar, or one of the constants 0x84 and 0x90 to 0xAF (R295, R348). -/
def srcCount (a : BitVec 8) : Option Reject :=
  need (0xC0 ≤ a.toNat || a == 0x84#8 || 0x90 ≤ a.toNat && a.toNat ≤ 0xAF) .illegalOperand

/-- Any 32-bit source but a latch (R314, R418). -/
def noLatch (a : BitVec 8) : Option Reject := need (a.toNat < 0x80 || 0x84 ≤ a.toNat) .illegalOperand

/-- A scalar or a constant (R323). -/
def uniform (a : BitVec 8) : Option Reject := need (decide (0x84 ≤ a.toNat)) .illegalOperand

/-- A scalar. -/
def scalar (a : BitVec 8) : Option Reject := need (decide (0xC0 ≤ a.toNat)) .illegalOperand
/-- An even scalar. -/
def scalar2 (a : BitVec 8) : Option Reject := need (0xC0 ≤ a.toNat && a.toNat % 2 == 0) .illegalOperand
/-- A scalar whose number is a multiple of 4. -/
def scalar4 (a : BitVec 8) : Option Reject := need (0xC0 ≤ a.toNat && a.toNat % 4 == 0) .illegalOperand

/-- An even vector register (R190). -/
def even (d : BitVec 7) : Option Reject := need (d.toNat % 2 == 0) .illegalOperand
/-- A vector register whose number is a multiple of 4 (R325, R333). -/
def aligned4 (d : BitVec 7) : Option Reject := need (d.toNat % 4 == 0) .illegalOperand

/-- SCOPE and ORDER hold values that R129 and R132 do not reserve. -/
def scopeOrder (x : XM) : Option Reject := need (x.scope.toNat < 7 && x.order.toNat < 5) .scopeOrder

/-- The modifiers that stash and flask operations require: RET 0b01, SCOPE 0b100, ORDER 0, MODE 0 (R330, R332). -/
def fixedXM (x : XM) : Option Reject :=
  need (x.ret == 1#2 && x.scope == 4#3 && x.order == 0#3 && x.mode == 0#4) .mustBeZero

/-- The first register of a record block: an even vector register (R403); how far the block goes is ST-022's matter (R412). -/
def recordBlock (a : BitVec 8) : Option Reject := need (a.toNat % 2 == 0 && a.toNat < 128) .illegalOperand

/-- The system registers of R414. -/
def sysReg (s : BitVec 12) : Bool :=
  s.toNat < 0x008 || s == 0x010#12 || s == 0x011#12 || 0x020 ≤ s.toNat && s.toNat ≤ 0x024 ||
    s == 0x030#12 || 0x040 ≤ s.toNat && s.toNat ≤ 0x043

/-- The system registers that are 64 bits wide (R414). -/
def sysReg64 (s : BitVec 12) : Bool :=
  s == 0x010#12 || s == 0x011#12 || s == 0x020#12 || s == 0x021#12 || s == 0x022#12 || s == 0x024#12 ||
    0x040 ≤ s.toNat && s.toNat ≤ 0x043

/-- The first rejection of a list of checks. -/
def firstOf : List (Option Reject) → Option Reject
  | [] => none
  | some r :: _ => some r
  | none :: rs => firstOf rs

/-- The encoding rule of R201 that the instruction breaks, if any. -/
def Instr.illFormed (i : Instr) : Option Reject :=
  match i with
  | .votePoint _ _ => none
  | .resultReturn _ _ => none
  | .coalesceTimeout _ _ => none
  | .storeDrain _ _ => none
  | .homeRequest _ => none
  | .walkComplete _ _ _ _ => none
  | .stashFillReturn _ _ => none
  | .stashReadRecall _ _ => none
  | .stashWriteRecall _ _ => none
  | .outstandingEntryFree _ _ => none
  | .stickyQuotaWrite _ _ => none
  | .flaskRequestAtHome _ => none
  | .read _ _ _ _ => none
  | .own _ _ _ _ => none
  | .unhead _ _ _ _ => none
  | .done _ _ _ => none
  | .wb _ _ _ _ _ => none
  | .purgeAnswerCopy _ _ _ _ => none
  | .fetchAnswer _ _ _ _ _ => none
  | .recallAnswer _ _ _ _ _ => none
  | .fetch _ _ => none
  | .recall _ _ => none
  | .data _ _ _ _ _ _ => none
  | .grant _ _ _ _ _ _ => none
  | .purge _ _ _ => none
  | .purgeAnswer _ _ _ _ => none
  | .setfwd _ _ _ _ => none
  | .setback _ _ _ _ => none
  | .ack _ _ _ => none
  | .notHead _ _ => none
  | .stale _ _ _ => none
  | .retry _ _ _ => none
  | .retryResend _ => none
  | .hostReadShared _ _ => none
  | .hostReadExclusive _ _ => none
  | .hostWriteHalf _ _ _ => none
  | .hostReadNoCopy _ _ => none
  | .hostWriteback _ _ _ => none
  | .hostEvictNotice _ _ => none
  | .bisnpinvResponse _ _ _ _ => none
  | .bisnpdataResponse _ _ _ _ => none
  | .hostSnoopTimeout _ => none
  | .rdsharedData _ _ _ => none
  | .rdownGrant _ _ _ => none
  | .snpdata _ _ => none
  | .snpinv _ _ => none
  | .snpcur _ _ => none
  | .bar2Read _ => none
  | .bar2Write _ _ => none
  | .otgerNack _ => none
  | .migrate _ => none
  | .release _ => none
  | .migRqtailWrite _ _ => none
  | .migrationLineCopy _ _ _ => none
  | .migEpoch _ => none
  | .agentReport _ _ => none
  | .chainAnswerTimeout _ _ => none
  | .managerProbeTimeout _ => none
  | .dead _ _ => none
  | .scanDone _ _ => none
  | .resume _ => none
  | .ticketGrant _ _ => none
  | .engineStart _ => none
  | .engineLinePerform _ _ _ => none
  | .engineComplete _ => none
  | .rollcallComplete _ => none
  | .growGrant _ => none
  | .growWaitLimit _ => none
  | .growDeadlock _ => none
  | .teamRotation _ _ => none
  | .capabilityRevoke _ _ => none
  | .sealClear _ => none
  | .admissionRequest _ => none
  | .admissionResult _ => none
  | .iqTailWrite _ _ => none
  | .iqErrClear _ => none
  | .invS1Va _ => none
  | .invS1All _ => none
  | .invS2Ipa _ => none
  | .invS2All _ => none
  | .sync _ => none
  | .syncComplete _ => none
  | .lockRetry _ => none
  | .tileOpComplete _ => none
  | .reservationDispatch _ => none
  | .passComplete _ _ => none
  | .levelAging _ _ => none
  | .ringWaitResume _ => none
  | .streamCommand _ => none
  | .streamEnd _ => none
  | .hamperAtHome _ _ => none
  | .hamperResultReturn _ => none
  | .trapDelivery _ => none
  | .prgResponse _ _ _ => none
  | .priTimeout _ _ => none
  | .sqTailWrite _ _ _ => none
  | .sqErrClear _ _ => none
  | .launchDescriptor _ _ => none
  | .placement _ _ _ => none
  | .launchCompletion _ => none
  | .placementWaitLimit _ => none
  | .quantumExpiry => none
  | .preemptRequest _ _ => none
  | .drainDeadline _ => none
  | .freezeDeadline _ => none
  | .freezeQuiesced _ => none
  | .restore _ _ _ => none
  | .keyTransfer _ _ _ _ _ => none
  | .featMaskWrite _ _ => none
  | .flrVf _ => none
  | .flrPf => none
  | .linkLoss => none
  | .linkUp => none
  | .hlossThaw => none
  | .portTrainRetry _ => none
  | .portTakedown _ => none
  | .domEnWrite _ => none
  | .domFormedWrite _ => none
  | .powerWindow _ => none
  | .tempCritical _ => none
  | .mgmtFlr _ => none
  | .moduleReset => none
  | .readFaultLog => none
  | .dumpState => none
  | .recover _ => none
  | .spdmRequest _ => none
  | .pldmTelemetry => none
  | .pldmFirmwareUpdate _ => none
  | .firmwareHandover => none
  | .coldReset _ => none
  | .debugStateRequest _ _ _ => none
  | .deepSleepWake => none
  | .qrepDrain _ => none
  | .qrepDrainDone => none
  | .qrepRetest _ => none
  | .qrepRetestDone _ _ => none
  | .qrepReturn _ => none
  | .hbmRetireRequest _ => none
  | .hbmRetireCommit _ => none
  | .restripeDone => none
  | .registerWrite _ _ _ => none
  | .addB32 d w _ _ => firstOf [wsClear w d]
  | .addB32Imm d w _ _ => firstOf [wsClear w d]
  | .subB32 d w _ _ => firstOf [wsClear w d]
  | .subB32Imm d w _ _ => firstOf [wsClear w d]
  | .addSatI32 d w _ _ => firstOf [wsClear w d]
  | .addSatN32 d w _ _ => firstOf [wsClear w d]
  | .subSatI32 d w _ _ => firstOf [wsClear w d]
  | .subSatN32 d w _ _ => firstOf [wsClear w d]
  | .mulLoB32 d w _ _ => firstOf [wsClear w d]
  | .mulHiI32 d w _ _ => firstOf [wsClear w d]
  | .mulHiN32 d w _ _ => firstOf [wsClear w d]
  | .mulWideI32 d w _ _ => firstOf [wsClear w d]
  | .mulWideN32 d w _ _ => firstOf [wsClear w d]
  | .divI32 d w _ _ => firstOf [wsClear w d]
  | .divN32 d w _ _ => firstOf [wsClear w d]
  | .remI32 d w _ _ => firstOf [wsClear w d]
  | .remN32 d w _ _ => firstOf [wsClear w d]
  | .minI32 d w _ _ => firstOf [wsClear w d]
  | .maxI32 d w _ _ => firstOf [wsClear w d]
  | .minN32 d w _ _ => firstOf [wsClear w d]
  | .maxN32 d w _ _ => firstOf [wsClear w d]
  | .shlB32 d w _ _ => firstOf [wsClear w d]
  | .shrN32 d w _ _ => firstOf [wsClear w d]
  | .shrI32 d w _ _ => firstOf [wsClear w d]
  | .rotlB32 d w _ _ => firstOf [wsClear w d]
  | .rotrB32 d w _ _ => firstOf [wsClear w d]
  | .shlB32Imm d w _ _ => firstOf [wsClear w d]
  | .shrN32Imm d w _ _ => firstOf [wsClear w d]
  | .shrI32Imm d w _ _ => firstOf [wsClear w d]
  | .rotlB32Imm d w _ _ => firstOf [wsClear w d]
  | .rotrB32Imm d w _ _ => firstOf [wsClear w d]
  | .popcB32 d w _ => firstOf [wsClear w d]
  | .clzB32 d w _ => firstOf [wsClear w d]
  | .ctzB32 d w _ => firstOf [wsClear w d]
  | .brevB32 d w _ => firstOf [wsClear w d]
  | .bfxN32 d w _ _ _ => firstOf [wsClear w d]
  | .bfxI32 d w _ _ _ => firstOf [wsClear w d]
  | .bfiB32 d w _ _ _ _ => firstOf [wsClear w d]
  | .ternB32 d w _ _ _ _ => firstOf [wsClear w d]
  | .andB32 d w _ _ => firstOf [wsClear w d]
  | .orB32 d w _ _ => firstOf [wsClear w d]
  | .xorB32 d w _ _ => firstOf [wsClear w d]
  | .notB32 d w _ => firstOf [wsClear w d]
  | .andB32Imm d w _ _ => firstOf [wsClear w d]
  | .orB32Imm d w _ _ => firstOf [wsClear w d]
  | .xorB32Imm d w _ _ => firstOf [wsClear w d]
  | .movB32 d w _ => firstOf [wsClear w d]
  | .movB32Imm d w t _ => firstOf [wsClear w d, need (t == 0x84#8 || t == 0x88#8) .illegalOperand]
  | .addB64 d w a b => firstOf [wsClear w d, src64 a, src64 b]
  | .subB64 d w a b => firstOf [wsClear w d, src64 a, src64 b]
  | .mulLoB64 d w a b => firstOf [wsClear w d, src64 a, src64 b]
  | .minI64 d w a b => firstOf [wsClear w d, src64 a, src64 b]
  | .maxI64 d w a b => firstOf [wsClear w d, src64 a, src64 b]
  | .minN64 d w a b => firstOf [wsClear w d, src64 a, src64 b]
  | .maxN64 d w a b => firstOf [wsClear w d, src64 a, src64 b]
  | .shlB64 d w a _ => firstOf [wsClear w d, src64 a]
  | .shrN64 d w a _ => firstOf [wsClear w d, src64 a]
  | .shrI64 d w a _ => firstOf [wsClear w d, src64 a]
  | .movB64Imm d w _ => firstOf [wsClear w d]
  | .smovB64 _ a => firstOf [src64 a]
  | .selB32 d w _ _ _ => firstOf [wsClear w d]
  | .selB64 d w a b _ => firstOf [wsClear w d, src64 a, src64 b]
  | .setpEqB32 _ _ _ => none
  | .setpNeB32 _ _ _ => none
  | .setpLtI32 _ _ _ => none
  | .setpLeI32 _ _ _ => none
  | .setpGtI32 _ _ _ => none
  | .setpGeI32 _ _ _ => none
  | .setpLtN32 _ _ _ => none
  | .setpLeN32 _ _ _ => none
  | .setpGtN32 _ _ _ => none
  | .setpGeN32 _ _ _ => none
  | .setpEqB64 _ a b => firstOf [src64 a, src64 b]
  | .setpNeB64 _ a b => firstOf [src64 a, src64 b]
  | .setpLtI64 _ a b => firstOf [src64 a, src64 b]
  | .setpLeI64 _ a b => firstOf [src64 a, src64 b]
  | .setpLtN64 _ a b => firstOf [src64 a, src64 b]
  | .setpLeN64 _ a b => firstOf [src64 a, src64 b]
  | .setpEqB32Imm _ _ _ => none
  | .setpNeB32Imm _ _ _ => none
  | .setpLtI32Imm _ _ _ => none
  | .setpLeI32Imm _ _ _ => none
  | .setpGtI32Imm _ _ _ => none
  | .setpGeI32Imm _ _ _ => none
  | .andPred _ _ _ => none
  | .orPred _ _ _ => none
  | .xorPred _ _ _ => none
  | .notPred _ _ => none
  | .ptrAdd d w a b sc e => firstOf [wsClear w d, need (sc.toNat ≤ 4) .mustBeZero, need (e.toNat ≤ 2) .mustBeZero, src64 a, if e == 2#2 then src64 b else none]
  | .ptrDiff d w a b => firstOf [wsClear w d, src64 a, src64 b]
  | .ptrAddImm d w a _ => firstOf [wsClear w d, src64 a]
  | .bra _ _ _ => none
  | .jmp a => firstOf [srcAddr a]
  | .call _ _ => none
  | .callInd _ a => firstOf [srcAddr a]
  | .ret a => firstOf [srcAddr a]
  | .conv => none
  | .exit => none
  | .loop ncl cnt incs => firstOf [srcCount cnt, need (ncl.toNat != 0 && incs.length ≤ 4) .loopField]
  | .chkb x a b => firstOf [srcCheck x a, srcCheck x b]
  | .chkland a => firstOf [src64 a]
  | .chkaln a e => firstOf [need (e.toNat ≤ 4) .mustBeZero, srcCheck 0#1 a]
  | .addF32 _ d w _ _ => firstOf [wsClear w d]
  | .subF32 _ d w _ _ => firstOf [wsClear w d]
  | .mulF32 _ d w _ _ => firstOf [wsClear w d]
  | .fmaF32 _ d w _ _ => firstOf [wsClear w d]
  | .addF16x2 _ d w _ _ => firstOf [wsClear w d]
  | .mulF16x2 _ d w _ _ => firstOf [wsClear w d]
  | .fmaF16x2 _ d w _ _ => firstOf [wsClear w d]
  | .addBf16x2 _ d w _ _ => firstOf [wsClear w d]
  | .mulBf16x2 _ d w _ _ => firstOf [wsClear w d]
  | .fmaBf16x2 _ d w _ _ => firstOf [wsClear w d]
  | .minF32 d w _ _ => firstOf [wsClear w d]
  | .maxF32 d w _ _ => firstOf [wsClear w d]
  | .absF32 d w _ => firstOf [wsClear w d]
  | .negF32 d w _ => firstOf [wsClear w d]
  | .rcpApproxF32 d w _ => firstOf [wsClear w d]
  | .rsqrtApproxF32 d w _ => firstOf [wsClear w d]
  | .sqrtApproxF32 d w _ => firstOf [wsClear w d]
  | .exp2ApproxF32 d w _ => firstOf [wsClear w d]
  | .log2ApproxF32 d w _ => firstOf [wsClear w d]
  | .sinApproxF32 d w _ => firstOf [wsClear w d]
  | .cosApproxF32 d w _ => firstOf [wsClear w d]
  | .tanhApproxF32 d w _ => firstOf [wsClear w d]
  | .sqrtF32 _ d w _ => firstOf [wsClear w d]
  | .setpEqF32 _ _ _ => none
  | .setpNeF32 _ _ _ => none
  | .setpLtF32 _ _ _ => none
  | .setpLeF32 _ _ _ => none
  | .setpGtF32 _ _ _ => none
  | .setpGeF32 _ _ _ => none
  | .setpNanF32 _ _ _ => none
  | .cvtF32I32 _ d w _ => firstOf [wsClear w d]
  | .cvtF32N32 _ d w _ => firstOf [wsClear w d]
  | .cvtI32F32 _ d w _ => firstOf [wsClear w d]
  | .cvtN32F32 _ d w _ => firstOf [wsClear w d]
  | .cvtF16F32 _ d w _ => firstOf [wsClear w d]
  | .cvtBf16F32 _ d w _ => firstOf [wsClear w d]
  | .cvtF32F16 d w _ => firstOf [wsClear w d]
  | .cvtF32Bf16 d w _ => firstOf [wsClear w d]
  | .cvtSatF8aF32 d w _ => firstOf [wsClear w d]
  | .cvtNanF8aF32 d w _ => firstOf [wsClear w d]
  | .cvtSatF8bF32 d w _ => firstOf [wsClear w d]
  | .cvtNanF8bF32 d w _ => firstOf [wsClear w d]
  | .cvtSatF4F32 d w _ => firstOf [wsClear w d]
  | .cvtF32F8a d w _ => firstOf [wsClear w d]
  | .cvtF32F8b d w _ => firstOf [wsClear w d]
  | .cvtF32F4 d w _ _ => firstOf [wsClear w d]
  | .cvtSatI8I32 d w _ => firstOf [wsClear w d]
  | .cvtI32I8 d w _ => firstOf [wsClear w d]
  | .quantQ8F32 d w _ _ => firstOf [wsClear w d]
  | .quantQ4F32 d w _ _ => firstOf [wsClear w d]
  | .dequantF32Q8 d w _ _ => firstOf [wsClear w d]
  | .dequantF32Q4 d w _ _ => firstOf [wsClear w d]
  | .packB16 d w _ _ => firstOf [wsClear w d]
  | .packB8 d w _ _ => firstOf [wsClear w d]
  | .packB4 d w _ _ => firstOf [wsClear w d]
  | .unpackB16 d w _ _ => firstOf [wsClear w d]
  | .unpackB8 d w _ _ => firstOf [wsClear w d]
  | .unpackB4 d w _ _ => firstOf [wsClear w d]
  | .xlPick d w a b => firstOf [wsClear w d, noLatch a, noLatch b]
  | .xlRol d w a b => firstOf [wsClear w d, noLatch a, noLatch b]
  | .xlRor d w a b => firstOf [wsClear w d, noLatch a, noLatch b]
  | .xlBfly d w a b => firstOf [wsClear w d, noLatch a, noLatch b]
  | .redAddB32 d w a => firstOf [wsClear w d, noLatch a]
  | .redMinI32 d w a => firstOf [wsClear w d, noLatch a]
  | .redMaxI32 d w a => firstOf [wsClear w d, noLatch a]
  | .redMinN32 d w a => firstOf [wsClear w d, noLatch a]
  | .redMaxN32 d w a => firstOf [wsClear w d, noLatch a]
  | .redAndB32 d w a => firstOf [wsClear w d, noLatch a]
  | .redOrB32 d w a => firstOf [wsClear w d, noLatch a]
  | .redXorB32 d w a => firstOf [wsClear w d, noLatch a]
  | .redAddF32 d w a => firstOf [wsClear w d, noLatch a]
  | .redMinF32 d w a => firstOf [wsClear w d, noLatch a]
  | .redMaxF32 d w a => firstOf [wsClear w d, noLatch a]
  | .minidxN32 d w a => firstOf [wsClear w d, noLatch a]
  | .minidxI32 d w a => firstOf [wsClear w d, noLatch a]
  | .minidxF32 d w a => firstOf [wsClear w d, noLatch a]
  | .scanInclAddB32 d w a => firstOf [wsClear w d, noLatch a]
  | .scanExclAddB32 d w a => firstOf [wsClear w d, noLatch a]
  | .scanInclMaxI32 d w a => firstOf [wsClear w d, noLatch a]
  | .scanInclMinI32 d w a => firstOf [wsClear w d, noLatch a]
  | .pollAll _ _ => none
  | .pollAny _ _ => none
  | .pollMask d w _ => firstOf [wsClear w d]
  | .pollSame _ a => firstOf [noLatch a]
  | .ldN8 _ a _ x => firstOf [need (x.mode.toNat < 2) .mustBeZero, srcAddr a, scopeOrder x]
  | .ldI8 _ a _ x => firstOf [need (x.mode.toNat < 2) .mustBeZero, srcAddr a, scopeOrder x]
  | .ldN16 _ a _ x => firstOf [need (x.mode.toNat < 2) .mustBeZero, srcAddr a, scopeOrder x]
  | .ldI16 _ a _ x => firstOf [need (x.mode.toNat < 2) .mustBeZero, srcAddr a, scopeOrder x]
  | .ldB32 _ a _ x => firstOf [need (x.mode.toNat < 2) .mustBeZero, srcAddr a, scopeOrder x]
  | .ldB64 d a _ x => firstOf [need (x.mode.toNat < 2) .mustBeZero, srcAddr a, even d, scopeOrder x]
  | .ldB128 d a _ x => firstOf [need (x.mode.toNat < 2) .mustBeZero, srcAddr a, aligned4 d, scopeOrder x]
  | .stB8 _ a _ x => firstOf [need (x.mode.toNat < 2) .mustBeZero, srcAddr a, scopeOrder x]
  | .stB16 _ a _ x => firstOf [need (x.mode.toNat < 2) .mustBeZero, srcAddr a, scopeOrder x]
  | .stB32 _ a _ x => firstOf [need (x.mode.toNat < 2) .mustBeZero, srcAddr a, scopeOrder x]
  | .stB64 d a _ x => firstOf [need (x.mode.toNat < 2) .mustBeZero, srcAddr a, even d, scopeOrder x]
  | .stB128 d a _ x => firstOf [need (x.mode.toNat < 2) .mustBeZero, srcAddr a, aligned4 d, scopeOrder x]
  | .ldsB32 _ _ _ x => firstOf [need (x.mode.toNat < 2) .mustBeZero, need (x.ret == 1#2) .mustBeZero, scopeOrder x]
  | .ldsB64 d _ _ x => firstOf [need (x.mode.toNat < 2) .mustBeZero, need (x.ret == 1#2) .mustBeZero, even d, scopeOrder x]
  | .ldsB128 d _ _ x => firstOf [need (x.mode.toNat < 2) .mustBeZero, need (x.ret == 1#2) .mustBeZero, aligned4 d, scopeOrder x]
  | .stsB32 _ _ _ x => firstOf [need (x.mode.toNat < 2) .mustBeZero, need (x.ret == 1#2) .mustBeZero, scopeOrder x]
  | .stsB64 d _ _ x => firstOf [need (x.mode.toNat < 2) .mustBeZero, need (x.ret == 1#2) .mustBeZero, even d, scopeOrder x]
  | .stsB128 d _ _ x => firstOf [need (x.mode.toNat < 2) .mustBeZero, need (x.ret == 1#2) .mustBeZero, aligned4 d, scopeOrder x]
  | .stashMap tok a b x => firstOf [need (x.mode.toNat ≤ 2) .mustBeZero, need (x.off.toNat < 2048) .mustBeZero, need (x.scope == 4#3 && x.order == 0#3) .mustBeZero, need (x.mode == 2#4 || tok == 0#6) .mustBeZero, uniform a, src64 a, uniform b, src64 b, scopeOrder x]
  | .stashUnmap b x => firstOf [fixedXM x, need (x.off == 0#20) .mustBeZero, uniform b, src64 b, scopeOrder x]
  | .stashFlush b x => firstOf [fixedXM x, need (x.off.toNat < 2048) .mustBeZero, uniform b, src64 b, scopeOrder x]
  | .flaskCreate _ a b x => firstOf [fixedXM x, need (x.off == 0#20) .mustBeZero, uniform a, src64 a, uniform b, src64 b, scopeOrder x]
  | .flaskSeal _ a x => firstOf [fixedXM x, need (x.off == 0#20) .mustBeZero, uniform a, src64 a, scopeOrder x]
  | .flaskReopen _ a x => firstOf [fixedXM x, need (x.off == 0#20) .mustBeZero, uniform a, src64 a, scopeOrder x]
  | .flaskRetire _ a x => firstOf [fixedXM x, need (x.off == 0#20) .mustBeZero, uniform a, src64 a, scopeOrder x]
  | .flaskAcq _ a x => firstOf [fixedXM x, need (x.off == 0#20) .mustBeZero, uniform a, src64 a, scopeOrder x]
  | .flaskRel _ a x => firstOf [fixedXM x, need (x.off == 0#20) .mustBeZero, uniform a, src64 a, scopeOrder x]
  | .atomAddB32 _ a _ x => firstOf [need (x.mode.toNat < 4) .mustBeZero, srcAddr a, scopeOrder x]
  | .atomAddB64 d a _ x => firstOf [need (x.mode.toNat < 4) .mustBeZero, srcAddr a, even d, scopeOrder x]
  | .atomMinI32 _ a _ x => firstOf [need (x.mode.toNat < 4) .mustBeZero, srcAddr a, scopeOrder x]
  | .atomMaxI32 _ a _ x => firstOf [need (x.mode.toNat < 4) .mustBeZero, srcAddr a, scopeOrder x]
  | .atomMinN32 _ a _ x => firstOf [need (x.mode.toNat < 4) .mustBeZero, srcAddr a, scopeOrder x]
  | .atomMaxN32 _ a _ x => firstOf [need (x.mode.toNat < 4) .mustBeZero, srcAddr a, scopeOrder x]
  | .atomAndB32 _ a _ x => firstOf [need (x.mode.toNat < 4) .mustBeZero, srcAddr a, scopeOrder x]
  | .atomOrB32 _ a _ x => firstOf [need (x.mode.toNat < 4) .mustBeZero, srcAddr a, scopeOrder x]
  | .atomXorB32 _ a _ x => firstOf [need (x.mode.toNat < 4) .mustBeZero, srcAddr a, scopeOrder x]
  | .atomXchgB32 _ a _ x => firstOf [need (x.mode.toNat < 4) .mustBeZero, srcAddr a, scopeOrder x]
  | .atomXchgB64 d a _ x => firstOf [need (x.mode.toNat < 4) .mustBeZero, srcAddr a, even d, scopeOrder x]
  | .atomCasB32 d a _ x => firstOf [need (x.mode.toNat < 4) .mustBeZero, srcAddr a, even d, scopeOrder x]
  | .atomCasB64 d a _ x => firstOf [need (x.mode.toNat < 4) .mustBeZero, srcAddr a, aligned4 d, scopeOrder x]
  | .atomAddF32 _ a _ x => firstOf [need (x.mode.toNat < 4) .mustBeZero, srcAddr a, scopeOrder x]
  | .atomMinI64 d a _ x => firstOf [need (x.mode.toNat < 4) .mustBeZero, srcAddr a, even d, scopeOrder x]
  | .atomMaxI64 d a _ x => firstOf [need (x.mode.toNat < 4) .mustBeZero, srcAddr a, even d, scopeOrder x]
  | .fence a b x => firstOf [if a == 0x84#8 then need (b == 0x84#8) .mustBeZero else src64 a, need (x.mode == 0#4 && x.off == 0#20) .mustBeZero, scopeOrder x]
  | .barGroup => none
  | .barTeam => none
  | .barRole _ => none
  | .barRollcall => none
  | .copy a b x => firstOf [need (x.mode.toNat < 4) .mustBeZero, uniform a, src64 a, uniform b, src64 b, scopeOrder x]
  | .gather a b x => firstOf [need (x.mode.toNat < 8) .mustBeZero, uniform a, src64 a, scalar4 b, scopeOrder x]
  | .coll a b x => firstOf [need (x.mode == 0#4) .mustBeZero, scalar2 a, scalar2 b, scopeOrder x]
  | .engWait _ a => firstOf [srcCount a]
  | .lockAcq a x => firstOf [need (x.mode == 0#4 && x.off == 0#20) .mustBeZero, scalar a, scopeOrder x]
  | .lockRel a x => firstOf [need (x.mode == 0#4 && x.off == 0#20) .mustBeZero, scalar a, scopeOrder x]
  | .talloc _ t _ => firstOf [need (t.toNat ≤ 9) .mustBeZero]
  | .tfree _ => none
  | .tgiveRing _ _ => none
  | .tgiveRole _ _ => none
  | .ttakeRing _ t _ => firstOf [need (t.toNat ≤ 9) .mustBeZero]
  | .ttakeRole _ t => firstOf [need (t.toNat ≤ 9) .mustBeZero]
  | .tld _ a b x => firstOf [need (x.mode.toNat ≤ 9) .mustBeZero, scalar a, uniform b, src64 b, scopeOrder x]
  | .tst _ a b x => firstOf [need (x.mode == 0#4) .mustBeZero, scalar a, uniform b, src64 b, scopeOrder x]
  | .tcvt _ _ _ _ => none
  | .tspread _ _ q f => firstOf [need (f == 0#1 || q == 0#2) .mustBeZero]
  | .ttag _ _ b gs zv _ => firstOf [need (gs != 3#2) .mustBeZero, need (zv == 1#1 || b == 0#5) .mustBeZero]
  | .ttagXval _ _ => none
  | .mxAcq => none
  | .mxRel => none
  | .mxPass _ _ _ _ _ => none
  | .mxQpass _ _ _ _ _ _ => none
  | .mxBpass _ _ _ n _ => firstOf [need (n.toNat % 4 == 0) .mustBeZero]
  | .mxStream _ b x => firstOf [need (x.ret == 1#2 && x.order == 0#3 && x.mode == 0#4 && x.off == 0#20) .mustBeZero, scalar4 b, scopeOrder x]
  | .mxDrainMem a b x => firstOf [need (x.off == 0#20 || (if x.mode.extractLsb' 1 1 == 0#1 then 128 else 64) ≤ x.off.toNat) .mustBeZero, scalar a, uniform b, src64 b, scopeOrder x]
  | .mxDrainTile _ _ _ _ _ => none
  | .mxDrainColl _ _ a b x => firstOf [need (x.mode == 0#4 && x.off == 0#20) .mustBeZero, scalar2 a, scalar2 b, scopeOrder x]
  | .mxEpi h x => firstOf [need (x.ret == 1#2 && x.scope == 4#3 && x.order == 0#3 && x.mode.toNat < 2) .mustBeZero, need (x.mode == 1#4 || h == 0#5) .mustBeZero, scopeOrder x]
  | .mxZero _ _ => none
  | .hmPut d w a _ op => firstOf [wsClear w d, need (op.toNat ≤ 0x18) .mustBeZero, recordBlock a]
  | .hmRput d w a _ => firstOf [wsClear w d, recordBlock a]
  | .hmGet d _ => firstOf [recordBlock (0#1 ++ d)]
  | .hmDone _ => none
  | .hmKscfgOpen d w a b _ => firstOf [wsClear w d, uniform a, src64 a, uniform b, src64 b]
  | .hmKscfgQuery d w _ => firstOf [wsClear w d]
  | .hmKscfgClose d w _ => firstOf [wsClear w d]
  | .hmGdrain _ a b _ => firstOf [scalar a, uniform b, src64 b]
  | .hmGreload _ a b _ => firstOf [scalar a, uniform b, src64 b]
  | .trap _ => none
  | .rttResume => none
  | .rttEnd => none
  | .rdsys d s => firstOf [need (sysReg s) .mustBeZero, need (d.toNat < 0x80 || 0xC0 ≤ d.toNat) .illegalOperand, need (!sysReg64 s || 0xC0 ≤ d.toNat || d.toNat % 2 == 0) .illegalOperand]
  | .wrsys a s => firstOf [need (s == 0x023#12) .mustBeZero, noLatch a]
  | .warnClr _ => none
  | .brk _ => none
  | .ctrRd d _ => firstOf [need (d.toNat < 0x80 && d.toNat % 2 == 0 || 0xC0 ≤ d.toNat) .illegalOperand]
  | .ctrCfg _ _ => none
  | .yield => none
  | .vregGrow n => firstOf [need (2 ≤ n.toNat && n.toNat ≤ 16) .mustBeZero]
  | .vregShrink n => firstOf [need (2 ≤ n.toNat && n.toNat ≤ 16) .mustBeZero]
  | .schedHint d w _ _ => firstOf [wsClear w d]
  | .pref d w _ _ x => firstOf [wsClear w d, need (x.mode.toNat < 2) .mustBeZero]
  | .evictHint d w _ _ x => firstOf [wsClear w d, need (x.mode.toNat < 2) .mustBeZero]
  | .unimplementedHint op d w _ _ ext => firstOf [need (op != 0x00#8 && op != 0x80#8 && op != 0x81#8) .reservedOpcode, wsClear w d, need (if op.extractLsb' 7 1 == 1#1 then ext.extractLsb' 20 4 == 0#4 else ext == 0#32) .mustBeZero]
  | .portTrained _ _ _ => none
  | .flitCheckFailure _ => none
  | .agentReadmission _ => none
  | .deadAcknowledgement _ _ => none
  | .hostDeathNotice _ => none
  | .deepSleepEntry => none
  | .debuggerResume _ => none
  | .linkDownHandshake => none

/-- A well-formed instruction breaks no encoding rule. -/
def Instr.WellFormed (i : Instr) : Prop := i.illFormed = none

/-- Whether the row is an instruction form; the others are events of the device's units. -/
def Instr.isInstruction (i : Instr) : Bool :=
  match i with
  | .votePoint _ _ => false
  | .resultReturn _ _ => false
  | .coalesceTimeout _ _ => false
  | .storeDrain _ _ => false
  | .homeRequest _ => false
  | .walkComplete _ _ _ _ => false
  | .stashFillReturn _ _ => false
  | .stashReadRecall _ _ => false
  | .stashWriteRecall _ _ => false
  | .outstandingEntryFree _ _ => false
  | .stickyQuotaWrite _ _ => false
  | .flaskRequestAtHome _ => false
  | .read _ _ _ _ => false
  | .own _ _ _ _ => false
  | .unhead _ _ _ _ => false
  | .done _ _ _ => false
  | .wb _ _ _ _ _ => false
  | .purgeAnswerCopy _ _ _ _ => false
  | .fetchAnswer _ _ _ _ _ => false
  | .recallAnswer _ _ _ _ _ => false
  | .fetch _ _ => false
  | .recall _ _ => false
  | .data _ _ _ _ _ _ => false
  | .grant _ _ _ _ _ _ => false
  | .purge _ _ _ => false
  | .purgeAnswer _ _ _ _ => false
  | .setfwd _ _ _ _ => false
  | .setback _ _ _ _ => false
  | .ack _ _ _ => false
  | .notHead _ _ => false
  | .stale _ _ _ => false
  | .retry _ _ _ => false
  | .retryResend _ => false
  | .hostReadShared _ _ => false
  | .hostReadExclusive _ _ => false
  | .hostWriteHalf _ _ _ => false
  | .hostReadNoCopy _ _ => false
  | .hostWriteback _ _ _ => false
  | .hostEvictNotice _ _ => false
  | .bisnpinvResponse _ _ _ _ => false
  | .bisnpdataResponse _ _ _ _ => false
  | .hostSnoopTimeout _ => false
  | .rdsharedData _ _ _ => false
  | .rdownGrant _ _ _ => false
  | .snpdata _ _ => false
  | .snpinv _ _ => false
  | .snpcur _ _ => false
  | .bar2Read _ => false
  | .bar2Write _ _ => false
  | .otgerNack _ => false
  | .migrate _ => false
  | .release _ => false
  | .migRqtailWrite _ _ => false
  | .migrationLineCopy _ _ _ => false
  | .migEpoch _ => false
  | .agentReport _ _ => false
  | .chainAnswerTimeout _ _ => false
  | .managerProbeTimeout _ => false
  | .dead _ _ => false
  | .scanDone _ _ => false
  | .resume _ => false
  | .ticketGrant _ _ => false
  | .engineStart _ => false
  | .engineLinePerform _ _ _ => false
  | .engineComplete _ => false
  | .rollcallComplete _ => false
  | .growGrant _ => false
  | .growWaitLimit _ => false
  | .growDeadlock _ => false
  | .teamRotation _ _ => false
  | .capabilityRevoke _ _ => false
  | .sealClear _ => false
  | .admissionRequest _ => false
  | .admissionResult _ => false
  | .iqTailWrite _ _ => false
  | .iqErrClear _ => false
  | .invS1Va _ => false
  | .invS1All _ => false
  | .invS2Ipa _ => false
  | .invS2All _ => false
  | .sync _ => false
  | .syncComplete _ => false
  | .lockRetry _ => false
  | .tileOpComplete _ => false
  | .reservationDispatch _ => false
  | .passComplete _ _ => false
  | .levelAging _ _ => false
  | .ringWaitResume _ => false
  | .streamCommand _ => false
  | .streamEnd _ => false
  | .hamperAtHome _ _ => false
  | .hamperResultReturn _ => false
  | .trapDelivery _ => false
  | .prgResponse _ _ _ => false
  | .priTimeout _ _ => false
  | .sqTailWrite _ _ _ => false
  | .sqErrClear _ _ => false
  | .launchDescriptor _ _ => false
  | .placement _ _ _ => false
  | .launchCompletion _ => false
  | .placementWaitLimit _ => false
  | .quantumExpiry => false
  | .preemptRequest _ _ => false
  | .drainDeadline _ => false
  | .freezeDeadline _ => false
  | .freezeQuiesced _ => false
  | .restore _ _ _ => false
  | .keyTransfer _ _ _ _ _ => false
  | .featMaskWrite _ _ => false
  | .flrVf _ => false
  | .flrPf => false
  | .linkLoss => false
  | .linkUp => false
  | .hlossThaw => false
  | .portTrainRetry _ => false
  | .portTakedown _ => false
  | .domEnWrite _ => false
  | .domFormedWrite _ => false
  | .powerWindow _ => false
  | .tempCritical _ => false
  | .mgmtFlr _ => false
  | .moduleReset => false
  | .readFaultLog => false
  | .dumpState => false
  | .recover _ => false
  | .spdmRequest _ => false
  | .pldmTelemetry => false
  | .pldmFirmwareUpdate _ => false
  | .firmwareHandover => false
  | .coldReset _ => false
  | .debugStateRequest _ _ _ => false
  | .deepSleepWake => false
  | .qrepDrain _ => false
  | .qrepDrainDone => false
  | .qrepRetest _ => false
  | .qrepRetestDone _ _ => false
  | .qrepReturn _ => false
  | .hbmRetireRequest _ => false
  | .hbmRetireCommit _ => false
  | .restripeDone => false
  | .registerWrite _ _ _ => false
  | .addB32 _ _ _ _ => true
  | .addB32Imm _ _ _ _ => true
  | .subB32 _ _ _ _ => true
  | .subB32Imm _ _ _ _ => true
  | .addSatI32 _ _ _ _ => true
  | .addSatN32 _ _ _ _ => true
  | .subSatI32 _ _ _ _ => true
  | .subSatN32 _ _ _ _ => true
  | .mulLoB32 _ _ _ _ => true
  | .mulHiI32 _ _ _ _ => true
  | .mulHiN32 _ _ _ _ => true
  | .mulWideI32 _ _ _ _ => true
  | .mulWideN32 _ _ _ _ => true
  | .divI32 _ _ _ _ => true
  | .divN32 _ _ _ _ => true
  | .remI32 _ _ _ _ => true
  | .remN32 _ _ _ _ => true
  | .minI32 _ _ _ _ => true
  | .maxI32 _ _ _ _ => true
  | .minN32 _ _ _ _ => true
  | .maxN32 _ _ _ _ => true
  | .shlB32 _ _ _ _ => true
  | .shrN32 _ _ _ _ => true
  | .shrI32 _ _ _ _ => true
  | .rotlB32 _ _ _ _ => true
  | .rotrB32 _ _ _ _ => true
  | .shlB32Imm _ _ _ _ => true
  | .shrN32Imm _ _ _ _ => true
  | .shrI32Imm _ _ _ _ => true
  | .rotlB32Imm _ _ _ _ => true
  | .rotrB32Imm _ _ _ _ => true
  | .popcB32 _ _ _ => true
  | .clzB32 _ _ _ => true
  | .ctzB32 _ _ _ => true
  | .brevB32 _ _ _ => true
  | .bfxN32 _ _ _ _ _ => true
  | .bfxI32 _ _ _ _ _ => true
  | .bfiB32 _ _ _ _ _ _ => true
  | .ternB32 _ _ _ _ _ _ => true
  | .andB32 _ _ _ _ => true
  | .orB32 _ _ _ _ => true
  | .xorB32 _ _ _ _ => true
  | .notB32 _ _ _ => true
  | .andB32Imm _ _ _ _ => true
  | .orB32Imm _ _ _ _ => true
  | .xorB32Imm _ _ _ _ => true
  | .movB32 _ _ _ => true
  | .movB32Imm _ _ _ _ => true
  | .addB64 _ _ _ _ => true
  | .subB64 _ _ _ _ => true
  | .mulLoB64 _ _ _ _ => true
  | .minI64 _ _ _ _ => true
  | .maxI64 _ _ _ _ => true
  | .minN64 _ _ _ _ => true
  | .maxN64 _ _ _ _ => true
  | .shlB64 _ _ _ _ => true
  | .shrN64 _ _ _ _ => true
  | .shrI64 _ _ _ _ => true
  | .movB64Imm _ _ _ => true
  | .smovB64 _ _ => true
  | .selB32 _ _ _ _ _ => true
  | .selB64 _ _ _ _ _ => true
  | .setpEqB32 _ _ _ => true
  | .setpNeB32 _ _ _ => true
  | .setpLtI32 _ _ _ => true
  | .setpLeI32 _ _ _ => true
  | .setpGtI32 _ _ _ => true
  | .setpGeI32 _ _ _ => true
  | .setpLtN32 _ _ _ => true
  | .setpLeN32 _ _ _ => true
  | .setpGtN32 _ _ _ => true
  | .setpGeN32 _ _ _ => true
  | .setpEqB64 _ _ _ => true
  | .setpNeB64 _ _ _ => true
  | .setpLtI64 _ _ _ => true
  | .setpLeI64 _ _ _ => true
  | .setpLtN64 _ _ _ => true
  | .setpLeN64 _ _ _ => true
  | .setpEqB32Imm _ _ _ => true
  | .setpNeB32Imm _ _ _ => true
  | .setpLtI32Imm _ _ _ => true
  | .setpLeI32Imm _ _ _ => true
  | .setpGtI32Imm _ _ _ => true
  | .setpGeI32Imm _ _ _ => true
  | .andPred _ _ _ => true
  | .orPred _ _ _ => true
  | .xorPred _ _ _ => true
  | .notPred _ _ => true
  | .ptrAdd _ _ _ _ _ _ => true
  | .ptrDiff _ _ _ _ => true
  | .ptrAddImm _ _ _ _ => true
  | .bra _ _ _ => true
  | .jmp _ => true
  | .call _ _ => true
  | .callInd _ _ => true
  | .ret _ => true
  | .conv => true
  | .exit => true
  | .loop _ _ _ => true
  | .chkb _ _ _ => true
  | .chkland _ => true
  | .chkaln _ _ => true
  | .addF32 _ _ _ _ _ => true
  | .subF32 _ _ _ _ _ => true
  | .mulF32 _ _ _ _ _ => true
  | .fmaF32 _ _ _ _ _ => true
  | .addF16x2 _ _ _ _ _ => true
  | .mulF16x2 _ _ _ _ _ => true
  | .fmaF16x2 _ _ _ _ _ => true
  | .addBf16x2 _ _ _ _ _ => true
  | .mulBf16x2 _ _ _ _ _ => true
  | .fmaBf16x2 _ _ _ _ _ => true
  | .minF32 _ _ _ _ => true
  | .maxF32 _ _ _ _ => true
  | .absF32 _ _ _ => true
  | .negF32 _ _ _ => true
  | .rcpApproxF32 _ _ _ => true
  | .rsqrtApproxF32 _ _ _ => true
  | .sqrtApproxF32 _ _ _ => true
  | .exp2ApproxF32 _ _ _ => true
  | .log2ApproxF32 _ _ _ => true
  | .sinApproxF32 _ _ _ => true
  | .cosApproxF32 _ _ _ => true
  | .tanhApproxF32 _ _ _ => true
  | .sqrtF32 _ _ _ _ => true
  | .setpEqF32 _ _ _ => true
  | .setpNeF32 _ _ _ => true
  | .setpLtF32 _ _ _ => true
  | .setpLeF32 _ _ _ => true
  | .setpGtF32 _ _ _ => true
  | .setpGeF32 _ _ _ => true
  | .setpNanF32 _ _ _ => true
  | .cvtF32I32 _ _ _ _ => true
  | .cvtF32N32 _ _ _ _ => true
  | .cvtI32F32 _ _ _ _ => true
  | .cvtN32F32 _ _ _ _ => true
  | .cvtF16F32 _ _ _ _ => true
  | .cvtBf16F32 _ _ _ _ => true
  | .cvtF32F16 _ _ _ => true
  | .cvtF32Bf16 _ _ _ => true
  | .cvtSatF8aF32 _ _ _ => true
  | .cvtNanF8aF32 _ _ _ => true
  | .cvtSatF8bF32 _ _ _ => true
  | .cvtNanF8bF32 _ _ _ => true
  | .cvtSatF4F32 _ _ _ => true
  | .cvtF32F8a _ _ _ => true
  | .cvtF32F8b _ _ _ => true
  | .cvtF32F4 _ _ _ _ => true
  | .cvtSatI8I32 _ _ _ => true
  | .cvtI32I8 _ _ _ => true
  | .quantQ8F32 _ _ _ _ => true
  | .quantQ4F32 _ _ _ _ => true
  | .dequantF32Q8 _ _ _ _ => true
  | .dequantF32Q4 _ _ _ _ => true
  | .packB16 _ _ _ _ => true
  | .packB8 _ _ _ _ => true
  | .packB4 _ _ _ _ => true
  | .unpackB16 _ _ _ _ => true
  | .unpackB8 _ _ _ _ => true
  | .unpackB4 _ _ _ _ => true
  | .xlPick _ _ _ _ => true
  | .xlRol _ _ _ _ => true
  | .xlRor _ _ _ _ => true
  | .xlBfly _ _ _ _ => true
  | .redAddB32 _ _ _ => true
  | .redMinI32 _ _ _ => true
  | .redMaxI32 _ _ _ => true
  | .redMinN32 _ _ _ => true
  | .redMaxN32 _ _ _ => true
  | .redAndB32 _ _ _ => true
  | .redOrB32 _ _ _ => true
  | .redXorB32 _ _ _ => true
  | .redAddF32 _ _ _ => true
  | .redMinF32 _ _ _ => true
  | .redMaxF32 _ _ _ => true
  | .minidxN32 _ _ _ => true
  | .minidxI32 _ _ _ => true
  | .minidxF32 _ _ _ => true
  | .scanInclAddB32 _ _ _ => true
  | .scanExclAddB32 _ _ _ => true
  | .scanInclMaxI32 _ _ _ => true
  | .scanInclMinI32 _ _ _ => true
  | .pollAll _ _ => true
  | .pollAny _ _ => true
  | .pollMask _ _ _ => true
  | .pollSame _ _ => true
  | .ldN8 _ _ _ _ => true
  | .ldI8 _ _ _ _ => true
  | .ldN16 _ _ _ _ => true
  | .ldI16 _ _ _ _ => true
  | .ldB32 _ _ _ _ => true
  | .ldB64 _ _ _ _ => true
  | .ldB128 _ _ _ _ => true
  | .stB8 _ _ _ _ => true
  | .stB16 _ _ _ _ => true
  | .stB32 _ _ _ _ => true
  | .stB64 _ _ _ _ => true
  | .stB128 _ _ _ _ => true
  | .ldsB32 _ _ _ _ => true
  | .ldsB64 _ _ _ _ => true
  | .ldsB128 _ _ _ _ => true
  | .stsB32 _ _ _ _ => true
  | .stsB64 _ _ _ _ => true
  | .stsB128 _ _ _ _ => true
  | .stashMap _ _ _ _ => true
  | .stashUnmap _ _ => true
  | .stashFlush _ _ => true
  | .flaskCreate _ _ _ _ => true
  | .flaskSeal _ _ _ => true
  | .flaskReopen _ _ _ => true
  | .flaskRetire _ _ _ => true
  | .flaskAcq _ _ _ => true
  | .flaskRel _ _ _ => true
  | .atomAddB32 _ _ _ _ => true
  | .atomAddB64 _ _ _ _ => true
  | .atomMinI32 _ _ _ _ => true
  | .atomMaxI32 _ _ _ _ => true
  | .atomMinN32 _ _ _ _ => true
  | .atomMaxN32 _ _ _ _ => true
  | .atomAndB32 _ _ _ _ => true
  | .atomOrB32 _ _ _ _ => true
  | .atomXorB32 _ _ _ _ => true
  | .atomXchgB32 _ _ _ _ => true
  | .atomXchgB64 _ _ _ _ => true
  | .atomCasB32 _ _ _ _ => true
  | .atomCasB64 _ _ _ _ => true
  | .atomAddF32 _ _ _ _ => true
  | .atomMinI64 _ _ _ _ => true
  | .atomMaxI64 _ _ _ _ => true
  | .fence _ _ _ => true
  | .barGroup => true
  | .barTeam => true
  | .barRole _ => true
  | .barRollcall => true
  | .copy _ _ _ => true
  | .gather _ _ _ => true
  | .coll _ _ _ => true
  | .engWait _ _ => true
  | .lockAcq _ _ => true
  | .lockRel _ _ => true
  | .talloc _ _ _ => true
  | .tfree _ => true
  | .tgiveRing _ _ => true
  | .tgiveRole _ _ => true
  | .ttakeRing _ _ _ => true
  | .ttakeRole _ _ => true
  | .tld _ _ _ _ => true
  | .tst _ _ _ _ => true
  | .tcvt _ _ _ _ => true
  | .tspread _ _ _ _ => true
  | .ttag _ _ _ _ _ _ => true
  | .ttagXval _ _ => true
  | .mxAcq => true
  | .mxRel => true
  | .mxPass _ _ _ _ _ => true
  | .mxQpass _ _ _ _ _ _ => true
  | .mxBpass _ _ _ _ _ => true
  | .mxStream _ _ _ => true
  | .mxDrainMem _ _ _ => true
  | .mxDrainTile _ _ _ _ _ => true
  | .mxDrainColl _ _ _ _ _ => true
  | .mxEpi _ _ => true
  | .mxZero _ _ => true
  | .hmPut _ _ _ _ _ => true
  | .hmRput _ _ _ _ => true
  | .hmGet _ _ => true
  | .hmDone _ => true
  | .hmKscfgOpen _ _ _ _ _ => true
  | .hmKscfgQuery _ _ _ => true
  | .hmKscfgClose _ _ _ => true
  | .hmGdrain _ _ _ _ => true
  | .hmGreload _ _ _ _ => true
  | .trap _ => true
  | .rttResume => true
  | .rttEnd => true
  | .rdsys _ _ => true
  | .wrsys _ _ => true
  | .warnClr _ => true
  | .brk _ => true
  | .ctrRd _ _ => true
  | .ctrCfg _ _ => true
  | .yield => true
  | .vregGrow _ => true
  | .vregShrink _ => true
  | .schedHint _ _ _ _ => true
  | .pref _ _ _ _ _ => true
  | .evictHint _ _ _ _ _ => true
  | .unimplementedHint _ _ _ _ _ _ => true
  | .portTrained _ _ _ => false
  | .flitCheckFailure _ => false
  | .agentReadmission _ => false
  | .deadAcknowledgement _ _ => false
  | .hostDeathNotice _ => false
  | .deepSleepEntry => false
  | .debuggerResume _ => false
  | .linkDownHandshake => false

end Sys2Proof
end

