-- ==== Sys2Proof/Decode.lean ====
section
/-! DEFINITION. The decoder: from the words of a clause of one engine class to an instruction, or to
a named rejection (R185 to R201). After it the encoder, written from the same layouts. -/

namespace Sys2Proof

/-- First-word format A (R185), which AI, AP, AS, L and M share. -/
structure FmtA where
  op : BitVec 8
  d : BitVec 7
  w : BitVec 1
  a : BitVec 8
  b : BitVec 8
  deriving DecidableEq, Repr

/-- First-word format B (R185). -/
structure FmtB where
  op : BitVec 8
  p : BitVec 3
  n : BitVec 1
  o : BitVec 20
  deriving DecidableEq, Repr

/-- First-word format C (R185). -/
structure FmtC where
  op : BitVec 8
  l : BitVec 7
  o : BitVec 17
  deriving DecidableEq, Repr

/-- First-word format H (R185). -/
structure FmtH where
  op : BitVec 8
  h : BitVec 5
  a : BitVec 5
  b : BitVec 5
  n : BitVec 8
  f : BitVec 1
  deriving DecidableEq, Repr

/-- First-word format HM (R185). -/
structure FmtHM where
  op : BitVec 8
  h : BitVec 5
  z : BitVec 3
  a : BitVec 8
  b : BitVec 8
  deriving DecidableEq, Repr

/-- First-word format S (R185). -/
structure FmtS where
  op : BitVec 8
  d : BitVec 8
  s : BitVec 12
  z : BitVec 4
  deriving DecidableEq, Repr

/-- Bits 31 to 24 of a first word: the opcode (R185). -/
def opOf (w : BitVec 32) : BitVec 8 := w.extractLsb' 24 8

/-- Reads the fields of format A. -/
def splitA (w : BitVec 32) : FmtA :=
  ⟨w.extractLsb' 24 8, w.extractLsb' 17 7, w.extractLsb' 16 1, w.extractLsb' 8 8, w.extractLsb' 0 8⟩

/-- Lays the fields of format A into a word. -/
def joinA (op : BitVec 8) (d : BitVec 7) (w : BitVec 1) (a : BitVec 8) (b : BitVec 8) : BitVec 32 :=
  op ++ d ++ w ++ a ++ b

/-- Reads the fields of format B. -/
def splitB (w : BitVec 32) : FmtB :=
  ⟨w.extractLsb' 24 8, w.extractLsb' 21 3, w.extractLsb' 20 1, w.extractLsb' 0 20⟩

/-- Lays the fields of format B into a word. -/
def joinB (op : BitVec 8) (p : BitVec 3) (n : BitVec 1) (o : BitVec 20) : BitVec 32 :=
  op ++ p ++ n ++ o

/-- Reads the fields of format C. -/
def splitC (w : BitVec 32) : FmtC :=
  ⟨w.extractLsb' 24 8, w.extractLsb' 17 7, w.extractLsb' 0 17⟩

/-- Lays the fields of format C into a word. -/
def joinC (op : BitVec 8) (l : BitVec 7) (o : BitVec 17) : BitVec 32 :=
  op ++ l ++ o

/-- Reads the fields of format H. -/
def splitH (w : BitVec 32) : FmtH :=
  ⟨w.extractLsb' 24 8, w.extractLsb' 19 5, w.extractLsb' 14 5, w.extractLsb' 9 5, w.extractLsb' 1 8, w.extractLsb' 0 1⟩

/-- Lays the fields of format H into a word. -/
def joinH (op : BitVec 8) (h : BitVec 5) (a : BitVec 5) (b : BitVec 5) (n : BitVec 8) (f : BitVec 1) : BitVec 32 :=
  op ++ h ++ a ++ b ++ n ++ f

/-- Reads the fields of format HM. -/
def splitHM (w : BitVec 32) : FmtHM :=
  ⟨w.extractLsb' 24 8, w.extractLsb' 19 5, w.extractLsb' 16 3, w.extractLsb' 8 8, w.extractLsb' 0 8⟩

/-- Lays the fields of format HM into a word. -/
def joinHM (op : BitVec 8) (h : BitVec 5) (z : BitVec 3) (a : BitVec 8) (b : BitVec 8) : BitVec 32 :=
  op ++ h ++ z ++ a ++ b

/-- Reads the fields of format S. -/
def splitS (w : BitVec 32) : FmtS :=
  ⟨w.extractLsb' 24 8, w.extractLsb' 16 8, w.extractLsb' 4 12, w.extractLsb' 0 4⟩

/-- Lays the fields of format S into a word. -/
def joinS (op : BitVec 8) (d : BitVec 8) (s : BitVec 12) (z : BitVec 4) : BitVec 32 :=
  op ++ d ++ s ++ z

/-- Reads an X-M word (R186). -/
def splitXM (w : BitVec 32) : XM :=
  ⟨w.extractLsb' 30 2, w.extractLsb' 27 3, w.extractLsb' 24 3, w.extractLsb' 20 4, w.extractLsb' 0 20⟩

/-- Lays out an X-M word (R186). -/
def joinXM (x : XM) : BitVec 32 :=
  x.ret ++ x.scope ++ x.order ++ x.mode ++ x.off

/-- The reserved half of an X-S word (R186). -/
def xsHigh (w : BitVec 32) : BitVec 16 := w.extractLsb' 16 16
/-- F2 of an X-S word. -/
def xsF2 (w : BitVec 32) : BitVec 8 := w.extractLsb' 8 8
/-- F1 of an X-S word. -/
def xsF1 (w : BitVec 32) : BitVec 8 := w.extractLsb' 0 8

/-- Lays out an X-S word (R186). -/
def joinXS (f2 f1 : BitVec 8) : BitVec 32 := 0#16 ++ f2 ++ f1

/-- Reads an X-N word (R186), or nothing when its reserved bits are set. -/
def splitXN (w : BitVec 32) : Option LoopInc :=
  if w.extractLsb' 16 6 == 0#6 then
    some ⟨w.extractLsb' 28 4, w.extractLsb' 24 4, w.extractLsb' 22 2, w.extractLsb' 0 16⟩
  else none

/-- Lays out an X-N word (R186). -/
def joinXN (n : LoopInc) : BitVec 32 := n.cl ++ n.wd ++ n.fld ++ 0#6 ++ n.step

/-- An instruction and the words that follow it, or the rejection. -/
abbrev Decoded := Except Reject (Instr × List (BitVec 32))

/-- Accepts an instruction whose fixed fields hold their values (ST-005), and whose pairs are even and
predicate numbers legal (ST-006). -/
def word1 (fixed legal : Bool) (i : Instr) (rest : List (BitVec 32)) : Decoded :=
  if !fixed then .error .mustBeZero else if !legal then .error .illegalOperand else .ok (i, rest)

/-- Takes the extension word that a two-word instruction needs (ST-002). -/
def word2 (rest : List (BitVec 32)) (k : BitVec 32 → List (BitVec 32) → Decoded) : Decoded :=
  match rest with
  | [] => .error .wordCount
  | x :: rest => k x rest

/-- Reads the increment words of a loop (R194). -/
def takeIncs : Nat → List (BitVec 32) → Option (List LoopInc × List (BitVec 32))
  | 0, ws => some ([], ws)
  | _ + 1, [] => none
  | n + 1, w :: ws =>
    match splitXN w, takeIncs n ws with
    | some i, some (is, rest) => some (i :: is, rest)
    | _, _ => none

/-- `loop`, with its increment words (R194, format L). -/
noncomputable def decodeLoop (w : BitVec 32) (rest : List (BitVec 32)) : Decoded :=
  if w.extractLsb' 16 1 == 0#1 && w.extractLsb' 0 8 == 0#8 then
    if rest.length < (w.extractLsb' 17 3).toNat then .error .wordCount
    else
      match takeIncs (w.extractLsb' 17 3).toNat rest with
      | some (is, rest) => .ok (.loop (w.extractLsb' 20 4) (w.extractLsb' 8 8) is, rest)
      | none => .error .mustBeZero
  else .error .mustBeZero

/-- Class 0, integer and control (R195). -/
noncomputable def decode0 (w : BitVec 32) (rest : List (BitVec 32)) : Decoded :=
  match (opOf w).toNat with
  | 0x00 => let f := splitA w; word1 (true) (true) (.addB32 f.d f.w f.a f.b) rest
  | 0x01 => let f := splitA w; word1 (true) (true) (.addB32Imm f.d f.w f.a f.b) rest
  | 0x02 => let f := splitA w; word1 (true) (true) (.subB32 f.d f.w f.a f.b) rest
  | 0x03 => let f := splitA w; word1 (true) (true) (.subB32Imm f.d f.w f.a f.b) rest
  | 0x04 => let f := splitA w; word1 (true) (true) (.addSatI32 f.d f.w f.a f.b) rest
  | 0x05 => let f := splitA w; word1 (true) (true) (.addSatN32 f.d f.w f.a f.b) rest
  | 0x06 => let f := splitA w; word1 (true) (true) (.subSatI32 f.d f.w f.a f.b) rest
  | 0x07 => let f := splitA w; word1 (true) (true) (.subSatN32 f.d f.w f.a f.b) rest
  | 0x08 => let f := splitA w; word1 (true) (true) (.mulLoB32 f.d f.w f.a f.b) rest
  | 0x09 => let f := splitA w; word1 (true) (true) (.mulHiI32 f.d f.w f.a f.b) rest
  | 0x0A => let f := splitA w; word1 (true) (true) (.mulHiN32 f.d f.w f.a f.b) rest
  | 0x0B => let f := splitA w; word1 (true) ((f.d.extractLsb' 0 1) == 0#1) (.mulWideI32 (f.d.extractLsb' 1 6) f.w f.a f.b) rest
  | 0x0C => let f := splitA w; word1 (true) ((f.d.extractLsb' 0 1) == 0#1) (.mulWideN32 (f.d.extractLsb' 1 6) f.w f.a f.b) rest
  | 0x0D => let f := splitA w; word1 (true) (true) (.divI32 f.d f.w f.a f.b) rest
  | 0x0E => let f := splitA w; word1 (true) (true) (.divN32 f.d f.w f.a f.b) rest
  | 0x0F => let f := splitA w; word1 (true) (true) (.remI32 f.d f.w f.a f.b) rest
  | 0x10 => let f := splitA w; word1 (true) (true) (.remN32 f.d f.w f.a f.b) rest
  | 0x11 => let f := splitA w; word1 (true) (true) (.minI32 f.d f.w f.a f.b) rest
  | 0x12 => let f := splitA w; word1 (true) (true) (.maxI32 f.d f.w f.a f.b) rest
  | 0x13 => let f := splitA w; word1 (true) (true) (.minN32 f.d f.w f.a f.b) rest
  | 0x14 => let f := splitA w; word1 (true) (true) (.maxN32 f.d f.w f.a f.b) rest
  | 0x15 => let f := splitA w; word1 (true) (true) (.shlB32 f.d f.w f.a f.b) rest
  | 0x16 => let f := splitA w; word1 (true) (true) (.shrN32 f.d f.w f.a f.b) rest
  | 0x17 => let f := splitA w; word1 (true) (true) (.shrI32 f.d f.w f.a f.b) rest
  | 0x18 => let f := splitA w; word1 (true) (true) (.rotlB32 f.d f.w f.a f.b) rest
  | 0x19 => let f := splitA w; word1 (true) (true) (.rotrB32 f.d f.w f.a f.b) rest
  | 0x1A => let f := splitA w; word1 ((f.b.extractLsb' 5 3) == 0#3) (true) (.shlB32Imm f.d f.w f.a (f.b.extractLsb' 0 5)) rest
  | 0x1B => let f := splitA w; word1 ((f.b.extractLsb' 5 3) == 0#3) (true) (.shrN32Imm f.d f.w f.a (f.b.extractLsb' 0 5)) rest
  | 0x1C => let f := splitA w; word1 ((f.b.extractLsb' 5 3) == 0#3) (true) (.shrI32Imm f.d f.w f.a (f.b.extractLsb' 0 5)) rest
  | 0x1D => let f := splitA w; word1 ((f.b.extractLsb' 5 3) == 0#3) (true) (.rotlB32Imm f.d f.w f.a (f.b.extractLsb' 0 5)) rest
  | 0x1E => let f := splitA w; word1 ((f.b.extractLsb' 5 3) == 0#3) (true) (.rotrB32Imm f.d f.w f.a (f.b.extractLsb' 0 5)) rest
  | 0x1F => let f := splitA w; word1 (f.b == 132#8) (true) (.popcB32 f.d f.w f.a) rest
  | 0x20 => let f := splitA w; word1 (f.b == 132#8) (true) (.clzB32 f.d f.w f.a) rest
  | 0x21 => let f := splitA w; word1 (f.b == 132#8) (true) (.ctzB32 f.d f.w f.a) rest
  | 0x22 => let f := splitA w; word1 (f.b == 132#8) (true) (.brevB32 f.d f.w f.a) rest
  | 0x23 => let f := splitA w; word2 rest fun x rest => word1 (f.b == 132#8 && xsHigh x == 0#16 && (xsF2 x).extractLsb' 5 3 == 0#3 && (xsF1 x).extractLsb' 5 3 == 0#3) (true) (.bfxN32 f.d f.w f.a ((xsF1 x).extractLsb' 0 5) ((xsF2 x).extractLsb' 0 5)) rest
  | 0x24 => let f := splitA w; word2 rest fun x rest => word1 (f.b == 132#8 && xsHigh x == 0#16 && (xsF2 x).extractLsb' 5 3 == 0#3 && (xsF1 x).extractLsb' 5 3 == 0#3) (true) (.bfxI32 f.d f.w f.a ((xsF1 x).extractLsb' 0 5) ((xsF2 x).extractLsb' 0 5)) rest
  | 0x25 => let f := splitA w; word2 rest fun x rest => word1 (xsHigh x == 0#16 && (xsF2 x).extractLsb' 5 3 == 0#3 && (xsF1 x).extractLsb' 5 3 == 0#3) (true) (.bfiB32 f.d f.w f.a f.b ((xsF1 x).extractLsb' 0 5) ((xsF2 x).extractLsb' 0 5)) rest
  | 0x26 => let f := splitA w; word2 rest fun x rest => word1 (xsHigh x == 0#16) (true) (.ternB32 f.d f.w f.a f.b (xsF2 x) (xsF1 x)) rest
  | 0x27 => let f := splitA w; word1 (true) (true) (.andB32 f.d f.w f.a f.b) rest
  | 0x28 => let f := splitA w; word1 (true) (true) (.orB32 f.d f.w f.a f.b) rest
  | 0x29 => let f := splitA w; word1 (true) (true) (.xorB32 f.d f.w f.a f.b) rest
  | 0x2A => let f := splitA w; word1 (f.b == 132#8) (true) (.notB32 f.d f.w f.a) rest
  | 0x2B => let f := splitA w; word1 (true) (true) (.andB32Imm f.d f.w f.a f.b) rest
  | 0x2C => let f := splitA w; word1 (true) (true) (.orB32Imm f.d f.w f.a f.b) rest
  | 0x2D => let f := splitA w; word1 (true) (true) (.xorB32Imm f.d f.w f.a f.b) rest
  | 0x2E => let f := splitA w; word1 (f.b == 132#8) (true) (.movB32 f.d f.w f.a) rest
  | 0x2F => let f := splitA w; word2 rest fun x rest => word1 (f.a == 132#8) (true) (.movB32Imm f.d f.w f.b x) rest
  | 0x30 => let f := splitA w; word1 (true) ((f.d.extractLsb' 0 1) == 0#1) (.addB64 (f.d.extractLsb' 1 6) f.w f.a f.b) rest
  | 0x31 => let f := splitA w; word1 (true) ((f.d.extractLsb' 0 1) == 0#1) (.subB64 (f.d.extractLsb' 1 6) f.w f.a f.b) rest
  | 0x32 => let f := splitA w; word1 (true) ((f.d.extractLsb' 0 1) == 0#1) (.mulLoB64 (f.d.extractLsb' 1 6) f.w f.a f.b) rest
  | 0x33 => let f := splitA w; word1 (true) ((f.d.extractLsb' 0 1) == 0#1) (.minI64 (f.d.extractLsb' 1 6) f.w f.a f.b) rest
  | 0x34 => let f := splitA w; word1 (true) ((f.d.extractLsb' 0 1) == 0#1) (.maxI64 (f.d.extractLsb' 1 6) f.w f.a f.b) rest
  | 0x35 => let f := splitA w; word1 (true) ((f.d.extractLsb' 0 1) == 0#1) (.minN64 (f.d.extractLsb' 1 6) f.w f.a f.b) rest
  | 0x36 => let f := splitA w; word1 (true) ((f.d.extractLsb' 0 1) == 0#1) (.maxN64 (f.d.extractLsb' 1 6) f.w f.a f.b) rest
  | 0x37 => let f := splitA w; word1 (true) ((f.d.extractLsb' 0 1) == 0#1) (.shlB64 (f.d.extractLsb' 1 6) f.w f.a f.b) rest
  | 0x38 => let f := splitA w; word1 (true) ((f.d.extractLsb' 0 1) == 0#1) (.shrN64 (f.d.extractLsb' 1 6) f.w f.a f.b) rest
  | 0x39 => let f := splitA w; word1 (true) ((f.d.extractLsb' 0 1) == 0#1) (.shrI64 (f.d.extractLsb' 1 6) f.w f.a f.b) rest
  | 0x3A => let f := splitA w; word2 rest fun x rest => word1 (f.a == 132#8 && f.b == 132#8) ((f.d.extractLsb' 0 1) == 0#1) (.movB64Imm (f.d.extractLsb' 1 6) f.w x) rest
  | 0x3B => let f := splitA w; word1 ((f.d.extractLsb' 6 1) == 0#1 && f.w == 0#1 && f.b == 132#8) (true) (.smovB64 (f.d.extractLsb' 0 6) f.a) rest
  | 0x3C => let f := splitA w; word2 rest fun x rest => word1 (xsHigh x == 0#16 && xsF2 x == 0#8) ((xsF1 x).extractLsb' 3 5 == 0#5) (.selB32 f.d f.w f.a f.b ((xsF1 x).extractLsb' 0 3)) rest
  | 0x3D => let f := splitA w; word2 rest fun x rest => word1 (xsHigh x == 0#16 && xsF2 x == 0#8) ((f.d.extractLsb' 0 1) == 0#1 && (xsF1 x).extractLsb' 3 5 == 0#5) (.selB64 (f.d.extractLsb' 1 6) f.w f.a f.b ((xsF1 x).extractLsb' 0 3)) rest
  | 0x40 => let f := splitA w; word1 ((f.d.extractLsb' 3 4) == 0#4 && f.w == 0#1) (true) (.setpEqB32 (f.d.extractLsb' 0 3) f.a f.b) rest
  | 0x41 => let f := splitA w; word1 ((f.d.extractLsb' 3 4) == 0#4 && f.w == 0#1) (true) (.setpNeB32 (f.d.extractLsb' 0 3) f.a f.b) rest
  | 0x42 => let f := splitA w; word1 ((f.d.extractLsb' 3 4) == 0#4 && f.w == 0#1) (true) (.setpLtI32 (f.d.extractLsb' 0 3) f.a f.b) rest
  | 0x43 => let f := splitA w; word1 ((f.d.extractLsb' 3 4) == 0#4 && f.w == 0#1) (true) (.setpLeI32 (f.d.extractLsb' 0 3) f.a f.b) rest
  | 0x44 => let f := splitA w; word1 ((f.d.extractLsb' 3 4) == 0#4 && f.w == 0#1) (true) (.setpGtI32 (f.d.extractLsb' 0 3) f.a f.b) rest
  | 0x45 => let f := splitA w; word1 ((f.d.extractLsb' 3 4) == 0#4 && f.w == 0#1) (true) (.setpGeI32 (f.d.extractLsb' 0 3) f.a f.b) rest
  | 0x46 => let f := splitA w; word1 ((f.d.extractLsb' 3 4) == 0#4 && f.w == 0#1) (true) (.setpLtN32 (f.d.extractLsb' 0 3) f.a f.b) rest
  | 0x47 => let f := splitA w; word1 ((f.d.extractLsb' 3 4) == 0#4 && f.w == 0#1) (true) (.setpLeN32 (f.d.extractLsb' 0 3) f.a f.b) rest
  | 0x48 => let f := splitA w; word1 ((f.d.extractLsb' 3 4) == 0#4 && f.w == 0#1) (true) (.setpGtN32 (f.d.extractLsb' 0 3) f.a f.b) rest
  | 0x49 => let f := splitA w; word1 ((f.d.extractLsb' 3 4) == 0#4 && f.w == 0#1) (true) (.setpGeN32 (f.d.extractLsb' 0 3) f.a f.b) rest
  | 0x4A => let f := splitA w; word1 ((f.d.extractLsb' 3 4) == 0#4 && f.w == 0#1) (true) (.setpEqB64 (f.d.extractLsb' 0 3) f.a f.b) rest
  | 0x4B => let f := splitA w; word1 ((f.d.extractLsb' 3 4) == 0#4 && f.w == 0#1) (true) (.setpNeB64 (f.d.extractLsb' 0 3) f.a f.b) rest
  | 0x4C => let f := splitA w; word1 ((f.d.extractLsb' 3 4) == 0#4 && f.w == 0#1) (true) (.setpLtI64 (f.d.extractLsb' 0 3) f.a f.b) rest
  | 0x4D => let f := splitA w; word1 ((f.d.extractLsb' 3 4) == 0#4 && f.w == 0#1) (true) (.setpLeI64 (f.d.extractLsb' 0 3) f.a f.b) rest
  | 0x4E => let f := splitA w; word1 ((f.d.extractLsb' 3 4) == 0#4 && f.w == 0#1) (true) (.setpLtN64 (f.d.extractLsb' 0 3) f.a f.b) rest
  | 0x4F => let f := splitA w; word1 ((f.d.extractLsb' 3 4) == 0#4 && f.w == 0#1) (true) (.setpLeN64 (f.d.extractLsb' 0 3) f.a f.b) rest
  | 0x50 => let f := splitA w; word1 ((f.d.extractLsb' 3 4) == 0#4 && f.w == 0#1) (true) (.setpEqB32Imm (f.d.extractLsb' 0 3) f.a f.b) rest
  | 0x51 => let f := splitA w; word1 ((f.d.extractLsb' 3 4) == 0#4 && f.w == 0#1) (true) (.setpNeB32Imm (f.d.extractLsb' 0 3) f.a f.b) rest
  | 0x52 => let f := splitA w; word1 ((f.d.extractLsb' 3 4) == 0#4 && f.w == 0#1) (true) (.setpLtI32Imm (f.d.extractLsb' 0 3) f.a f.b) rest
  | 0x53 => let f := splitA w; word1 ((f.d.extractLsb' 3 4) == 0#4 && f.w == 0#1) (true) (.setpLeI32Imm (f.d.extractLsb' 0 3) f.a f.b) rest
  | 0x54 => let f := splitA w; word1 ((f.d.extractLsb' 3 4) == 0#4 && f.w == 0#1) (true) (.setpGtI32Imm (f.d.extractLsb' 0 3) f.a f.b) rest
  | 0x55 => let f := splitA w; word1 ((f.d.extractLsb' 3 4) == 0#4 && f.w == 0#1) (true) (.setpGeI32Imm (f.d.extractLsb' 0 3) f.a f.b) rest
  | 0x56 => let f := splitA w; word1 ((f.d.extractLsb' 3 4) == 0#4 && f.w == 0#1) ((f.a.extractLsb' 3 5) == 0#5 && (f.b.extractLsb' 3 5) == 0#5) (.andPred (f.d.extractLsb' 0 3) (f.a.extractLsb' 0 3) (f.b.extractLsb' 0 3)) rest
  | 0x57 => let f := splitA w; word1 ((f.d.extractLsb' 3 4) == 0#4 && f.w == 0#1) ((f.a.extractLsb' 3 5) == 0#5 && (f.b.extractLsb' 3 5) == 0#5) (.orPred (f.d.extractLsb' 0 3) (f.a.extractLsb' 0 3) (f.b.extractLsb' 0 3)) rest
  | 0x58 => let f := splitA w; word1 ((f.d.extractLsb' 3 4) == 0#4 && f.w == 0#1) ((f.a.extractLsb' 3 5) == 0#5 && (f.b.extractLsb' 3 5) == 0#5) (.xorPred (f.d.extractLsb' 0 3) (f.a.extractLsb' 0 3) (f.b.extractLsb' 0 3)) rest
  | 0x59 => let f := splitA w; word1 ((f.d.extractLsb' 3 4) == 0#4 && f.w == 0#1 && f.b == 0#8) ((f.a.extractLsb' 3 5) == 0#5) (.notPred (f.d.extractLsb' 0 3) (f.a.extractLsb' 0 3)) rest
  | 0x60 => let f := splitA w; word2 rest fun x rest => word1 (xsHigh x == 0#16 && (xsF2 x).extractLsb' 2 6 == 0#6 && (xsF1 x).extractLsb' 3 5 == 0#5) ((f.d.extractLsb' 0 1) == 0#1) (.ptrAdd (f.d.extractLsb' 1 6) f.w f.a f.b ((xsF1 x).extractLsb' 0 3) ((xsF2 x).extractLsb' 0 2)) rest
  | 0x61 => let f := splitA w; word1 (true) ((f.d.extractLsb' 0 1) == 0#1) (.ptrDiff (f.d.extractLsb' 1 6) f.w f.a f.b) rest
  | 0x62 => let f := splitA w; word2 rest fun x rest => word1 (f.b == 132#8) ((f.d.extractLsb' 0 1) == 0#1) (.ptrAddImm (f.d.extractLsb' 1 6) f.w f.a x) rest
  | 0x80 => let f := splitB w; word1 (true) (true) (.bra f.p f.n f.o) rest
  | 0x81 => let f := splitA w; word1 (f.d == 0#7 && f.w == 0#1 && f.b == 0#8) (true) (.jmp f.a) rest
  | 0x82 => let f := splitC w; word1 (true) ((f.l.extractLsb' 0 1) == 0#1) (.call (f.l.extractLsb' 1 6) f.o) rest
  | 0x83 => let f := splitA w; word1 (f.w == 0#1 && f.b == 0#8) ((f.d.extractLsb' 0 1) == 0#1) (.callInd (f.d.extractLsb' 1 6) f.a) rest
  | 0x84 => let f := splitA w; word1 (f.d == 0#7 && f.w == 0#1 && f.b == 0#8) (true) (.ret f.a) rest
  | 0x85 => let f := splitA w; word1 (f.d == 0#7 && f.w == 0#1 && f.a == 0#8 && f.b == 0#8) (true) (.conv) rest
  | 0x86 => let f := splitA w; word1 (f.d == 0#7 && f.w == 0#1 && f.a == 0#8 && f.b == 0#8) (true) (.exit) rest
  | 0x87 => decodeLoop w rest
  | 0x88 => let f := splitA w; word1 ((f.d.extractLsb' 1 6) == 0#6 && f.w == 0#1) (true) (.chkb (f.d.extractLsb' 0 1) f.a f.b) rest
  | 0x89 => let f := splitA w; word1 (f.d == 0#7 && f.w == 0#1 && f.b == 132#8) (true) (.chkland f.a) rest
  | 0x8A => let f := splitA w; word1 (f.d == 0#7 && f.w == 0#1 && (f.b.extractLsb' 3 5) == 0#5) (true) (.chkaln f.a (f.b.extractLsb' 0 3)) rest
  | _ => .error .reservedOpcode

/-- Class 1, vector (R196). -/
noncomputable def decode1 (w : BitVec 32) (rest : List (BitVec 32)) : Decoded :=
  match (opOf w).toNat with
  | 0x00 | 0x01 | 0x02 | 0x03 => let f := splitA w; word1 (true) (true) (.addF32 (f.op.extractLsb' 0 2) f.d f.w f.a f.b) rest
  | 0x04 | 0x05 | 0x06 | 0x07 => let f := splitA w; word1 (true) (true) (.subF32 (f.op.extractLsb' 0 2) f.d f.w f.a f.b) rest
  | 0x08 | 0x09 | 0x0A | 0x0B => let f := splitA w; word1 (true) (true) (.mulF32 (f.op.extractLsb' 0 2) f.d f.w f.a f.b) rest
  | 0x0C | 0x0D | 0x0E | 0x0F => let f := splitA w; word1 (true) (true) (.fmaF32 (f.op.extractLsb' 0 2) f.d f.w f.a f.b) rest
  | 0x10 | 0x11 => let f := splitA w; word1 (true) (true) (.addF16x2 (f.op.extractLsb' 0 1) f.d f.w f.a f.b) rest
  | 0x12 | 0x13 => let f := splitA w; word1 (true) (true) (.mulF16x2 (f.op.extractLsb' 0 1) f.d f.w f.a f.b) rest
  | 0x14 | 0x15 => let f := splitA w; word1 (true) (true) (.fmaF16x2 (f.op.extractLsb' 0 1) f.d f.w f.a f.b) rest
  | 0x16 | 0x17 => let f := splitA w; word1 (true) (true) (.addBf16x2 (f.op.extractLsb' 0 1) f.d f.w f.a f.b) rest
  | 0x18 | 0x19 => let f := splitA w; word1 (true) (true) (.mulBf16x2 (f.op.extractLsb' 0 1) f.d f.w f.a f.b) rest
  | 0x1A | 0x1B => let f := splitA w; word1 (true) (true) (.fmaBf16x2 (f.op.extractLsb' 0 1) f.d f.w f.a f.b) rest
  | 0x1C => let f := splitA w; word1 (true) (true) (.minF32 f.d f.w f.a f.b) rest
  | 0x1D => let f := splitA w; word1 (true) (true) (.maxF32 f.d f.w f.a f.b) rest
  | 0x1E => let f := splitA w; word1 (f.b == 132#8) (true) (.absF32 f.d f.w f.a) rest
  | 0x1F => let f := splitA w; word1 (f.b == 132#8) (true) (.negF32 f.d f.w f.a) rest
  | 0x20 => let f := splitA w; word1 (f.b == 132#8) (true) (.rcpApproxF32 f.d f.w f.a) rest
  | 0x21 => let f := splitA w; word1 (f.b == 132#8) (true) (.rsqrtApproxF32 f.d f.w f.a) rest
  | 0x22 => let f := splitA w; word1 (f.b == 132#8) (true) (.sqrtApproxF32 f.d f.w f.a) rest
  | 0x23 => let f := splitA w; word1 (f.b == 132#8) (true) (.exp2ApproxF32 f.d f.w f.a) rest
  | 0x24 => let f := splitA w; word1 (f.b == 132#8) (true) (.log2ApproxF32 f.d f.w f.a) rest
  | 0x25 => let f := splitA w; word1 (f.b == 132#8) (true) (.sinApproxF32 f.d f.w f.a) rest
  | 0x26 => let f := splitA w; word1 (f.b == 132#8) (true) (.cosApproxF32 f.d f.w f.a) rest
  | 0x27 => let f := splitA w; word1 (f.b == 132#8) (true) (.tanhApproxF32 f.d f.w f.a) rest
  | 0x28 | 0x29 | 0x2A | 0x2B => let f := splitA w; word1 (f.b == 132#8) (true) (.sqrtF32 (f.op.extractLsb' 0 2) f.d f.w f.a) rest
  | 0x30 => let f := splitA w; word1 ((f.d.extractLsb' 3 4) == 0#4 && f.w == 0#1) (true) (.setpEqF32 (f.d.extractLsb' 0 3) f.a f.b) rest
  | 0x31 => let f := splitA w; word1 ((f.d.extractLsb' 3 4) == 0#4 && f.w == 0#1) (true) (.setpNeF32 (f.d.extractLsb' 0 3) f.a f.b) rest
  | 0x32 => let f := splitA w; word1 ((f.d.extractLsb' 3 4) == 0#4 && f.w == 0#1) (true) (.setpLtF32 (f.d.extractLsb' 0 3) f.a f.b) rest
  | 0x33 => let f := splitA w; word1 ((f.d.extractLsb' 3 4) == 0#4 && f.w == 0#1) (true) (.setpLeF32 (f.d.extractLsb' 0 3) f.a f.b) rest
  | 0x34 => let f := splitA w; word1 ((f.d.extractLsb' 3 4) == 0#4 && f.w == 0#1) (true) (.setpGtF32 (f.d.extractLsb' 0 3) f.a f.b) rest
  | 0x35 => let f := splitA w; word1 ((f.d.extractLsb' 3 4) == 0#4 && f.w == 0#1) (true) (.setpGeF32 (f.d.extractLsb' 0 3) f.a f.b) rest
  | 0x36 => let f := splitA w; word1 ((f.d.extractLsb' 3 4) == 0#4 && f.w == 0#1) (true) (.setpNanF32 (f.d.extractLsb' 0 3) f.a f.b) rest
  | 0x40 | 0x41 | 0x42 | 0x43 => let f := splitA w; word1 (f.b == 132#8) (true) (.cvtF32I32 (f.op.extractLsb' 0 2) f.d f.w f.a) rest
  | 0x44 | 0x45 | 0x46 | 0x47 => let f := splitA w; word1 (f.b == 132#8) (true) (.cvtF32N32 (f.op.extractLsb' 0 2) f.d f.w f.a) rest
  | 0x48 | 0x49 | 0x4A | 0x4B => let f := splitA w; word1 (f.b == 132#8) (true) (.cvtI32F32 (f.op.extractLsb' 0 2) f.d f.w f.a) rest
  | 0x4C | 0x4D | 0x4E | 0x4F => let f := splitA w; word1 (f.b == 132#8) (true) (.cvtN32F32 (f.op.extractLsb' 0 2) f.d f.w f.a) rest
  | 0x50 | 0x51 => let f := splitA w; word1 (f.b == 132#8) (true) (.cvtF16F32 (f.op.extractLsb' 0 1) f.d f.w f.a) rest
  | 0x52 | 0x53 => let f := splitA w; word1 (f.b == 132#8) (true) (.cvtBf16F32 (f.op.extractLsb' 0 1) f.d f.w f.a) rest
  | 0x54 => let f := splitA w; word1 (f.b == 132#8) (true) (.cvtF32F16 f.d f.w f.a) rest
  | 0x55 => let f := splitA w; word1 (f.b == 132#8) (true) (.cvtF32Bf16 f.d f.w f.a) rest
  | 0x56 => let f := splitA w; word1 (f.b == 132#8) (true) (.cvtSatF8aF32 f.d f.w f.a) rest
  | 0x57 => let f := splitA w; word1 (f.b == 132#8) (true) (.cvtNanF8aF32 f.d f.w f.a) rest
  | 0x58 => let f := splitA w; word1 (f.b == 132#8) (true) (.cvtSatF8bF32 f.d f.w f.a) rest
  | 0x59 => let f := splitA w; word1 (f.b == 132#8) (true) (.cvtNanF8bF32 f.d f.w f.a) rest
  | 0x5A => let f := splitA w; word1 (f.b == 132#8) (true) (.cvtSatF4F32 f.d f.w f.a) rest
  | 0x5B => let f := splitA w; word1 (f.b == 132#8) (true) (.cvtF32F8a f.d f.w f.a) rest
  | 0x5C => let f := splitA w; word1 (f.b == 132#8) (true) (.cvtF32F8b f.d f.w f.a) rest
  | 0x5D => let f := splitA w; word1 (true) (true) (.cvtF32F4 f.d f.w f.a f.b) rest
  | 0x5E => let f := splitA w; word1 (f.b == 132#8) (true) (.cvtSatI8I32 f.d f.w f.a) rest
  | 0x5F => let f := splitA w; word1 (f.b == 132#8) (true) (.cvtI32I8 f.d f.w f.a) rest
  | 0x60 => let f := splitA w; word1 (true) (true) (.quantQ8F32 f.d f.w f.a f.b) rest
  | 0x61 => let f := splitA w; word1 (true) (true) (.quantQ4F32 f.d f.w f.a f.b) rest
  | 0x62 => let f := splitA w; word1 (true) (true) (.dequantF32Q8 f.d f.w f.a f.b) rest
  | 0x63 => let f := splitA w; word1 (true) (true) (.dequantF32Q4 f.d f.w f.a f.b) rest
  | 0x64 => let f := splitA w; word1 (true) (true) (.packB16 f.d f.w f.a f.b) rest
  | 0x65 => let f := splitA w; word1 ((f.b.extractLsb' 2 6) == 0#6) (true) (.packB8 f.d f.w f.a (f.b.extractLsb' 0 2)) rest
  | 0x66 => let f := splitA w; word1 ((f.b.extractLsb' 3 5) == 0#5) (true) (.packB4 f.d f.w f.a (f.b.extractLsb' 0 3)) rest
  | 0x67 => let f := splitA w; word1 ((f.b.extractLsb' 1 7) == 0#7) (true) (.unpackB16 f.d f.w f.a (f.b.extractLsb' 0 1)) rest
  | 0x68 => let f := splitA w; word1 ((f.b.extractLsb' 2 6) == 0#6) (true) (.unpackB8 f.d f.w f.a (f.b.extractLsb' 0 2)) rest
  | 0x69 => let f := splitA w; word1 ((f.b.extractLsb' 3 5) == 0#5) (true) (.unpackB4 f.d f.w f.a (f.b.extractLsb' 0 3)) rest
  | 0x80 => let f := splitA w; word1 (true) (true) (.xlPick f.d f.w f.a f.b) rest
  | 0x81 => let f := splitA w; word1 (true) (true) (.xlRol f.d f.w f.a f.b) rest
  | 0x82 => let f := splitA w; word1 (true) (true) (.xlRor f.d f.w f.a f.b) rest
  | 0x83 => let f := splitA w; word1 (true) (true) (.xlBfly f.d f.w f.a f.b) rest
  | 0x84 => let f := splitA w; word1 (f.b == 132#8) (true) (.redAddB32 f.d f.w f.a) rest
  | 0x85 => let f := splitA w; word1 (f.b == 132#8) (true) (.redMinI32 f.d f.w f.a) rest
  | 0x86 => let f := splitA w; word1 (f.b == 132#8) (true) (.redMaxI32 f.d f.w f.a) rest
  | 0x87 => let f := splitA w; word1 (f.b == 132#8) (true) (.redMinN32 f.d f.w f.a) rest
  | 0x88 => let f := splitA w; word1 (f.b == 132#8) (true) (.redMaxN32 f.d f.w f.a) rest
  | 0x89 => let f := splitA w; word1 (f.b == 132#8) (true) (.redAndB32 f.d f.w f.a) rest
  | 0x8A => let f := splitA w; word1 (f.b == 132#8) (true) (.redOrB32 f.d f.w f.a) rest
  | 0x8B => let f := splitA w; word1 (f.b == 132#8) (true) (.redXorB32 f.d f.w f.a) rest
  | 0x8C => let f := splitA w; word1 (f.b == 132#8) (true) (.redAddF32 f.d f.w f.a) rest
  | 0x8D => let f := splitA w; word1 (f.b == 132#8) (true) (.redMinF32 f.d f.w f.a) rest
  | 0x8E => let f := splitA w; word1 (f.b == 132#8) (true) (.redMaxF32 f.d f.w f.a) rest
  | 0x8F => let f := splitA w; word1 (f.b == 132#8) ((f.d.extractLsb' 0 1) == 0#1) (.minidxN32 (f.d.extractLsb' 1 6) f.w f.a) rest
  | 0x90 => let f := splitA w; word1 (f.b == 132#8) ((f.d.extractLsb' 0 1) == 0#1) (.minidxI32 (f.d.extractLsb' 1 6) f.w f.a) rest
  | 0x91 => let f := splitA w; word1 (f.b == 132#8) ((f.d.extractLsb' 0 1) == 0#1) (.minidxF32 (f.d.extractLsb' 1 6) f.w f.a) rest
  | 0x92 => let f := splitA w; word1 (f.b == 132#8) (true) (.scanInclAddB32 f.d f.w f.a) rest
  | 0x93 => let f := splitA w; word1 (f.b == 132#8) (true) (.scanExclAddB32 f.d f.w f.a) rest
  | 0x94 => let f := splitA w; word1 (f.b == 132#8) (true) (.scanInclMaxI32 f.d f.w f.a) rest
  | 0x95 => let f := splitA w; word1 (f.b == 132#8) (true) (.scanInclMinI32 f.d f.w f.a) rest
  | 0x96 => let f := splitA w; word1 ((f.d.extractLsb' 3 4) == 0#4 && f.w == 0#1 && f.b == 0#8) ((f.a.extractLsb' 3 5) == 0#5) (.pollAll (f.d.extractLsb' 0 3) (f.a.extractLsb' 0 3)) rest
  | 0x97 => let f := splitA w; word1 ((f.d.extractLsb' 3 4) == 0#4 && f.w == 0#1 && f.b == 0#8) ((f.a.extractLsb' 3 5) == 0#5) (.pollAny (f.d.extractLsb' 0 3) (f.a.extractLsb' 0 3)) rest
  | 0x98 => let f := splitA w; word1 (f.b == 0#8) ((f.d.extractLsb' 0 1) == 0#1 && (f.a.extractLsb' 3 5) == 0#5) (.pollMask (f.d.extractLsb' 1 6) f.w (f.a.extractLsb' 0 3)) rest
  | 0x99 => let f := splitA w; word1 ((f.d.extractLsb' 3 4) == 0#4 && f.w == 0#1 && f.b == 132#8) (true) (.pollSame (f.d.extractLsb' 0 3) f.a) rest
  | _ => .error .reservedOpcode

/-- Class 2, memory (R197). -/
noncomputable def decode2 (w : BitVec 32) (rest : List (BitVec 32)) : Decoded :=
  match (opOf w).toNat with
  | 0x00 => let f := splitA w; word2 rest fun x rest => word1 (f.w == 0#1) (true) (.ldN8 f.d f.a f.b (splitXM x)) rest
  | 0x01 => let f := splitA w; word2 rest fun x rest => word1 (f.w == 0#1) (true) (.ldI8 f.d f.a f.b (splitXM x)) rest
  | 0x02 => let f := splitA w; word2 rest fun x rest => word1 (f.w == 0#1) (true) (.ldN16 f.d f.a f.b (splitXM x)) rest
  | 0x03 => let f := splitA w; word2 rest fun x rest => word1 (f.w == 0#1) (true) (.ldI16 f.d f.a f.b (splitXM x)) rest
  | 0x04 => let f := splitA w; word2 rest fun x rest => word1 (f.w == 0#1) (true) (.ldB32 f.d f.a f.b (splitXM x)) rest
  | 0x05 => let f := splitA w; word2 rest fun x rest => word1 (f.w == 0#1) (true) (.ldB64 f.d f.a f.b (splitXM x)) rest
  | 0x06 => let f := splitA w; word2 rest fun x rest => word1 (f.w == 0#1) (true) (.ldB128 f.d f.a f.b (splitXM x)) rest
  | 0x08 => let f := splitA w; word2 rest fun x rest => word1 (f.w == 0#1) (true) (.stB8 f.d f.a f.b (splitXM x)) rest
  | 0x09 => let f := splitA w; word2 rest fun x rest => word1 (f.w == 0#1) (true) (.stB16 f.d f.a f.b (splitXM x)) rest
  | 0x0A => let f := splitA w; word2 rest fun x rest => word1 (f.w == 0#1) (true) (.stB32 f.d f.a f.b (splitXM x)) rest
  | 0x0B => let f := splitA w; word2 rest fun x rest => word1 (f.w == 0#1) (true) (.stB64 f.d f.a f.b (splitXM x)) rest
  | 0x0C => let f := splitA w; word2 rest fun x rest => word1 (f.w == 0#1) (true) (.stB128 f.d f.a f.b (splitXM x)) rest
  | 0x10 => let f := splitA w; word2 rest fun x rest => word1 (f.w == 0#1) (true) (.ldsB32 f.d f.a f.b (splitXM x)) rest
  | 0x11 => let f := splitA w; word2 rest fun x rest => word1 (f.w == 0#1) (true) (.ldsB64 f.d f.a f.b (splitXM x)) rest
  | 0x12 => let f := splitA w; word2 rest fun x rest => word1 (f.w == 0#1) (true) (.ldsB128 f.d f.a f.b (splitXM x)) rest
  | 0x13 => let f := splitA w; word2 rest fun x rest => word1 (f.w == 0#1) (true) (.stsB32 f.d f.a f.b (splitXM x)) rest
  | 0x14 => let f := splitA w; word2 rest fun x rest => word1 (f.w == 0#1) (true) (.stsB64 f.d f.a f.b (splitXM x)) rest
  | 0x15 => let f := splitA w; word2 rest fun x rest => word1 (f.w == 0#1) (true) (.stsB128 f.d f.a f.b (splitXM x)) rest
  | 0x16 => let f := splitA w; word2 rest fun x rest => word1 ((f.d.extractLsb' 6 1) == 0#1 && f.w == 0#1) (true) (.stashMap (f.d.extractLsb' 0 6) f.a f.b (splitXM x)) rest
  | 0x17 => let f := splitA w; word2 rest fun x rest => word1 (f.d == 0#7 && f.w == 0#1 && f.a == 132#8) (true) (.stashUnmap f.b (splitXM x)) rest
  | 0x18 => let f := splitA w; word2 rest fun x rest => word1 (f.d == 0#7 && f.w == 0#1 && f.a == 132#8) (true) (.stashFlush f.b (splitXM x)) rest
  | 0x19 => let f := splitA w; word2 rest fun x rest => word1 ((f.d.extractLsb' 6 1) == 0#1 && f.w == 0#1) (true) (.flaskCreate (f.d.extractLsb' 0 6) f.a f.b (splitXM x)) rest
  | 0x1A => let f := splitA w; word2 rest fun x rest => word1 ((f.d.extractLsb' 6 1) == 0#1 && f.w == 0#1 && f.b == 132#8) (true) (.flaskSeal (f.d.extractLsb' 0 6) f.a (splitXM x)) rest
  | 0x1B => let f := splitA w; word2 rest fun x rest => word1 ((f.d.extractLsb' 6 1) == 0#1 && f.w == 0#1 && f.b == 132#8) (true) (.flaskReopen (f.d.extractLsb' 0 6) f.a (splitXM x)) rest
  | 0x1C => let f := splitA w; word2 rest fun x rest => word1 ((f.d.extractLsb' 6 1) == 0#1 && f.w == 0#1 && f.b == 132#8) (true) (.flaskRetire (f.d.extractLsb' 0 6) f.a (splitXM x)) rest
  | 0x1D => let f := splitA w; word2 rest fun x rest => word1 ((f.d.extractLsb' 6 1) == 0#1 && f.w == 0#1 && f.b == 132#8) (true) (.flaskAcq (f.d.extractLsb' 0 6) f.a (splitXM x)) rest
  | 0x1E => let f := splitA w; word2 rest fun x rest => word1 ((f.d.extractLsb' 6 1) == 0#1 && f.w == 0#1 && f.b == 132#8) (true) (.flaskRel (f.d.extractLsb' 0 6) f.a (splitXM x)) rest
  | 0x20 => let f := splitA w; word2 rest fun x rest => word1 (f.w == 0#1) (true) (.atomAddB32 f.d f.a f.b (splitXM x)) rest
  | 0x21 => let f := splitA w; word2 rest fun x rest => word1 (f.w == 0#1) (true) (.atomAddB64 f.d f.a f.b (splitXM x)) rest
  | 0x22 => let f := splitA w; word2 rest fun x rest => word1 (f.w == 0#1) (true) (.atomMinI32 f.d f.a f.b (splitXM x)) rest
  | 0x23 => let f := splitA w; word2 rest fun x rest => word1 (f.w == 0#1) (true) (.atomMaxI32 f.d f.a f.b (splitXM x)) rest
  | 0x24 => let f := splitA w; word2 rest fun x rest => word1 (f.w == 0#1) (true) (.atomMinN32 f.d f.a f.b (splitXM x)) rest
  | 0x25 => let f := splitA w; word2 rest fun x rest => word1 (f.w == 0#1) (true) (.atomMaxN32 f.d f.a f.b (splitXM x)) rest
  | 0x26 => let f := splitA w; word2 rest fun x rest => word1 (f.w == 0#1) (true) (.atomAndB32 f.d f.a f.b (splitXM x)) rest
  | 0x27 => let f := splitA w; word2 rest fun x rest => word1 (f.w == 0#1) (true) (.atomOrB32 f.d f.a f.b (splitXM x)) rest
  | 0x28 => let f := splitA w; word2 rest fun x rest => word1 (f.w == 0#1) (true) (.atomXorB32 f.d f.a f.b (splitXM x)) rest
  | 0x29 => let f := splitA w; word2 rest fun x rest => word1 (f.w == 0#1) (true) (.atomXchgB32 f.d f.a f.b (splitXM x)) rest
  | 0x2A => let f := splitA w; word2 rest fun x rest => word1 (f.w == 0#1) (true) (.atomXchgB64 f.d f.a f.b (splitXM x)) rest
  | 0x2B => let f := splitA w; word2 rest fun x rest => word1 (f.w == 0#1) (true) (.atomCasB32 f.d f.a f.b (splitXM x)) rest
  | 0x2C => let f := splitA w; word2 rest fun x rest => word1 (f.w == 0#1) (true) (.atomCasB64 f.d f.a f.b (splitXM x)) rest
  | 0x2D => let f := splitA w; word2 rest fun x rest => word1 (f.w == 0#1) (true) (.atomAddF32 f.d f.a f.b (splitXM x)) rest
  | 0x2E => let f := splitA w; word2 rest fun x rest => word1 (f.w == 0#1) (true) (.atomMinI64 f.d f.a f.b (splitXM x)) rest
  | 0x2F => let f := splitA w; word2 rest fun x rest => word1 (f.w == 0#1) (true) (.atomMaxI64 f.d f.a f.b (splitXM x)) rest
  | 0x30 => let f := splitA w; word2 rest fun x rest => word1 (f.d == 0#7 && f.w == 0#1) (true) (.fence f.a f.b (splitXM x)) rest
  | 0x31 => let f := splitA w; word1 (f.d == 0#7 && f.w == 0#1 && f.a == 0#8 && f.b == 0#8) (true) (.barGroup) rest
  | 0x32 => let f := splitA w; word1 (f.d == 0#7 && f.w == 0#1 && f.a == 0#8 && f.b == 0#8) (true) (.barTeam) rest
  | 0x33 => let f := splitA w; word1 (f.d == 0#7 && f.w == 0#1 && f.a == 0#8 && (f.b.extractLsb' 2 6) == 0#6) (true) (.barRole (f.b.extractLsb' 0 2)) rest
  | 0x34 => let f := splitA w; word1 (f.d == 0#7 && f.w == 0#1 && f.a == 0#8 && f.b == 0#8) (true) (.barRollcall) rest
  | 0x38 => let f := splitA w; word2 rest fun x rest => word1 (f.d == 0#7 && f.w == 0#1) (true) (.copy f.a f.b (splitXM x)) rest
  | 0x39 => let f := splitA w; word2 rest fun x rest => word1 (f.d == 0#7 && f.w == 0#1) (true) (.gather f.a f.b (splitXM x)) rest
  | 0x3A => let f := splitA w; word2 rest fun x rest => word1 (f.d == 0#7 && f.w == 0#1) (true) (.coll f.a f.b (splitXM x)) rest
  | 0x3B => let f := splitA w; word1 ((f.d.extractLsb' 6 1) == 0#1 && f.w == 0#1 && f.b == 132#8) (true) (.engWait (f.d.extractLsb' 0 6) f.a) rest
  | 0x3C => let f := splitA w; word2 rest fun x rest => word1 (f.d == 0#7 && f.w == 0#1 && f.b == 132#8) (true) (.lockAcq f.a (splitXM x)) rest
  | 0x3D => let f := splitA w; word2 rest fun x rest => word1 (f.d == 0#7 && f.w == 0#1 && f.b == 132#8) (true) (.lockRel f.a (splitXM x)) rest
  | _ => .error .reservedOpcode

/-- Class 3, tile and matrix (R198). -/
noncomputable def decode3 (w : BitVec 32) (rest : List (BitVec 32)) : Decoded :=
  match (opOf w).toNat with
  | 0x00 => let f := splitH w; word1 (f.a == 0#5 && f.b == 0#5 && (f.n.extractLsb' 4 4) == 0#4) (true) (.talloc f.h (f.n.extractLsb' 0 4) f.f) rest
  | 0x01 => let f := splitH w; word1 (f.h == 0#5 && f.b == 0#5 && f.n == 0#8 && f.f == 0#1) (true) (.tfree f.a) rest
  | 0x02 =>
    let f := splitH w
    if f.f == 1#1 then word1 (f.h == 0#5 && f.b == 0#5) (true) (.tgiveRing f.a f.n) rest
    else word1 (f.h == 0#5 && f.b == 0#5 && (f.n.extractLsb' 2 6) == 0#6) (true) (.tgiveRole f.a (f.n.extractLsb' 0 2)) rest
  | 0x03 =>
    let f := splitH w
    if f.f == 1#1 then word1 (f.a == 0#5 && (f.b.extractLsb' 4 1) == 0#1) (true) (.ttakeRing f.h (f.b.extractLsb' 0 4) f.n) rest
    else word1 (f.a == 0#5 && (f.b.extractLsb' 4 1) == 0#1 && f.n == 0#8) (true) (.ttakeRole f.h (f.b.extractLsb' 0 4)) rest
  | 0x04 => let f := splitHM w; word2 rest fun x rest => word1 (f.z == 0#3) (true) (.tld f.h f.a f.b (splitXM x)) rest
  | 0x05 => let f := splitHM w; word2 rest fun x rest => word1 (f.z == 0#3) (true) (.tst f.h f.a f.b (splitXM x)) rest
  | 0x06 => let f := splitH w; word1 ((f.b.extractLsb' 3 2) == 0#2 && f.n == 0#8) (true) (.tcvt f.h f.a (f.b.extractLsb' 0 3) f.f) rest
  | 0x07 => let f := splitH w; word1 ((f.b.extractLsb' 2 3) == 0#3 && f.n == 0#8) (true) (.tspread f.h f.a (f.b.extractLsb' 0 2) f.f) rest
  | 0x08 =>
    let f := splitH w
    if f.f == 1#1 then word2 rest fun x rest => word1 (f.a == 0#5 && f.b == 0#5 && f.n == 0#8 && xsHigh x == 0#16) (true) (.ttagXval f.h (xsF2 x ++ xsF1 x)) rest
    else word2 rest fun x rest => word1 (f.n == 0#8 && xsHigh x == 0#16 && (xsF2 x).extractLsb' 5 3 == 0#3 && (xsF1 x).extractLsb' 3 5 == 0#5) (true) (.ttag f.h f.a f.b ((xsF1 x).extractLsb' 0 2) ((xsF1 x).extractLsb' 2 1) ((xsF2 x).extractLsb' 0 5)) rest
  | 0x10 => let f := splitH w; word1 (f.h == 0#5 && f.a == 0#5 && f.b == 0#5 && f.n == 0#8 && f.f == 0#1) (true) (.mxAcq) rest
  | 0x11 => let f := splitH w; word1 (f.h == 0#5 && f.a == 0#5 && f.b == 0#5 && f.n == 0#8 && f.f == 0#1) (true) (.mxRel) rest
  | 0x12 => let f := splitH w; word1 ((f.h.extractLsb' 2 3) == 0#3) (true) (.mxPass (f.h.extractLsb' 0 2) f.a f.b f.n f.f) rest
  | 0x13 => let f := splitH w; word1 ((f.h.extractLsb' 4 1) == 0#1) (true) (.mxQpass (f.h.extractLsb' 2 2) (f.h.extractLsb' 0 2) f.a f.b f.n f.f) rest
  | 0x14 => let f := splitH w; word1 ((f.h.extractLsb' 2 3) == 0#3) (true) (.mxBpass (f.h.extractLsb' 0 2) f.a f.b f.n f.f) rest
  | 0x15 => let f := splitHM w; word2 rest fun x rest => word1 ((f.h.extractLsb' 4 1) == 0#1 && f.z == 0#3 && f.a == 132#8) (true) (.mxStream (f.h.extractLsb' 0 4) f.b (splitXM x)) rest
  | 0x16 => let f := splitHM w; word2 rest fun x rest => word1 (f.h == 0#5 && f.z == 0#3) (true) (.mxDrainMem f.a f.b (splitXM x)) rest
  | 0x17 => let f := splitH w; word1 ((f.a.extractLsb' 2 3) == 0#3 && f.b == 0#5) (true) (.mxDrainTile f.h (f.a.extractLsb' 1 1) (f.a.extractLsb' 0 1) f.n f.f) rest
  | 0x18 => let f := splitHM w; word2 rest fun x rest => word1 ((f.h.extractLsb' 2 3) == 0#3 && f.z == 0#3) (true) (.mxDrainColl (f.h.extractLsb' 0 1) (f.h.extractLsb' 1 1) f.a f.b (splitXM x)) rest
  | 0x19 => let f := splitHM w; word2 rest fun x rest => word1 (f.z == 0#3 && f.a == 132#8 && f.b == 132#8) (true) (.mxEpi f.h (splitXM x)) rest
  | 0x1A => let f := splitH w; word1 (f.h == 0#5 && f.a == 0#5 && f.b == 0#5) (true) (.mxZero f.n f.f) rest
  | _ => .error .reservedOpcode

/-- Class 4, Hamper (R198). -/
noncomputable def decode4 (w : BitVec 32) (rest : List (BitVec 32)) : Decoded :=
  match (opOf w).toNat with
  | 0x00 => let f := splitA w; word2 rest fun x rest => word1 (f.b == 132#8 && xsHigh x == 0#16 && (xsF2 x).extractLsb' 5 3 == 0#3) (true) (.hmPut f.d f.w f.a (xsF1 x) ((xsF2 x).extractLsb' 0 5)) rest
  | 0x01 => let f := splitA w; word2 rest fun x rest => word1 (f.b == 132#8 && xsHigh x == 0#16 && xsF2 x == 0#8) (true) (.hmRput f.d f.w f.a (xsF1 x)) rest
  | 0x02 => let f := splitA w; word2 rest fun x rest => word1 (f.w == 0#1 && f.a == 132#8 && f.b == 132#8 && xsHigh x == 0#16 && xsF2 x == 0#8) (true) (.hmGet f.d (xsF1 x)) rest
  | 0x03 => let f := splitA w; word2 rest fun x rest => word1 (f.d == 0#7 && f.w == 0#1 && f.a == 132#8 && f.b == 132#8 && xsHigh x == 0#16 && xsF2 x == 0#8) (true) (.hmDone (xsF1 x)) rest
  | 0x04 =>
    let f := splitA w
    word2 rest fun x rest =>
    if xsF2 x == 0#8 then word1 (xsHigh x == 0#16) (true) (.hmKscfgOpen f.d f.w f.a f.b (xsF1 x)) rest
    else if xsF2 x == 1#8 then word1 (f.a == 132#8 && f.b == 132#8 && xsHigh x == 0#16) (true) (.hmKscfgQuery f.d f.w (xsF1 x)) rest
    else if xsF2 x == 2#8 then word1 (f.a == 132#8 && f.b == 132#8 && xsHigh x == 0#16) (true) (.hmKscfgClose f.d f.w (xsF1 x)) rest
    else .error .mustBeZero
  | 0x05 => let f := splitA w; word2 rest fun x rest => word1 (f.w == 0#1 && xsHigh x == 0#16 && (xsF2 x).extractLsb' 4 4 == 0#4) (true) (.hmGdrain f.d f.a f.b ((xsF2 x).extractLsb' 0 4 ++ xsF1 x)) rest
  | 0x06 => let f := splitA w; word2 rest fun x rest => word1 (f.w == 0#1 && xsHigh x == 0#16 && (xsF2 x).extractLsb' 4 4 == 0#4) (true) (.hmGreload f.d f.a f.b ((xsF2 x).extractLsb' 0 4 ++ xsF1 x)) rest
  | _ => .error .reservedOpcode

/-- Class 5, system (R198). -/
noncomputable def decode5 (w : BitVec 32) (rest : List (BitVec 32)) : Decoded :=
  match (opOf w).toNat with
  | 0x00 => let f := splitA w; word1 (f.d == 0#7 && f.w == 0#1 && f.a == 132#8) (true) (.trap f.b) rest
  | 0x01 =>
    let f := splitA w
    if f.a == 0x90#8 then word1 (f.d == 0#7 && f.w == 0#1 && f.b == 132#8) true .rttResume rest
    else if f.a == 0x91#8 then word1 (f.d == 0#7 && f.w == 0#1 && f.b == 132#8) true .rttEnd rest
    else .error .illegalOperand
  | 0x02 => let f := splitS w; word1 (f.z == 0#4) (true) (.rdsys f.d f.s) rest
  | 0x03 => let f := splitS w; word1 (f.z == 0#4) (true) (.wrsys f.d f.s) rest
  | 0x04 => let f := splitA w; word1 (f.d == 0#7 && f.w == 0#1 && f.a == 132#8 && (f.b.extractLsb' 4 4) == 0#4) (true) (.warnClr (f.b.extractLsb' 0 4)) rest
  | 0x05 => let f := splitA w; word1 (f.d == 0#7 && f.w == 0#1 && f.a == 132#8) (true) (.brk f.b) rest
  | 0x06 => let f := splitS w; word1 ((f.s.extractLsb' 2 10) == 0#10 && f.z == 0#4) (true) (.ctrRd f.d (f.s.extractLsb' 0 2)) rest
  | 0x07 => let f := splitS w; word1 ((f.s.extractLsb' 2 10) == 0#10 && f.z == 0#4) (true) (.ctrCfg f.d (f.s.extractLsb' 0 2)) rest
  | 0x08 => let f := splitA w; word1 (f.d == 0#7 && f.w == 0#1 && f.a == 0#8 && f.b == 0#8) (true) (.yield) rest
  | 0x09 => let f := splitA w; word1 (f.d == 0#7 && f.w == 0#1 && f.a == 132#8) (true) (.vregGrow f.b) rest
  | 0x0A => let f := splitA w; word1 (f.d == 0#7 && f.w == 0#1 && f.a == 132#8) (true) (.vregShrink f.b) rest
  | _ => .error .reservedOpcode

/-- Class 6, hints (R199): bit 7 of the opcode gives the length, and every opcode decodes. -/
noncomputable def decode6 (w : BitVec 32) (rest : List (BitVec 32)) : Decoded :=
  let f := splitA w
  if f.op == 0x00#8 then .ok (.schedHint f.d f.w f.a f.b, rest)
  else if f.op == 0x80#8 then word2 rest fun x rest => .ok (.pref f.d f.w f.a f.b (splitXM x), rest)
  else if f.op == 0x81#8 then word2 rest fun x rest => .ok (.evictHint f.d f.w f.a f.b (splitXM x), rest)
  else if f.op.extractLsb' 7 1 == 0#1 then .ok (.unimplementedHint f.op f.d f.w f.a f.b 0#32, rest)
  else word2 rest fun x rest => .ok (.unimplementedHint f.op f.d f.w f.a f.b x, rest)

/-- The first instruction of the words of a clause of the given class, before the operand checks. -/
noncomputable def parseInstr (cls : Nat) (ws : List (BitVec 32)) : Decoded :=
  match ws with
  | [] => .error .wordCount
  | w :: rest =>
    match cls with
    | 0 => decode0 w rest
    | 1 => decode1 w rest
    | 2 => decode2 w rest
    | 3 => decode3 w rest
    | 4 => decode4 w rest
    | 5 => decode5 w rest
    | 6 => decode6 w rest
    | _ => .error .badClass

/-- The decoder: the first instruction of a clause's words, rejected by name when an encoding rule of
R201 that a single instruction can break is broken. -/
noncomputable def decode (cls : Nat) (ws : List (BitVec 32)) : Decoded :=
  match parseInstr cls ws with
  | .error e => .error e
  | .ok (i, rest) =>
    match i.illFormed with
    | some e => .error e
    | none => .ok (i, rest)

/-- The words of a 32-bit stream numbered from its lowest bit. -/
def wordsOf : Nat → Nat → List (BitVec 32)
  | 0, _ => []
  | n + 1, w => BitVec.ofNat 32 w :: wordsOf n (w / 2 ^ 32)

/-- The lowest engine class of the list in which the words decode (log 7), with its instruction. -/
noncomputable def firstClass : List Nat → List (BitVec 32) → Option (Nat × Instr × List (BitVec 32))
  | [], _ => none
  | c :: cs, ws =>
    match decode c ws with
    | .ok (i, rest) => some (c, i, rest)
    | .error _ => firstClass cs ws

/-- The instruction words that a table word of `nbits` bits stands for: the longest instruction is a
`loop` with four increment words, and the bits above `nbits` are 0. -/
def tableWords (nbits w : Nat) : List (BitVec 32) := wordsOf 5 (w % 2 ^ nbits)

/-- The instruction that the decoder reads from a table word. The word alone does not name its engine
class, which the clause header holds (R180), so the classes are tried in ascending order (log 7). -/
noncomputable def decodeTableWord (nbits w : Nat) : Option Instr :=
  match firstClass [0, 1, 2, 3, 4, 5, 6] (tableWords nbits w) with
  | some (_, i, _) => some i
  | none => none

/-- The words of an instruction (R185, R186); a device event has none. -/
def encode (i : Instr) : List (BitVec 32) :=
  match i with
  | .votePoint _ _ => []
  | .resultReturn _ _ => []
  | .coalesceTimeout _ _ => []
  | .storeDrain _ _ => []
  | .homeRequest _ => []
  | .walkComplete _ _ _ _ => []
  | .stashFillReturn _ _ => []
  | .stashReadRecall _ _ => []
  | .stashWriteRecall _ _ => []
  | .outstandingEntryFree _ _ => []
  | .stickyQuotaWrite _ _ => []
  | .flaskRequestAtHome _ => []
  | .read _ _ _ _ => []
  | .own _ _ _ _ => []
  | .unhead _ _ _ _ => []
  | .done _ _ _ => []
  | .wb _ _ _ _ _ => []
  | .purgeAnswerCopy _ _ _ _ => []
  | .fetchAnswer _ _ _ _ _ => []
  | .recallAnswer _ _ _ _ _ => []
  | .fetch _ _ => []
  | .recall _ _ => []
  | .data _ _ _ _ _ _ => []
  | .grant _ _ _ _ _ _ => []
  | .purge _ _ _ => []
  | .purgeAnswer _ _ _ _ => []
  | .setfwd _ _ _ _ => []
  | .setback _ _ _ _ => []
  | .ack _ _ _ => []
  | .notHead _ _ => []
  | .stale _ _ _ => []
  | .retry _ _ _ => []
  | .retryResend _ => []
  | .hostReadShared _ _ => []
  | .hostReadExclusive _ _ => []
  | .hostWriteHalf _ _ _ => []
  | .hostReadNoCopy _ _ => []
  | .hostWriteback _ _ _ => []
  | .hostEvictNotice _ _ => []
  | .bisnpinvResponse _ _ _ _ => []
  | .bisnpdataResponse _ _ _ _ => []
  | .hostSnoopTimeout _ => []
  | .rdsharedData _ _ _ => []
  | .rdownGrant _ _ _ => []
  | .snpdata _ _ => []
  | .snpinv _ _ => []
  | .snpcur _ _ => []
  | .bar2Read _ => []
  | .bar2Write _ _ => []
  | .otgerNack _ => []
  | .migrate _ => []
  | .release _ => []
  | .migRqtailWrite _ _ => []
  | .migrationLineCopy _ _ _ => []
  | .migEpoch _ => []
  | .agentReport _ _ => []
  | .chainAnswerTimeout _ _ => []
  | .managerProbeTimeout _ => []
  | .dead _ _ => []
  | .scanDone _ _ => []
  | .resume _ => []
  | .ticketGrant _ _ => []
  | .engineStart _ => []
  | .engineLinePerform _ _ _ => []
  | .engineComplete _ => []
  | .rollcallComplete _ => []
  | .growGrant _ => []
  | .growWaitLimit _ => []
  | .growDeadlock _ => []
  | .teamRotation _ _ => []
  | .capabilityRevoke _ _ => []
  | .sealClear _ => []
  | .admissionRequest _ => []
  | .admissionResult _ => []
  | .iqTailWrite _ _ => []
  | .iqErrClear _ => []
  | .invS1Va _ => []
  | .invS1All _ => []
  | .invS2Ipa _ => []
  | .invS2All _ => []
  | .sync _ => []
  | .syncComplete _ => []
  | .lockRetry _ => []
  | .tileOpComplete _ => []
  | .reservationDispatch _ => []
  | .passComplete _ _ => []
  | .levelAging _ _ => []
  | .ringWaitResume _ => []
  | .streamCommand _ => []
  | .streamEnd _ => []
  | .hamperAtHome _ _ => []
  | .hamperResultReturn _ => []
  | .trapDelivery _ => []
  | .prgResponse _ _ _ => []
  | .priTimeout _ _ => []
  | .sqTailWrite _ _ _ => []
  | .sqErrClear _ _ => []
  | .launchDescriptor _ _ => []
  | .placement _ _ _ => []
  | .launchCompletion _ => []
  | .placementWaitLimit _ => []
  | .quantumExpiry => []
  | .preemptRequest _ _ => []
  | .drainDeadline _ => []
  | .freezeDeadline _ => []
  | .freezeQuiesced _ => []
  | .restore _ _ _ => []
  | .keyTransfer _ _ _ _ _ => []
  | .featMaskWrite _ _ => []
  | .flrVf _ => []
  | .flrPf => []
  | .linkLoss => []
  | .linkUp => []
  | .hlossThaw => []
  | .portTrainRetry _ => []
  | .portTakedown _ => []
  | .domEnWrite _ => []
  | .domFormedWrite _ => []
  | .powerWindow _ => []
  | .tempCritical _ => []
  | .mgmtFlr _ => []
  | .moduleReset => []
  | .readFaultLog => []
  | .dumpState => []
  | .recover _ => []
  | .spdmRequest _ => []
  | .pldmTelemetry => []
  | .pldmFirmwareUpdate _ => []
  | .firmwareHandover => []
  | .coldReset _ => []
  | .debugStateRequest _ _ _ => []
  | .deepSleepWake => []
  | .qrepDrain _ => []
  | .qrepDrainDone => []
  | .qrepRetest _ => []
  | .qrepRetestDone _ _ => []
  | .qrepReturn _ => []
  | .hbmRetireRequest _ => []
  | .hbmRetireCommit _ => []
  | .restripeDone => []
  | .registerWrite _ _ _ => []
  | .addB32 d w a b => [joinA 0#8 d w a b]
  | .addB32Imm d w a i => [joinA 1#8 d w a i]
  | .subB32 d w a b => [joinA 2#8 d w a b]
  | .subB32Imm d w a i => [joinA 3#8 d w a i]
  | .addSatI32 d w a b => [joinA 4#8 d w a b]
  | .addSatN32 d w a b => [joinA 5#8 d w a b]
  | .subSatI32 d w a b => [joinA 6#8 d w a b]
  | .subSatN32 d w a b => [joinA 7#8 d w a b]
  | .mulLoB32 d w a b => [joinA 8#8 d w a b]
  | .mulHiI32 d w a b => [joinA 9#8 d w a b]
  | .mulHiN32 d w a b => [joinA 10#8 d w a b]
  | .mulWideI32 d w a b => [joinA 11#8 (d ++ 0#1) w a b]
  | .mulWideN32 d w a b => [joinA 12#8 (d ++ 0#1) w a b]
  | .divI32 d w a b => [joinA 13#8 d w a b]
  | .divN32 d w a b => [joinA 14#8 d w a b]
  | .remI32 d w a b => [joinA 15#8 d w a b]
  | .remN32 d w a b => [joinA 16#8 d w a b]
  | .minI32 d w a b => [joinA 17#8 d w a b]
  | .maxI32 d w a b => [joinA 18#8 d w a b]
  | .minN32 d w a b => [joinA 19#8 d w a b]
  | .maxN32 d w a b => [joinA 20#8 d w a b]
  | .shlB32 d w a b => [joinA 21#8 d w a b]
  | .shrN32 d w a b => [joinA 22#8 d w a b]
  | .shrI32 d w a b => [joinA 23#8 d w a b]
  | .rotlB32 d w a b => [joinA 24#8 d w a b]
  | .rotrB32 d w a b => [joinA 25#8 d w a b]
  | .shlB32Imm d w a n => [joinA 26#8 d w a (0#3 ++ n)]
  | .shrN32Imm d w a n => [joinA 27#8 d w a (0#3 ++ n)]
  | .shrI32Imm d w a n => [joinA 28#8 d w a (0#3 ++ n)]
  | .rotlB32Imm d w a n => [joinA 29#8 d w a (0#3 ++ n)]
  | .rotrB32Imm d w a n => [joinA 30#8 d w a (0#3 ++ n)]
  | .popcB32 d w a => [joinA 31#8 d w a 132#8]
  | .clzB32 d w a => [joinA 32#8 d w a 132#8]
  | .ctzB32 d w a => [joinA 33#8 d w a 132#8]
  | .brevB32 d w a => [joinA 34#8 d w a 132#8]
  | .bfxN32 d w a pos len => [joinA 35#8 d w a 132#8, joinXS (0#3 ++ len) (0#3 ++ pos)]
  | .bfxI32 d w a pos len => [joinA 36#8 d w a 132#8, joinXS (0#3 ++ len) (0#3 ++ pos)]
  | .bfiB32 d w a b pos len => [joinA 37#8 d w a b, joinXS (0#3 ++ len) (0#3 ++ pos)]
  | .ternB32 d w a b c tbl => [joinA 38#8 d w a b, joinXS c tbl]
  | .andB32 d w a b => [joinA 39#8 d w a b]
  | .orB32 d w a b => [joinA 40#8 d w a b]
  | .xorB32 d w a b => [joinA 41#8 d w a b]
  | .notB32 d w a => [joinA 42#8 d w a 132#8]
  | .andB32Imm d w a i => [joinA 43#8 d w a i]
  | .orB32Imm d w a i => [joinA 44#8 d w a i]
  | .xorB32Imm d w a i => [joinA 45#8 d w a i]
  | .movB32 d w a => [joinA 46#8 d w a 132#8]
  | .movB32Imm d w t imm => [joinA 47#8 d w 132#8 t, imm]
  | .addB64 d w a b => [joinA 48#8 (d ++ 0#1) w a b]
  | .subB64 d w a b => [joinA 49#8 (d ++ 0#1) w a b]
  | .mulLoB64 d w a b => [joinA 50#8 (d ++ 0#1) w a b]
  | .minI64 d w a b => [joinA 51#8 (d ++ 0#1) w a b]
  | .maxI64 d w a b => [joinA 52#8 (d ++ 0#1) w a b]
  | .minN64 d w a b => [joinA 53#8 (d ++ 0#1) w a b]
  | .maxN64 d w a b => [joinA 54#8 (d ++ 0#1) w a b]
  | .shlB64 d w a b => [joinA 55#8 (d ++ 0#1) w a b]
  | .shrN64 d w a b => [joinA 56#8 (d ++ 0#1) w a b]
  | .shrI64 d w a b => [joinA 57#8 (d ++ 0#1) w a b]
  | .movB64Imm d w imm => [joinA 58#8 (d ++ 0#1) w 132#8 132#8, imm]
  | .smovB64 s a => [joinA 59#8 (0#1 ++ s) 0#1 a 132#8]
  | .selB32 d w a b p => [joinA 60#8 d w a b, joinXS 0#8 (0#5 ++ p)]
  | .selB64 d w a b p => [joinA 61#8 (d ++ 0#1) w a b, joinXS 0#8 (0#5 ++ p)]
  | .setpEqB32 p a b => [joinA 64#8 (0#4 ++ p) 0#1 a b]
  | .setpNeB32 p a b => [joinA 65#8 (0#4 ++ p) 0#1 a b]
  | .setpLtI32 p a b => [joinA 66#8 (0#4 ++ p) 0#1 a b]
  | .setpLeI32 p a b => [joinA 67#8 (0#4 ++ p) 0#1 a b]
  | .setpGtI32 p a b => [joinA 68#8 (0#4 ++ p) 0#1 a b]
  | .setpGeI32 p a b => [joinA 69#8 (0#4 ++ p) 0#1 a b]
  | .setpLtN32 p a b => [joinA 70#8 (0#4 ++ p) 0#1 a b]
  | .setpLeN32 p a b => [joinA 71#8 (0#4 ++ p) 0#1 a b]
  | .setpGtN32 p a b => [joinA 72#8 (0#4 ++ p) 0#1 a b]
  | .setpGeN32 p a b => [joinA 73#8 (0#4 ++ p) 0#1 a b]
  | .setpEqB64 p a b => [joinA 74#8 (0#4 ++ p) 0#1 a b]
  | .setpNeB64 p a b => [joinA 75#8 (0#4 ++ p) 0#1 a b]
  | .setpLtI64 p a b => [joinA 76#8 (0#4 ++ p) 0#1 a b]
  | .setpLeI64 p a b => [joinA 77#8 (0#4 ++ p) 0#1 a b]
  | .setpLtN64 p a b => [joinA 78#8 (0#4 ++ p) 0#1 a b]
  | .setpLeN64 p a b => [joinA 79#8 (0#4 ++ p) 0#1 a b]
  | .setpEqB32Imm p a i => [joinA 80#8 (0#4 ++ p) 0#1 a i]
  | .setpNeB32Imm p a i => [joinA 81#8 (0#4 ++ p) 0#1 a i]
  | .setpLtI32Imm p a i => [joinA 82#8 (0#4 ++ p) 0#1 a i]
  | .setpLeI32Imm p a i => [joinA 83#8 (0#4 ++ p) 0#1 a i]
  | .setpGtI32Imm p a i => [joinA 84#8 (0#4 ++ p) 0#1 a i]
  | .setpGeI32Imm p a i => [joinA 85#8 (0#4 ++ p) 0#1 a i]
  | .andPred p a b => [joinA 86#8 (0#4 ++ p) 0#1 (0#5 ++ a) (0#5 ++ b)]
  | .orPred p a b => [joinA 87#8 (0#4 ++ p) 0#1 (0#5 ++ a) (0#5 ++ b)]
  | .xorPred p a b => [joinA 88#8 (0#4 ++ p) 0#1 (0#5 ++ a) (0#5 ++ b)]
  | .notPred p a => [joinA 89#8 (0#4 ++ p) 0#1 (0#5 ++ a) 0#8]
  | .ptrAdd d w a b sc e => [joinA 96#8 (d ++ 0#1) w a b, joinXS (0#6 ++ e) (0#5 ++ sc)]
  | .ptrDiff d w a b => [joinA 97#8 (d ++ 0#1) w a b]
  | .ptrAddImm d w a imm => [joinA 98#8 (d ++ 0#1) w a 132#8, imm]
  | .bra p n o => [joinB 128#8 p n o]
  | .jmp a => [joinA 129#8 0#7 0#1 a 0#8]
  | .call l o => [joinC 130#8 (l ++ 0#1) o]
  | .callInd l a => [joinA 131#8 (l ++ 0#1) 0#1 a 0#8]
  | .ret a => [joinA 132#8 0#7 0#1 a 0#8]
  | .conv => [joinA 133#8 0#7 0#1 0#8 0#8]
  | .exit => [joinA 134#8 0#7 0#1 0#8 0#8]
  | .loop ncl cnt incs =>
    (0x87#8 ++ ncl ++ BitVec.ofNat 3 incs.length ++ 0#1 ++ cnt ++ 0#8) :: incs.map joinXN
  | .chkb x a b => [joinA 136#8 (0#6 ++ x) 0#1 a b]
  | .chkland a => [joinA 137#8 0#7 0#1 a 132#8]
  | .chkaln a e => [joinA 138#8 0#7 0#1 a (0#5 ++ e)]
  | .addF32 r d w a b => [joinA (0#6 ++ r) d w a b]
  | .subF32 r d w a b => [joinA (1#6 ++ r) d w a b]
  | .mulF32 r d w a b => [joinA (2#6 ++ r) d w a b]
  | .fmaF32 r d w a b => [joinA (3#6 ++ r) d w a b]
  | .addF16x2 r d w a b => [joinA (8#7 ++ r) d w a b]
  | .mulF16x2 r d w a b => [joinA (9#7 ++ r) d w a b]
  | .fmaF16x2 r d w a b => [joinA (10#7 ++ r) d w a b]
  | .addBf16x2 r d w a b => [joinA (11#7 ++ r) d w a b]
  | .mulBf16x2 r d w a b => [joinA (12#7 ++ r) d w a b]
  | .fmaBf16x2 r d w a b => [joinA (13#7 ++ r) d w a b]
  | .minF32 d w a b => [joinA 28#8 d w a b]
  | .maxF32 d w a b => [joinA 29#8 d w a b]
  | .absF32 d w a => [joinA 30#8 d w a 132#8]
  | .negF32 d w a => [joinA 31#8 d w a 132#8]
  | .rcpApproxF32 d w a => [joinA 32#8 d w a 132#8]
  | .rsqrtApproxF32 d w a => [joinA 33#8 d w a 132#8]
  | .sqrtApproxF32 d w a => [joinA 34#8 d w a 132#8]
  | .exp2ApproxF32 d w a => [joinA 35#8 d w a 132#8]
  | .log2ApproxF32 d w a => [joinA 36#8 d w a 132#8]
  | .sinApproxF32 d w a => [joinA 37#8 d w a 132#8]
  | .cosApproxF32 d w a => [joinA 38#8 d w a 132#8]
  | .tanhApproxF32 d w a => [joinA 39#8 d w a 132#8]
  | .sqrtF32 r d w a => [joinA (10#6 ++ r) d w a 132#8]
  | .setpEqF32 p a b => [joinA 48#8 (0#4 ++ p) 0#1 a b]
  | .setpNeF32 p a b => [joinA 49#8 (0#4 ++ p) 0#1 a b]
  | .setpLtF32 p a b => [joinA 50#8 (0#4 ++ p) 0#1 a b]
  | .setpLeF32 p a b => [joinA 51#8 (0#4 ++ p) 0#1 a b]
  | .setpGtF32 p a b => [joinA 52#8 (0#4 ++ p) 0#1 a b]
  | .setpGeF32 p a b => [joinA 53#8 (0#4 ++ p) 0#1 a b]
  | .setpNanF32 p a b => [joinA 54#8 (0#4 ++ p) 0#1 a b]
  | .cvtF32I32 r d w a => [joinA (16#6 ++ r) d w a 132#8]
  | .cvtF32N32 r d w a => [joinA (17#6 ++ r) d w a 132#8]
  | .cvtI32F32 r d w a => [joinA (18#6 ++ r) d w a 132#8]
  | .cvtN32F32 r d w a => [joinA (19#6 ++ r) d w a 132#8]
  | .cvtF16F32 r d w a => [joinA (40#7 ++ r) d w a 132#8]
  | .cvtBf16F32 r d w a => [joinA (41#7 ++ r) d w a 132#8]
  | .cvtF32F16 d w a => [joinA 84#8 d w a 132#8]
  | .cvtF32Bf16 d w a => [joinA 85#8 d w a 132#8]
  | .cvtSatF8aF32 d w a => [joinA 86#8 d w a 132#8]
  | .cvtNanF8aF32 d w a => [joinA 87#8 d w a 132#8]
  | .cvtSatF8bF32 d w a => [joinA 88#8 d w a 132#8]
  | .cvtNanF8bF32 d w a => [joinA 89#8 d w a 132#8]
  | .cvtSatF4F32 d w a => [joinA 90#8 d w a 132#8]
  | .cvtF32F8a d w a => [joinA 91#8 d w a 132#8]
  | .cvtF32F8b d w a => [joinA 92#8 d w a 132#8]
  | .cvtF32F4 d w a b => [joinA 93#8 d w a b]
  | .cvtSatI8I32 d w a => [joinA 94#8 d w a 132#8]
  | .cvtI32I8 d w a => [joinA 95#8 d w a 132#8]
  | .quantQ8F32 d w a b => [joinA 96#8 d w a b]
  | .quantQ4F32 d w a b => [joinA 97#8 d w a b]
  | .dequantF32Q8 d w a b => [joinA 98#8 d w a b]
  | .dequantF32Q4 d w a b => [joinA 99#8 d w a b]
  | .packB16 d w a b => [joinA 100#8 d w a b]
  | .packB8 d w a p => [joinA 101#8 d w a (0#6 ++ p)]
  | .packB4 d w a p => [joinA 102#8 d w a (0#5 ++ p)]
  | .unpackB16 d w a p => [joinA 103#8 d w a (0#7 ++ p)]
  | .unpackB8 d w a p => [joinA 104#8 d w a (0#6 ++ p)]
  | .unpackB4 d w a p => [joinA 105#8 d w a (0#5 ++ p)]
  | .xlPick d w a b => [joinA 128#8 d w a b]
  | .xlRol d w a b => [joinA 129#8 d w a b]
  | .xlRor d w a b => [joinA 130#8 d w a b]
  | .xlBfly d w a b => [joinA 131#8 d w a b]
  | .redAddB32 d w a => [joinA 132#8 d w a 132#8]
  | .redMinI32 d w a => [joinA 133#8 d w a 132#8]
  | .redMaxI32 d w a => [joinA 134#8 d w a 132#8]
  | .redMinN32 d w a => [joinA 135#8 d w a 132#8]
  | .redMaxN32 d w a => [joinA 136#8 d w a 132#8]
  | .redAndB32 d w a => [joinA 137#8 d w a 132#8]
  | .redOrB32 d w a => [joinA 138#8 d w a 132#8]
  | .redXorB32 d w a => [joinA 139#8 d w a 132#8]
  | .redAddF32 d w a => [joinA 140#8 d w a 132#8]
  | .redMinF32 d w a => [joinA 141#8 d w a 132#8]
  | .redMaxF32 d w a => [joinA 142#8 d w a 132#8]
  | .minidxN32 d w a => [joinA 143#8 (d ++ 0#1) w a 132#8]
  | .minidxI32 d w a => [joinA 144#8 (d ++ 0#1) w a 132#8]
  | .minidxF32 d w a => [joinA 145#8 (d ++ 0#1) w a 132#8]
  | .scanInclAddB32 d w a => [joinA 146#8 d w a 132#8]
  | .scanExclAddB32 d w a => [joinA 147#8 d w a 132#8]
  | .scanInclMaxI32 d w a => [joinA 148#8 d w a 132#8]
  | .scanInclMinI32 d w a => [joinA 149#8 d w a 132#8]
  | .pollAll p a => [joinA 150#8 (0#4 ++ p) 0#1 (0#5 ++ a) 0#8]
  | .pollAny p a => [joinA 151#8 (0#4 ++ p) 0#1 (0#5 ++ a) 0#8]
  | .pollMask d w a => [joinA 152#8 (d ++ 0#1) w (0#5 ++ a) 0#8]
  | .pollSame p a => [joinA 153#8 (0#4 ++ p) 0#1 a 132#8]
  | .ldN8 d a b x => [joinA 0#8 d 0#1 a b, joinXM x]
  | .ldI8 d a b x => [joinA 1#8 d 0#1 a b, joinXM x]
  | .ldN16 d a b x => [joinA 2#8 d 0#1 a b, joinXM x]
  | .ldI16 d a b x => [joinA 3#8 d 0#1 a b, joinXM x]
  | .ldB32 d a b x => [joinA 4#8 d 0#1 a b, joinXM x]
  | .ldB64 d a b x => [joinA 5#8 d 0#1 a b, joinXM x]
  | .ldB128 d a b x => [joinA 6#8 d 0#1 a b, joinXM x]
  | .stB8 d a b x => [joinA 8#8 d 0#1 a b, joinXM x]
  | .stB16 d a b x => [joinA 9#8 d 0#1 a b, joinXM x]
  | .stB32 d a b x => [joinA 10#8 d 0#1 a b, joinXM x]
  | .stB64 d a b x => [joinA 11#8 d 0#1 a b, joinXM x]
  | .stB128 d a b x => [joinA 12#8 d 0#1 a b, joinXM x]
  | .ldsB32 d a b x => [joinA 16#8 d 0#1 a b, joinXM x]
  | .ldsB64 d a b x => [joinA 17#8 d 0#1 a b, joinXM x]
  | .ldsB128 d a b x => [joinA 18#8 d 0#1 a b, joinXM x]
  | .stsB32 d a b x => [joinA 19#8 d 0#1 a b, joinXM x]
  | .stsB64 d a b x => [joinA 20#8 d 0#1 a b, joinXM x]
  | .stsB128 d a b x => [joinA 21#8 d 0#1 a b, joinXM x]
  | .stashMap tok a b x => [joinA 22#8 (0#1 ++ tok) 0#1 a b, joinXM x]
  | .stashUnmap b x => [joinA 23#8 0#7 0#1 132#8 b, joinXM x]
  | .stashFlush b x => [joinA 24#8 0#7 0#1 132#8 b, joinXM x]
  | .flaskCreate s a b x => [joinA 25#8 (0#1 ++ s) 0#1 a b, joinXM x]
  | .flaskSeal s a x => [joinA 26#8 (0#1 ++ s) 0#1 a 132#8, joinXM x]
  | .flaskReopen s a x => [joinA 27#8 (0#1 ++ s) 0#1 a 132#8, joinXM x]
  | .flaskRetire s a x => [joinA 28#8 (0#1 ++ s) 0#1 a 132#8, joinXM x]
  | .flaskAcq s a x => [joinA 29#8 (0#1 ++ s) 0#1 a 132#8, joinXM x]
  | .flaskRel s a x => [joinA 30#8 (0#1 ++ s) 0#1 a 132#8, joinXM x]
  | .atomAddB32 d a b x => [joinA 32#8 d 0#1 a b, joinXM x]
  | .atomAddB64 d a b x => [joinA 33#8 d 0#1 a b, joinXM x]
  | .atomMinI32 d a b x => [joinA 34#8 d 0#1 a b, joinXM x]
  | .atomMaxI32 d a b x => [joinA 35#8 d 0#1 a b, joinXM x]
  | .atomMinN32 d a b x => [joinA 36#8 d 0#1 a b, joinXM x]
  | .atomMaxN32 d a b x => [joinA 37#8 d 0#1 a b, joinXM x]
  | .atomAndB32 d a b x => [joinA 38#8 d 0#1 a b, joinXM x]
  | .atomOrB32 d a b x => [joinA 39#8 d 0#1 a b, joinXM x]
  | .atomXorB32 d a b x => [joinA 40#8 d 0#1 a b, joinXM x]
  | .atomXchgB32 d a b x => [joinA 41#8 d 0#1 a b, joinXM x]
  | .atomXchgB64 d a b x => [joinA 42#8 d 0#1 a b, joinXM x]
  | .atomCasB32 d a b x => [joinA 43#8 d 0#1 a b, joinXM x]
  | .atomCasB64 d a b x => [joinA 44#8 d 0#1 a b, joinXM x]
  | .atomAddF32 d a b x => [joinA 45#8 d 0#1 a b, joinXM x]
  | .atomMinI64 d a b x => [joinA 46#8 d 0#1 a b, joinXM x]
  | .atomMaxI64 d a b x => [joinA 47#8 d 0#1 a b, joinXM x]
  | .fence a b x => [joinA 48#8 0#7 0#1 a b, joinXM x]
  | .barGroup => [joinA 49#8 0#7 0#1 0#8 0#8]
  | .barTeam => [joinA 50#8 0#7 0#1 0#8 0#8]
  | .barRole q => [joinA 51#8 0#7 0#1 0#8 (0#6 ++ q)]
  | .barRollcall => [joinA 52#8 0#7 0#1 0#8 0#8]
  | .copy a b x => [joinA 56#8 0#7 0#1 a b, joinXM x]
  | .gather a b x => [joinA 57#8 0#7 0#1 a b, joinXM x]
  | .coll a b x => [joinA 58#8 0#7 0#1 a b, joinXM x]
  | .engWait s a => [joinA 59#8 (0#1 ++ s) 0#1 a 132#8]
  | .lockAcq a x => [joinA 60#8 0#7 0#1 a 132#8, joinXM x]
  | .lockRel a x => [joinA 61#8 0#7 0#1 a 132#8, joinXM x]
  | .talloc d t f => [joinH 0#8 d 0#5 0#5 (0#4 ++ t) f]
  | .tfree a => [joinH 1#8 0#5 a 0#5 0#8 0#1]
  | .tgiveRing a k => [joinH 2#8 0#5 a 0#5 k 1#1]
  | .tgiveRole a q => [joinH 2#8 0#5 a 0#5 (0#6 ++ q) 0#1]
  | .ttakeRing d t k => [joinH 3#8 d 0#5 (0#1 ++ t) k 1#1]
  | .ttakeRole d t => [joinH 3#8 d 0#5 (0#1 ++ t) 0#8 0#1]
  | .tld h a b x => [joinHM 4#8 h 0#3 a b, joinXM x]
  | .tst h a b x => [joinHM 5#8 h 0#3 a b, joinXM x]
  | .tcvt d a s f => [joinH 6#8 d a (0#2 ++ s) 0#8 f]
  | .tspread d a q f => [joinH 7#8 d a (0#3 ++ q) 0#8 f]
  | .ttag h a b gs zv gb => [joinH 8#8 h a b 0#8 0#1, joinXS (0#3 ++ gb) (0#5 ++ zv ++ gs)]
  | .ttagXval h xval => [joinH 8#8 h 0#5 0#5 0#8 1#1, joinXS (xval.extractLsb' 8 8) (xval.extractLsb' 0 8)]
  | .mxAcq => [joinH 16#8 0#5 0#5 0#5 0#8 0#1]
  | .mxRel => [joinH 17#8 0#5 0#5 0#5 0#8 0#1]
  | .mxPass s a b n f => [joinH 18#8 (0#3 ++ s) a b n f]
  | .mxQpass q s a b n f => [joinH 19#8 (0#1 ++ q ++ s) a b n f]
  | .mxBpass s a b n f => [joinH 20#8 (0#3 ++ s) a b n f]
  | .mxStream ncl b x => [joinHM 21#8 (0#1 ++ ncl) 0#3 132#8 b, joinXM x]
  | .mxDrainMem a b x => [joinHM 22#8 0#5 0#3 a b, joinXM x]
  | .mxDrainTile d z h n f => [joinH 23#8 d (0#3 ++ z ++ h) 0#5 n f]
  | .mxDrainColl e z a b x => [joinHM 24#8 (0#3 ++ z ++ e) 0#3 a b, joinXM x]
  | .mxEpi h x => [joinHM 25#8 h 0#3 132#8 132#8, joinXM x]
  | .mxZero n f => [joinH 26#8 0#5 0#5 0#5 n f]
  | .hmPut d w a ks op => [joinA 0#8 d w a 132#8, joinXS (0#3 ++ op) ks]
  | .hmRput d w a ks => [joinA 1#8 d w a 132#8, joinXS 0#8 ks]
  | .hmGet d ks => [joinA 2#8 d 0#1 132#8 132#8, joinXS 0#8 ks]
  | .hmDone ks => [joinA 3#8 0#7 0#1 132#8 132#8, joinXS 0#8 ks]
  | .hmKscfgOpen d w a b ks => [joinA 4#8 d w a b, joinXS 0#8 ks]
  | .hmKscfgQuery d w ks => [joinA 4#8 d w 132#8 132#8, joinXS 1#8 ks]
  | .hmKscfgClose d w ks => [joinA 4#8 d w 132#8 132#8, joinXS 2#8 ks]
  | .hmGdrain d a b g => [joinA 5#8 d 0#1 a b, joinXS (0#4 ++ g.extractLsb' 8 4) (g.extractLsb' 0 8)]
  | .hmGreload d a b g => [joinA 6#8 d 0#1 a b, joinXS (0#4 ++ g.extractLsb' 8 4) (g.extractLsb' 0 8)]
  | .trap n => [joinA 0#8 0#7 0#1 132#8 n]
  | .rttResume => [joinA 1#8 0#7 0#1 144#8 132#8]
  | .rttEnd => [joinA 1#8 0#7 0#1 145#8 132#8]
  | .rdsys d s => [joinS 2#8 d s 0#4]
  | .wrsys a s => [joinS 3#8 a s 0#4]
  | .warnClr m => [joinA 4#8 0#7 0#1 132#8 (0#4 ++ m)]
  | .brk n => [joinA 5#8 0#7 0#1 132#8 n]
  | .ctrRd d k => [joinS 6#8 d (0#10 ++ k) 0#4]
  | .ctrCfg a k => [joinS 7#8 a (0#10 ++ k) 0#4]
  | .yield => [joinA 8#8 0#7 0#1 0#8 0#8]
  | .vregGrow n => [joinA 9#8 0#7 0#1 132#8 n]
  | .vregShrink n => [joinA 10#8 0#7 0#1 132#8 n]
  | .schedHint d w a b => [joinA 0#8 d w a b]
  | .pref d w a b x => [joinA 128#8 d w a b, joinXM x]
  | .evictHint d w a b x => [joinA 129#8 d w a b, joinXM x]
  | .unimplementedHint op d w a b ext =>
    if op.extractLsb' 7 1 == 0#1 then [joinA op d w a b] else [joinA op d w a b, ext]
  | .portTrained _ _ _ => []
  | .flitCheckFailure _ => []
  | .agentReadmission _ => []
  | .deadAcknowledgement _ _ => []
  | .hostDeathNotice _ => []
  | .deepSleepEntry => []
  | .debuggerResume _ => []
  | .linkDownHandshake => []

/-- The engine class whose opcode map holds the instruction (R195 to R199); 7, the reserved class, for an event. -/
def classOf (i : Instr) : Nat :=
  match i with
  | .votePoint _ _ => 7
  | .resultReturn _ _ => 7
  | .coalesceTimeout _ _ => 7
  | .storeDrain _ _ => 7
  | .homeRequest _ => 7
  | .walkComplete _ _ _ _ => 7
  | .stashFillReturn _ _ => 7
  | .stashReadRecall _ _ => 7
  | .stashWriteRecall _ _ => 7
  | .outstandingEntryFree _ _ => 7
  | .stickyQuotaWrite _ _ => 7
  | .flaskRequestAtHome _ => 7
  | .read _ _ _ _ => 7
  | .own _ _ _ _ => 7
  | .unhead _ _ _ _ => 7
  | .done _ _ _ => 7
  | .wb _ _ _ _ _ => 7
  | .purgeAnswerCopy _ _ _ _ => 7
  | .fetchAnswer _ _ _ _ _ => 7
  | .recallAnswer _ _ _ _ _ => 7
  | .fetch _ _ => 7
  | .recall _ _ => 7
  | .data _ _ _ _ _ _ => 7
  | .grant _ _ _ _ _ _ => 7
  | .purge _ _ _ => 7
  | .purgeAnswer _ _ _ _ => 7
  | .setfwd _ _ _ _ => 7
  | .setback _ _ _ _ => 7
  | .ack _ _ _ => 7
  | .notHead _ _ => 7
  | .stale _ _ _ => 7
  | .retry _ _ _ => 7
  | .retryResend _ => 7
  | .hostReadShared _ _ => 7
  | .hostReadExclusive _ _ => 7
  | .hostWriteHalf _ _ _ => 7
  | .hostReadNoCopy _ _ => 7
  | .hostWriteback _ _ _ => 7
  | .hostEvictNotice _ _ => 7
  | .bisnpinvResponse _ _ _ _ => 7
  | .bisnpdataResponse _ _ _ _ => 7
  | .hostSnoopTimeout _ => 7
  | .rdsharedData _ _ _ => 7
  | .rdownGrant _ _ _ => 7
  | .snpdata _ _ => 7
  | .snpinv _ _ => 7
  | .snpcur _ _ => 7
  | .bar2Read _ => 7
  | .bar2Write _ _ => 7
  | .otgerNack _ => 7
  | .migrate _ => 7
  | .release _ => 7
  | .migRqtailWrite _ _ => 7
  | .migrationLineCopy _ _ _ => 7
  | .migEpoch _ => 7
  | .agentReport _ _ => 7
  | .chainAnswerTimeout _ _ => 7
  | .managerProbeTimeout _ => 7
  | .dead _ _ => 7
  | .scanDone _ _ => 7
  | .resume _ => 7
  | .ticketGrant _ _ => 7
  | .engineStart _ => 7
  | .engineLinePerform _ _ _ => 7
  | .engineComplete _ => 7
  | .rollcallComplete _ => 7
  | .growGrant _ => 7
  | .growWaitLimit _ => 7
  | .growDeadlock _ => 7
  | .teamRotation _ _ => 7
  | .capabilityRevoke _ _ => 7
  | .sealClear _ => 7
  | .admissionRequest _ => 7
  | .admissionResult _ => 7
  | .iqTailWrite _ _ => 7
  | .iqErrClear _ => 7
  | .invS1Va _ => 7
  | .invS1All _ => 7
  | .invS2Ipa _ => 7
  | .invS2All _ => 7
  | .sync _ => 7
  | .syncComplete _ => 7
  | .lockRetry _ => 7
  | .tileOpComplete _ => 7
  | .reservationDispatch _ => 7
  | .passComplete _ _ => 7
  | .levelAging _ _ => 7
  | .ringWaitResume _ => 7
  | .streamCommand _ => 7
  | .streamEnd _ => 7
  | .hamperAtHome _ _ => 7
  | .hamperResultReturn _ => 7
  | .trapDelivery _ => 7
  | .prgResponse _ _ _ => 7
  | .priTimeout _ _ => 7
  | .sqTailWrite _ _ _ => 7
  | .sqErrClear _ _ => 7
  | .launchDescriptor _ _ => 7
  | .placement _ _ _ => 7
  | .launchCompletion _ => 7
  | .placementWaitLimit _ => 7
  | .quantumExpiry => 7
  | .preemptRequest _ _ => 7
  | .drainDeadline _ => 7
  | .freezeDeadline _ => 7
  | .freezeQuiesced _ => 7
  | .restore _ _ _ => 7
  | .keyTransfer _ _ _ _ _ => 7
  | .featMaskWrite _ _ => 7
  | .flrVf _ => 7
  | .flrPf => 7
  | .linkLoss => 7
  | .linkUp => 7
  | .hlossThaw => 7
  | .portTrainRetry _ => 7
  | .portTakedown _ => 7
  | .domEnWrite _ => 7
  | .domFormedWrite _ => 7
  | .powerWindow _ => 7
  | .tempCritical _ => 7
  | .mgmtFlr _ => 7
  | .moduleReset => 7
  | .readFaultLog => 7
  | .dumpState => 7
  | .recover _ => 7
  | .spdmRequest _ => 7
  | .pldmTelemetry => 7
  | .pldmFirmwareUpdate _ => 7
  | .firmwareHandover => 7
  | .coldReset _ => 7
  | .debugStateRequest _ _ _ => 7
  | .deepSleepWake => 7
  | .qrepDrain _ => 7
  | .qrepDrainDone => 7
  | .qrepRetest _ => 7
  | .qrepRetestDone _ _ => 7
  | .qrepReturn _ => 7
  | .hbmRetireRequest _ => 7
  | .hbmRetireCommit _ => 7
  | .restripeDone => 7
  | .registerWrite _ _ _ => 7
  | .addB32 _ _ _ _ => 0
  | .addB32Imm _ _ _ _ => 0
  | .subB32 _ _ _ _ => 0
  | .subB32Imm _ _ _ _ => 0
  | .addSatI32 _ _ _ _ => 0
  | .addSatN32 _ _ _ _ => 0
  | .subSatI32 _ _ _ _ => 0
  | .subSatN32 _ _ _ _ => 0
  | .mulLoB32 _ _ _ _ => 0
  | .mulHiI32 _ _ _ _ => 0
  | .mulHiN32 _ _ _ _ => 0
  | .mulWideI32 _ _ _ _ => 0
  | .mulWideN32 _ _ _ _ => 0
  | .divI32 _ _ _ _ => 0
  | .divN32 _ _ _ _ => 0
  | .remI32 _ _ _ _ => 0
  | .remN32 _ _ _ _ => 0
  | .minI32 _ _ _ _ => 0
  | .maxI32 _ _ _ _ => 0
  | .minN32 _ _ _ _ => 0
  | .maxN32 _ _ _ _ => 0
  | .shlB32 _ _ _ _ => 0
  | .shrN32 _ _ _ _ => 0
  | .shrI32 _ _ _ _ => 0
  | .rotlB32 _ _ _ _ => 0
  | .rotrB32 _ _ _ _ => 0
  | .shlB32Imm _ _ _ _ => 0
  | .shrN32Imm _ _ _ _ => 0
  | .shrI32Imm _ _ _ _ => 0
  | .rotlB32Imm _ _ _ _ => 0
  | .rotrB32Imm _ _ _ _ => 0
  | .popcB32 _ _ _ => 0
  | .clzB32 _ _ _ => 0
  | .ctzB32 _ _ _ => 0
  | .brevB32 _ _ _ => 0
  | .bfxN32 _ _ _ _ _ => 0
  | .bfxI32 _ _ _ _ _ => 0
  | .bfiB32 _ _ _ _ _ _ => 0
  | .ternB32 _ _ _ _ _ _ => 0
  | .andB32 _ _ _ _ => 0
  | .orB32 _ _ _ _ => 0
  | .xorB32 _ _ _ _ => 0
  | .notB32 _ _ _ => 0
  | .andB32Imm _ _ _ _ => 0
  | .orB32Imm _ _ _ _ => 0
  | .xorB32Imm _ _ _ _ => 0
  | .movB32 _ _ _ => 0
  | .movB32Imm _ _ _ _ => 0
  | .addB64 _ _ _ _ => 0
  | .subB64 _ _ _ _ => 0
  | .mulLoB64 _ _ _ _ => 0
  | .minI64 _ _ _ _ => 0
  | .maxI64 _ _ _ _ => 0
  | .minN64 _ _ _ _ => 0
  | .maxN64 _ _ _ _ => 0
  | .shlB64 _ _ _ _ => 0
  | .shrN64 _ _ _ _ => 0
  | .shrI64 _ _ _ _ => 0
  | .movB64Imm _ _ _ => 0
  | .smovB64 _ _ => 0
  | .selB32 _ _ _ _ _ => 0
  | .selB64 _ _ _ _ _ => 0
  | .setpEqB32 _ _ _ => 0
  | .setpNeB32 _ _ _ => 0
  | .setpLtI32 _ _ _ => 0
  | .setpLeI32 _ _ _ => 0
  | .setpGtI32 _ _ _ => 0
  | .setpGeI32 _ _ _ => 0
  | .setpLtN32 _ _ _ => 0
  | .setpLeN32 _ _ _ => 0
  | .setpGtN32 _ _ _ => 0
  | .setpGeN32 _ _ _ => 0
  | .setpEqB64 _ _ _ => 0
  | .setpNeB64 _ _ _ => 0
  | .setpLtI64 _ _ _ => 0
  | .setpLeI64 _ _ _ => 0
  | .setpLtN64 _ _ _ => 0
  | .setpLeN64 _ _ _ => 0
  | .setpEqB32Imm _ _ _ => 0
  | .setpNeB32Imm _ _ _ => 0
  | .setpLtI32Imm _ _ _ => 0
  | .setpLeI32Imm _ _ _ => 0
  | .setpGtI32Imm _ _ _ => 0
  | .setpGeI32Imm _ _ _ => 0
  | .andPred _ _ _ => 0
  | .orPred _ _ _ => 0
  | .xorPred _ _ _ => 0
  | .notPred _ _ => 0
  | .ptrAdd _ _ _ _ _ _ => 0
  | .ptrDiff _ _ _ _ => 0
  | .ptrAddImm _ _ _ _ => 0
  | .bra _ _ _ => 0
  | .jmp _ => 0
  | .call _ _ => 0
  | .callInd _ _ => 0
  | .ret _ => 0
  | .conv => 0
  | .exit => 0
  | .loop _ _ _ => 0
  | .chkb _ _ _ => 0
  | .chkland _ => 0
  | .chkaln _ _ => 0
  | .addF32 _ _ _ _ _ => 1
  | .subF32 _ _ _ _ _ => 1
  | .mulF32 _ _ _ _ _ => 1
  | .fmaF32 _ _ _ _ _ => 1
  | .addF16x2 _ _ _ _ _ => 1
  | .mulF16x2 _ _ _ _ _ => 1
  | .fmaF16x2 _ _ _ _ _ => 1
  | .addBf16x2 _ _ _ _ _ => 1
  | .mulBf16x2 _ _ _ _ _ => 1
  | .fmaBf16x2 _ _ _ _ _ => 1
  | .minF32 _ _ _ _ => 1
  | .maxF32 _ _ _ _ => 1
  | .absF32 _ _ _ => 1
  | .negF32 _ _ _ => 1
  | .rcpApproxF32 _ _ _ => 1
  | .rsqrtApproxF32 _ _ _ => 1
  | .sqrtApproxF32 _ _ _ => 1
  | .exp2ApproxF32 _ _ _ => 1
  | .log2ApproxF32 _ _ _ => 1
  | .sinApproxF32 _ _ _ => 1
  | .cosApproxF32 _ _ _ => 1
  | .tanhApproxF32 _ _ _ => 1
  | .sqrtF32 _ _ _ _ => 1
  | .setpEqF32 _ _ _ => 1
  | .setpNeF32 _ _ _ => 1
  | .setpLtF32 _ _ _ => 1
  | .setpLeF32 _ _ _ => 1
  | .setpGtF32 _ _ _ => 1
  | .setpGeF32 _ _ _ => 1
  | .setpNanF32 _ _ _ => 1
  | .cvtF32I32 _ _ _ _ => 1
  | .cvtF32N32 _ _ _ _ => 1
  | .cvtI32F32 _ _ _ _ => 1
  | .cvtN32F32 _ _ _ _ => 1
  | .cvtF16F32 _ _ _ _ => 1
  | .cvtBf16F32 _ _ _ _ => 1
  | .cvtF32F16 _ _ _ => 1
  | .cvtF32Bf16 _ _ _ => 1
  | .cvtSatF8aF32 _ _ _ => 1
  | .cvtNanF8aF32 _ _ _ => 1
  | .cvtSatF8bF32 _ _ _ => 1
  | .cvtNanF8bF32 _ _ _ => 1
  | .cvtSatF4F32 _ _ _ => 1
  | .cvtF32F8a _ _ _ => 1
  | .cvtF32F8b _ _ _ => 1
  | .cvtF32F4 _ _ _ _ => 1
  | .cvtSatI8I32 _ _ _ => 1
  | .cvtI32I8 _ _ _ => 1
  | .quantQ8F32 _ _ _ _ => 1
  | .quantQ4F32 _ _ _ _ => 1
  | .dequantF32Q8 _ _ _ _ => 1
  | .dequantF32Q4 _ _ _ _ => 1
  | .packB16 _ _ _ _ => 1
  | .packB8 _ _ _ _ => 1
  | .packB4 _ _ _ _ => 1
  | .unpackB16 _ _ _ _ => 1
  | .unpackB8 _ _ _ _ => 1
  | .unpackB4 _ _ _ _ => 1
  | .xlPick _ _ _ _ => 1
  | .xlRol _ _ _ _ => 1
  | .xlRor _ _ _ _ => 1
  | .xlBfly _ _ _ _ => 1
  | .redAddB32 _ _ _ => 1
  | .redMinI32 _ _ _ => 1
  | .redMaxI32 _ _ _ => 1
  | .redMinN32 _ _ _ => 1
  | .redMaxN32 _ _ _ => 1
  | .redAndB32 _ _ _ => 1
  | .redOrB32 _ _ _ => 1
  | .redXorB32 _ _ _ => 1
  | .redAddF32 _ _ _ => 1
  | .redMinF32 _ _ _ => 1
  | .redMaxF32 _ _ _ => 1
  | .minidxN32 _ _ _ => 1
  | .minidxI32 _ _ _ => 1
  | .minidxF32 _ _ _ => 1
  | .scanInclAddB32 _ _ _ => 1
  | .scanExclAddB32 _ _ _ => 1
  | .scanInclMaxI32 _ _ _ => 1
  | .scanInclMinI32 _ _ _ => 1
  | .pollAll _ _ => 1
  | .pollAny _ _ => 1
  | .pollMask _ _ _ => 1
  | .pollSame _ _ => 1
  | .ldN8 _ _ _ _ => 2
  | .ldI8 _ _ _ _ => 2
  | .ldN16 _ _ _ _ => 2
  | .ldI16 _ _ _ _ => 2
  | .ldB32 _ _ _ _ => 2
  | .ldB64 _ _ _ _ => 2
  | .ldB128 _ _ _ _ => 2
  | .stB8 _ _ _ _ => 2
  | .stB16 _ _ _ _ => 2
  | .stB32 _ _ _ _ => 2
  | .stB64 _ _ _ _ => 2
  | .stB128 _ _ _ _ => 2
  | .ldsB32 _ _ _ _ => 2
  | .ldsB64 _ _ _ _ => 2
  | .ldsB128 _ _ _ _ => 2
  | .stsB32 _ _ _ _ => 2
  | .stsB64 _ _ _ _ => 2
  | .stsB128 _ _ _ _ => 2
  | .stashMap _ _ _ _ => 2
  | .stashUnmap _ _ => 2
  | .stashFlush _ _ => 2
  | .flaskCreate _ _ _ _ => 2
  | .flaskSeal _ _ _ => 2
  | .flaskReopen _ _ _ => 2
  | .flaskRetire _ _ _ => 2
  | .flaskAcq _ _ _ => 2
  | .flaskRel _ _ _ => 2
  | .atomAddB32 _ _ _ _ => 2
  | .atomAddB64 _ _ _ _ => 2
  | .atomMinI32 _ _ _ _ => 2
  | .atomMaxI32 _ _ _ _ => 2
  | .atomMinN32 _ _ _ _ => 2
  | .atomMaxN32 _ _ _ _ => 2
  | .atomAndB32 _ _ _ _ => 2
  | .atomOrB32 _ _ _ _ => 2
  | .atomXorB32 _ _ _ _ => 2
  | .atomXchgB32 _ _ _ _ => 2
  | .atomXchgB64 _ _ _ _ => 2
  | .atomCasB32 _ _ _ _ => 2
  | .atomCasB64 _ _ _ _ => 2
  | .atomAddF32 _ _ _ _ => 2
  | .atomMinI64 _ _ _ _ => 2
  | .atomMaxI64 _ _ _ _ => 2
  | .fence _ _ _ => 2
  | .barGroup => 2
  | .barTeam => 2
  | .barRole _ => 2
  | .barRollcall => 2
  | .copy _ _ _ => 2
  | .gather _ _ _ => 2
  | .coll _ _ _ => 2
  | .engWait _ _ => 2
  | .lockAcq _ _ => 2
  | .lockRel _ _ => 2
  | .talloc _ _ _ => 3
  | .tfree _ => 3
  | .tgiveRing _ _ => 3
  | .tgiveRole _ _ => 3
  | .ttakeRing _ _ _ => 3
  | .ttakeRole _ _ => 3
  | .tld _ _ _ _ => 3
  | .tst _ _ _ _ => 3
  | .tcvt _ _ _ _ => 3
  | .tspread _ _ _ _ => 3
  | .ttag _ _ _ _ _ _ => 3
  | .ttagXval _ _ => 3
  | .mxAcq => 3
  | .mxRel => 3
  | .mxPass _ _ _ _ _ => 3
  | .mxQpass _ _ _ _ _ _ => 3
  | .mxBpass _ _ _ _ _ => 3
  | .mxStream _ _ _ => 3
  | .mxDrainMem _ _ _ => 3
  | .mxDrainTile _ _ _ _ _ => 3
  | .mxDrainColl _ _ _ _ _ => 3
  | .mxEpi _ _ => 3
  | .mxZero _ _ => 3
  | .hmPut _ _ _ _ _ => 4
  | .hmRput _ _ _ _ => 4
  | .hmGet _ _ => 4
  | .hmDone _ => 4
  | .hmKscfgOpen _ _ _ _ _ => 4
  | .hmKscfgQuery _ _ _ => 4
  | .hmKscfgClose _ _ _ => 4
  | .hmGdrain _ _ _ _ => 4
  | .hmGreload _ _ _ _ => 4
  | .trap _ => 5
  | .rttResume => 5
  | .rttEnd => 5
  | .rdsys _ _ => 5
  | .wrsys _ _ => 5
  | .warnClr _ => 5
  | .brk _ => 5
  | .ctrRd _ _ => 5
  | .ctrCfg _ _ => 5
  | .yield => 5
  | .vregGrow _ => 5
  | .vregShrink _ => 5
  | .schedHint _ _ _ _ => 6
  | .pref _ _ _ _ _ => 6
  | .evictHint _ _ _ _ _ => 6
  | .unimplementedHint _ _ _ _ _ _ => 6
  | .portTrained _ _ _ => 7
  | .flitCheckFailure _ => 7
  | .agentReadmission _ => 7
  | .deadAcknowledgement _ _ => 7
  | .hostDeathNotice _ => 7
  | .deepSleepEntry => 7
  | .debuggerResume _ => 7
  | .linkDownHandshake => 7

end Sys2Proof
end

