-- ==== Sys2Proof/Machine/Issue.lean ====
section
/-! DEFINITION. How a step is chosen and what surrounds an instruction: the ports' turns (R165), the end
of a clause (R179), the release of waiting lanes (R169, R170, R172), and the placing of one instruction
where the machine takes its next one. -/

namespace Sys2Proof.Machine

/-- What the machine does next. -/
inductive Turn where
  /-- an instruction of a pick, and the words it has -/
  | instr (i : Instr) (n : Nat) (s : State)
  /-- a step of another unit or of the surroundings -/
  | event (e : Instr) (s : State)
  /-- a cycle in which nothing performs -/
  | idle (s : State)
  /-- the words at the issue point are no instruction -/
  | neverIssued
  /-- the agenda holds an instruction form -/
  | notAnEvent

/-- The clock runs on by a free number of base-die clocks (R414, log 4). -/
def State.tick (s : State) : State :=
  { s with clock := s.clock + BitVec.ofNat 64 (Config.ticks s.fresh), fresh := s.fresh + 1 }

/-- The turn of the ports: the first pick of the list issues its next instruction; a pick with no words
left gives its port back. -/
noncomputable def State.portTurn (s : State) : Turn :=
  match s.ports with
  | [] => .idle s
  | p :: ps =>
    if p.words.length ≤ p.pos then .idle { s with ports := ps }
    else
      match decode p.cls (p.words.drop p.pos) with
      | .ok (i, rest) =>
        .instr i (p.words.length - p.pos - rest.length) { s with ports := ps, cur := some { p with wrote := [] } }
      | .error _ => .neverIssued

/-- A lane of the pick after its instruction: at the next word, or past the clause, where YIELD takes it
out of the next vote point (R184). -/
def Pick.advance (p : Pick) (n : Nat) (l : Lane) : Lane :=
  let l' := { l.arrive (p.placeAfter n l) with age := 0 }
  if p.yields && !decide (p.pos + n < p.words.length) then { l' with skip := true } else l'

/-- The issuing pick moves past its instruction of `n` words and goes to the end of the ports' turns. -/
def State.afterInstr (s : State) (n : Nat) : State :=
  match s.cur with
  | none => s
  | some p =>
    let s := s.mapPick fun _ _ l => p.advance n l
    let more := decide (p.pos + n < p.words.length) && p.members.any fun e => e.2 != 0#64
    let p := if more then { p with pos := p.pos + n }
      else { p with pos := p.words.length, members := [] }
    { s with cur := none, ports := s.ports ++ [p] }

/-! ### Waiting lanes -/

/-- The register bank that a lane runs on: 0 the group's own, and one for each frame. Lanes of one bank
are live together; the lanes of a handler rejoin the others at their `rtt` (R446, log 17). -/
def Group.bank (g : Group) (i : Nat) : Nat := (g.frames.filter fun f => f.sub.lanes.getLsbD i).length

/-- The live lanes of a bank (R170, log 17). -/
def Group.liveIn (g : Group) (b : Nat) : BitVec 64 := g.maskOf fun i l => l.live && g.bank i == b

/-- Two lanes stand at one counter, in one pass (R293, R296). -/
def Lane.sameCounter (l k : Lane) : Bool := l.pc == k.pc && l.widx == k.widx && l.pass == k.pass

/-- The lanes of a mask all stand at one counter. -/
def Group.together (g : Group) (m : BitVec 64) : Bool :=
  match g.lowest m fun _ _ => true with
  | none => true
  | some (_, l) => (g.maskOf fun i k => m.getLsbD i && !l.sameCounter k) == 0#64

/-- Lanes of a group wait at the issuing instruction of `n` words, and leave the pick. -/
def State.waitLanes (s : State) (gid : Nat) (m : BitVec 64) (n : Nat) (w : Wait) : State :=
  match s.cur with
  | none => s
  | some p => (s.updGroup gid fun g => g.mapLanes m fun _ l => p.wait n w l).leave gid m

/-- The lanes of a bank that already wait at the convergent instruction that a pick issues. -/
def Group.waitersAt (g : Group) (p : Pick) (b : Nat) (first : Lane) : BitVec 64 :=
  g.maskOf fun i l => l.status == .waiting .converge && g.bank i == b && l.pc == p.hdr &&
    l.widx == p.pos + 1 && l.pass == first.pass

/-- The counter of the instruction that a lane of the pick stands at. -/
def Pick.counter (p : Pick) (l : Lane) : DWord × Nat × Nat := (p.hdr, p.pos + 1, l.pass)

/-- A convergent instruction has been performed by lanes of a bank: the lanes that were parked, or that a handler runs,
have missed it; and a lane that had missed it and takes part has performed it (R171). -/
def Group.noteConverged (g : Group) (c : DWord × Nat × Nat) (b : Nat) (by' : BitVec 64) : Group :=
  { g with lanes := g.lanes.mapIdx fun i l =>
      if by'.getLsbD i then { l with missed := l.missed.erase c }
      else if (l.status == .parked && decide (b ≤ g.bank i)) || (l.live && decide (b < g.bank i)) then
        { l with missed := c :: l.missed }
      else l }

/-- The lanes of a mask wait at issue. -/
def Group.heldBack (g : Group) (m : BitVec 64) : Bool := (g.maskOf fun i l => m.getLsbD i && l.status == .waiting .resource) != 0#64

/-- After a convergent instruction: the lanes that waited for it go on, and the others have missed it, unless it waits at
issue itself. -/
def Group.converged (g : Group) (c : DWord × Nat × Nat) (b : Nat) (w all : BitVec 64) : Group :=
  let h := g.mapLanes w fun _ l => if l.status = .waiting .converge then l.goOn else l
  if g.heldBack all then h else h.noteConverged c b all

/-- After a convergent instruction that only some of the lanes at it were to perform: the others are as they were. A trap
is every lane's. -/
def Group.convergedLate (g old : Group) (c : DWord × Nat × Nat) (b : Nat) (late rest : BitVec 64) : Group :=
  if g.parkedSubs.length ≠ old.parkedSubs.length then g
  else
    let h : Group := { g with lanes := g.lanes.mapIdx fun i l => if rest.getLsbD i then (old.lanes[i]?).getD l else l }
    if g.heldBack late then h else h.noteConverged c b late

/-- CONVERGENT EXECUTION (R170, R171, R314): the lanes of a pick that reach the instruction, of `n` words,
wait until every live lane of their bank is at it; then `perform` runs once for all of them. Lanes that have missed a
performance perform it at once, beside the lanes that are at that counter then, which go on waiting (log 120). -/
def State.convergeBank (s : State) (n : Nat) (perform : State → Nat → BitVec 64 → State) (gid b : Nat)
    (m : BitVec 64) : State :=
  match s.cur, s.group? gid with
  | some p, some g =>
    let mine := g.maskOf fun i _ => m.getLsbD i && g.bank i == b
    match g.lowest mine fun _ _ => true with
    | none => s
    | some (_, first) =>
      let c := p.counter first
      let w := g.waitersAt p b first
      let all := mine ||| w
      let late := g.maskOf fun i l => mine.getLsbD i && l.missed.contains c
      if all = g.liveIn b then (perform s gid all).updGroup gid fun g => g.converged c b w all
      else
        let s := s.waitLanes gid (mine &&& ~~~late) n .converge
        if late = 0#64 then s
        else
          match s.group? gid with
          | none => s
          | some g => (perform s gid all).updGroup gid fun h => h.convergedLate g c b late (all &&& ~~~late)
  | _, _ => s

/-- A convergent instruction of the pick. -/
def State.converge (s : State) (n : Nat) (perform : State → Nat → BitVec 64 → State) : State :=
  s.holdAwaiting.forPick fun s gid m => [0, 1, 2].foldl (fun s b => s.convergeBank n perform gid b m) s

/-- Releases the lanes that wait at `conv` once every lane of the group that has not exited is there (R169). -/
def Group.settleConv (g : Group) : Group :=
  let w := g.maskOf fun _ l => l.status == .waiting .conv
  let m := g.maskOf fun _ l => l.status != .exited
  if w != 0#64 && w == m && g.together w then g.mapLanes w fun _ l => l.goOn else g

/-- The lanes of a bank that wait at a convergent instruction execute it once all live lanes of the bank
wait there: the last of the others has exited or been parked (R170). -/
def Group.settleConverge (g : Group) (b : Nat) : Group :=
  let w := g.maskOf fun i l => l.status == .waiting .converge && g.bank i == b
  if w != 0#64 && w == g.liveIn b && g.together w then
    g.mapLanes w fun _ l => { l with status := .ready, resume := none } else g

/-- `CONV_MISMATCH` for every waiting lane of a bank whose live lanes all wait at `conv`, a convergent
instruction or a barrier (R336), but not all at one counter; they park at the place of the lowest lane (R172). -/
def Group.settleMismatch (g : Group) (b : Nat) : Group :=
  let w := g.maskOf fun i l =>
    (match l.status with
      | .waiting .conv => true
      | .waiting .converge => true
      | .waiting (.barrier _) => true
      | _ => false) && g.bank i == b
  if w != 0#64 && w == g.liveIn b && !g.together w then
    match g.lowest w fun _ _ => true with
    | none => g
    | some (_, l) => g.park (fun _ => l.place) none [] (trapsOf w g.lanes.length (causeOf cConvMismatch 0) (noVA cConvMismatch))
  else g

/-- A group ends when none of its lanes is live or parked and its counters are 0 (R294). -/
def Group.settleEnd (g : Group) : Group :=
  if (g.lanes.all fun l => l.status == .exited) && g.q0 == [] && g.q1 == [] && g.q2 == [] && g.q3 == [] then
    { g with ended := true }
  else g

/-- The releases and mismatches that a group's own lanes bring about. -/
def Group.settle (g : Group) : Group :=
  let g := g.settleConv
  let g := [0, 1, 2].foldl (fun g b => (g.settleConverge b).settleMismatch b) g
  g.settleEnd

/-! ### Placing one instruction (log 8) -/

/-- A lane of a group that has just been placed (R85), in a clause whose guard is true. -/
def Lane.placed : Lane := { Lane.zero with guard := true, widx := 1 }

/-- A resident group of eight lanes with nothing in its registers (R85, R436). -/
def Group.placed (gid : Nat) : Group :=
  { gid := gid, launch := 0, team := 0, index := 0, role := 0, rank := 0, width := 8, core := 0, slot := 0,
    pos := 0, row := 0, pack := 0, budget := 128, resident := true, frozen := false, ended := false,
    lanes := List.replicate 8 Lane.placed, s := Vector.replicate 64 0, h := Vector.replicate 32 0,
    q0 := [], q1 := [], q2 := [], q3 := [], spend := [], warn := 0, trapMask := 0, trapCause := 0, trapPC := 0,
    trapVA := 0, trapVec := 0, ctxId := 0, ctrs := Vector.replicate 4 default, engErr := 0, epi := none,
    inflight := [], parkedSubs := [], frames := [], dropped := false, arrived := none,
    growLate := false, growSeq := 0, joined := 0 }

/-- The machine with a new group whose port has just issued the header of a clause that holds the words of
one instruction, and with the next turn given to that port. The clause's class is the lowest in which the
words are an instruction (log 7). -/
noncomputable def State.withClause (s : State) (ws : List Word) : State :=
  let gid := s.sched.nextGid
  let fetched := match firstClass [0, 1, 2, 3, 4, 5, 6] ws with
    | some (c, _, rest) => (c, ws.take (ws.length - rest.length))
    | none => (0, ws)
  let p : Pick :=
    { core := 0, slot := 0, port := 0, hdr := 0, cls := fetched.1, words := fetched.2, pos := 0,
      yields := false, members := [(gid, 0xFF#64)], wrote := [] }
  { s with agenda := none :: s.agenda, groups := s.groups ++ [Group.placed gid], ports := p :: s.ports,
           sched := { s.sched with nextGid := gid + 1 } }

end Sys2Proof.Machine
end

