-- ==== Sys2Proof/Machine/Pages.lean ====
section
/-! DEFINITION. Pages (R26 to R36): kinds of access, the ranges of physical addresses, the fields of table entries,
what a translation gives, and the seal table (R47, R48, R52). -/

namespace Sys2Proof.Machine

/-- Kinds of access, with the KIND codes of R510. -/
inductive AccKind where
  | load
  | store
  | atomic
  | fetch
  | fill
  | writeBack
  deriving DecidableEq, Repr

def AccKind.code : AccKind → Nat
  | .load => 0
  | .store => 1
  | .atomic => 2
  | .fetch => 3
  | .fill => 4
  | .writeBack => 5

/-- The access needs WR (R38, check 5). -/
def AccKind.writes : AccKind → Bool
  | .store => true
  | .atomic => true
  | .writeBack => true
  | .load => false
  | .fetch => false
  | .fill => false

/-- First page past HBM, and the bounds of the host window, in 64 KiB pages (R26). -/
def hbmPages : Nat := 0x00C00000
def hostLo : Nat := 0x40000000
def hostHi : Nat := 0x80000000
def isHbm (page : Nat) : Bool := decide (page < hbmPages)
def isHost (page : Nat) : Bool := decide (hostLo ≤ page) && decide (page < hostHi)

/-- An address of the protected carve-out (R27). -/
def State.inCarve (s : State) (pa : Nat) : Bool :=
  decide (s.trusted.base ≤ pa) && decide (pa < s.trusted.base + s.trusted.size)

/-- A well-formed non-leaf entry, but for the place of its next table (R29, R32). -/
def nonLeafOk (e : DWord) : Bool := fldN e 48 16 == 0 && fldN e 1 15 == 0

/-- Fields of a leaf (R30). -/
def leafPpn (e : DWord) : Nat := fldN e 16 32
def leafNode (e : DWord) : Nat := fldN e 48 12
def leafCoh (e : DWord) : BitVec 2 := fld e 3 2
def leafRet (e : DWord) : BitVec 2 := fld e 5 2
def leafMig (e : DWord) : Bool := e.getLsbD 7
def leafRemote (e : DWord) : Bool := e.getLsbD 8
def leafRd (e : DWord) : Bool := e.getLsbD 1
def leafWr (e : DWord) : Bool := e.getLsbD 2

/-- The rules of R32 on REMOTE, NODE and the host window. -/
def placeOk (ppn : Nat) (coh : BitVec 2) (remote : Bool) (node : Nat) : Bool :=
  (remote || node == 0) && (!isHost ppn || coh == 2#2) && !(remote && coh == 1#2) &&
    (remote || isHbm ppn || isHost ppn)

/-- A well-formed leaf that names a physical page (R32). -/
def leafOk (e : DWord) : Bool :=
  leafCoh e != 3#2 && fldN e 60 4 == 0 && fldN e 11 5 == 0 &&
    placeOk (leafPpn e) (leafCoh e) (leafRemote e) (leafNode e)

/-- A well-formed stage-1 leaf over stage 2: its page is guest-physical, and REMOTE must be 0 (R36). -/
def leafOkGuest (e : DWord) : Bool :=
  leafCoh e != 3#2 && fldN e 60 4 == 0 && fldN e 11 5 == 0 && !leafRemote e && leafNode e == 0

/-- The wider coherence class (R36). -/
def widerCoh (a b : BitVec 2) : BitVec 2 := if a.toNat ≤ b.toNat then b else a

/-- A translation that has passed the checks of R38. -/
structure Trans where
  ppn : Nat
  coh : BitVec 2
  ret : BitVec 2
  mig : Bool
  remote : Bool
  node : Nat
  deriving DecidableEq, Repr

/-- Physical byte address of a translated virtual address. -/
def Trans.pa (t : Trans) (va : DWord) : Nat := 65536 * t.ppn + va.toNat % 65536

/-- The page of a virtual address. -/
def pageOf (va : DWord) : Nat := va.toNat / 65536

/-- Seal-table entry of a page. -/
def State.seal (s : State) (ppn : Nat) : DWord := alookup s.trusted.seals ppn 0
def sealedBit (e : DWord) : Bool := e.getLsbD 0
def pendingBit (e : DWord) : Bool := e.getLsbD 1
def sealKernel (e : DWord) : Nat := fldN e 16 24
def sealBitmap (e : DWord) : Nat := fldN e 40 24

/-- A write to a line of an HBM page is refused: SEALED or PENDING is set, or it lies in the carve-out
(R27, R52). -/
def State.refusesWrite (s : State) (line : Nat) : Bool :=
  let ppn := line / 512
  (isHbm ppn && (sealedBit (s.seal ppn) || pendingBit (s.seal ppn))) || s.inCarve (128 * line)

end Sys2Proof.Machine
end

