-- ==== Sys2Proof/Machine/Home.lean ====
section
/-! DEFINITION. Lines at their homes (R55 to R65, R72, R95 to R109): the slice and set of a line, allocation and
victims in a slice, what an access waits for before it performs, the queue of a line, and the L1 and the
coalescing buffer of a core as a home meets them. -/

namespace Sys2Proof.Machine

/-! ### Keys: a line of this module, or a line of another with its node above it -/

def remoteKey (node line : Nat) : Nat := (node + 1) * 2 ^ 41 + line
def keyLine (k : Nat) : Nat := k % 2 ^ 41
def keyNode (k : Nat) : Option Nat := if k < 2 ^ 41 then none else some (k / 2 ^ 41 - 1)
def lineKey (remote : Bool) (node line : Nat) : Nat := if remote then remoteKey node line else line
def Trans.key (t : Trans) (va : DWord) : Nat := lineKey t.remote t.node (t.pa va / 128)
def Trans.attr (t : Trans) : Attr :=
  { coh := t.coh, ret := t.ret, mig := t.mig, remote := t.remote, node := t.node }

/-- Lines of HBM and of the host window (R26). -/
def isHbmLine (line : Nat) : Bool := isHbm (line / 512)
def isHostLine (line : Nat) : Bool := isHost (line / 512)

/-- Home slice of a line (R55). -/
def sliceOf (line : Nat) : Nat :=
  line % 256 ^^^ line / 2 ^ 8 % 256 ^^^ line / 2 ^ 16 % 256 ^^^ line / 2 ^ 24 % 256 ^^^ line / 2 ^ 32 % 256 ^^^
    line / 2 ^ 40 % 2

/-- Set of a line within its slice (log 23). -/
def setOf (line : Nat) : Nat := line / 256 % 2048

/-- Base die of a slice (R55). -/
def dieOfSlice (slice : Nat) : Nat := slice / 64

/-! ### Chain pointers (R94) -/

def nullPtr : ChainPtr := 0#37
def mkPtr (kind node slice set way : Nat) : ChainPtr :=
  BitVec.ofNat 2 kind ++ BitVec.ofNat 12 node ++ BitVec.ofNat 8 slice ++ BitVec.ofNat 11 set ++ BitVec.ofNat 4 way
def ptrKind (p : ChainPtr) : Nat := fldN p 35 2
def ptrNode (p : ChainPtr) : Nat := fldN p 23 12
/-- Node identifier of this module (R475). -/
def State.thisNode (s : State) : Nat := fldN s.regs.domNode 0 12

/-! ### Home tags -/

/-- Home chain states (R95). -/
def hstU : BitVec 3 := 0
def hstSH : BitVec 3 := 1
def hstEX : BitVec 3 := 2
def hstPG : BitVec 3 := 3
def hstRC : BitVec 3 := 4

/-- Caching states (R96). -/
def cstI : BitVec 4 := 0
def cstRPEND : BitVec 4 := 1
def cstRATT : BitVec 4 := 2
def cstS : BitVec 4 := 3
def cstUNLINK : BitVec 4 := 4
def cstWPEND : BitVec 4 := 5
def cstWALK : BitVec 4 := 6
def cstE : BitVec 4 := 7
def cstM : BitVec 4 := 8

def State.mapHome (s : State) (f : Home → Home) : State := { s with home := f s.home }
def State.tag? (s : State) (key : Nat) : Option HomeTag := s.home.tags.find? fun t => t.line == key
def State.updTag (s : State) (key : Nat) (f : HomeTag → HomeTag) : State :=
  s.mapHome fun h => { h with tags := h.tags.map fun t => if t.line = key then f t else t }
def State.dropTag (s : State) (key : Nat) : State :=
  s.mapHome fun h => { h with tags := h.tags.filter fun t => t.line != key,
                              caches := h.caches.filter fun c => c.line != key }
def State.cacheTag? (s : State) (key : Nat) : Option CacheTag := s.home.caches.find? fun c => c.line == key
def State.updCache (s : State) (key : Nat) (f : CacheTag → CacheTag) : State :=
  s.mapHome fun h => { h with caches := h.caches.map fun c => if c.line = key then f c else c }

/-- Pointer to the home, whose way a requester does not know and gives as 0 (log 110), and to an entry of a caching
slice of this module. -/
def homePtrOf (node line : Nat) : ChainPtr := mkPtr 2 node (sliceOf line) (setOf line) 0
def State.selfPtr (s : State) (key : Nat) : ChainPtr :=
  mkPtr 1 s.thisNode (sliceOf (keyLine key)) (setOf (keyLine key))
    (match s.tag? key with
      | some t => t.way
      | none => 0)

/-! ### Chain messages (R97) -/

/-- Incarnation of an agent. -/
def State.incOf (s : State) (agent : Nat) : BitVec 8 := alookup s.plat.incs agent 0

/-- Node of a key's home. -/
def homeNode (key : Nat) : Nat := (keyNode key).getD 0
def homePtr (key : Nat) : ChainPtr := homePtrOf (homeNode key) (keyLine key)

/-- Sends a chain message about a line, with the home's node and the sender's incarnation. -/
def State.sendChain (s : State) (key : Nat) (src dst : ChainPtr) (m : ChainMsg) : State :=
  s.send (.chain (keyLine key) ((keyNode key).getD s.thisNode) (s.incOf s.thisNode) src dst m)

/-- A caching entry of this module to its home, and to another entry. -/
def State.toHome (s : State) (key : Nat) (m : ChainMsg) : State := s.sendChain key (s.selfPtr key) (homePtr key) m
def State.toEntry (s : State) (key : Nat) (dst : ChainPtr) (m : ChainMsg) : State :=
  s.sendChain key (s.selfPtr key) dst m

/-- The home on this module to an entry. -/
def State.fromHome (s : State) (line : Nat) (dst : ChainPtr) (m : ChainMsg) : State :=
  s.sendChain line (homePtrOf s.thisNode line) dst m

/-- A walker to an entry: the home of a line of this module, or a caching entry of another's. -/
def State.toNeighbour (s : State) (key : Nat) (dst : ChainPtr) (m : ChainMsg) : State :=
  if (keyNode key).isNone then s.fromHome key dst m else s.toEntry key dst m

/-- A line that is poisoned at its home (R88). -/
def State.poisoned (s : State) (line : Nat) : Bool := s.home.poison.contains line
def State.setPoison (s : State) (line : Nat) (b : Bool) : State :=
  s.mapHome fun h =>
    let rest := h.poison.filter fun l => l != line
    { h with poison := if b then line :: rest else rest }

/-! ### Retention (R63, R64) -/

/-- Retention values (R30). -/
def retStream : BitVec 2 := 0
def retDefault : BitVec 2 := 1
def retSticky : BitVec 2 := 2
def retBypass : BitVec 2 := 3

/-- The hint, or the leaf's retention when the hint is `default` (R31). -/
def retOf (hint leaf : BitVec 2) : BitVec 2 := if hint = retDefault then leaf else hint

/-- Lines of a slice that a class holds with retention `sticky`. -/
def State.stickyCount (s : State) (slice cls : Nat) : Nat :=
  (s.home.tags.filter fun t => t.ret == retSticky && t.cls == cls && sliceOf (keyLine t.line) == slice).length

/-- Limit of a class in one slice. -/
def State.stickyLimit (s : State) (cls : Nat) : Nat := 512 * min 64 (fldN (alookup s.regs.stickyQuota cls 0) 0 7)

/-- The retention that a tag records (R64). -/
def State.recordRet (s : State) (key cls : Nat) (ret : BitVec 2) : BitVec 2 :=
  if ret = retSticky ∧ s.stickyLimit cls ≤ s.stickyCount (sliceOf (keyLine key)) cls then retDefault else ret

/-! ### Allocation and victims (R63, R65, R100) -/

/-- Atomics of one operation on a line are half done (R334). -/
def State.running (s : State) (key : Nat) : Bool := (s.tag? key).any fun t => t.run.isSome

/-- A line that no request is using and no stash owns. -/
def State.idleTag (s : State) (t : HomeTag) : Bool :=
  t.owner == none && t.run == none && t.pending == 0#2 && t.queue.isEmpty && t.hst != hstPG && t.hst != hstRC &&
    (match s.cacheTag? t.line with
      | some c => c.queue.isEmpty && (c.cst == cstS || c.cst == cstE || c.cst == cstM || c.cst == cstI)
      | none => true)

/-- The victim of a full set: by the order of R65, least recently used first. -/
def State.victim (s : State) (set : List HomeTag) : Option HomeTag :=
  let old := (set.filter s.idleTag).reverse
  match old.find? fun t => t.ret == retStream with
  | some t => some t
  | none =>
    match old.find? fun t => t.ret == retDefault with
    | some t => some t
    | none => old.find? fun t => t.ret == retSticky &&
        decide (s.stickyLimit t.cls < s.stickyCount (sliceOf (keyLine t.line)) t.cls)

/-- The home walks the chain from HEAD as a writer does (R98). -/
def State.startWalk (s : State) (t : HomeTag) : State :=
  (s.updTag t.line fun t => { t with hst := hstPG, homeWalk := true, walkPos := t.head }).fromHome t.line t.head .purge

/-- The home asks the exclusive holder for the line (R98). -/
def State.startFetch (s : State) (t : HomeTag) : State :=
  (s.updTag t.line fun t => { t with hst := hstRC }).fromHome t.line t.head .fetch
def State.startRecall (s : State) (t : HomeTag) : State :=
  (s.updTag t.line fun t => { t with hst := hstRC }).fromHome t.line t.head .recall

/-- The mask of the half of a line. -/
def halfMask (half : Nat) : BitVec 128 := byteMask (64 * half) 64
/-- Bytes of a half. -/
def halfData (d : LineData) (half : Nat) : BitVec 512 := d.extractLsb' (512 * half) 512
/-- A half in its place in a line. -/
def fullHalf (d : BitVec 512) (half : Nat) : LineData := d.setWidth 1024 <<< (512 * half)

def HomeTag.hostHalf (t : HomeTag) (half : Nat) : BitVec 2 := if half = 0 then t.hostLo else t.hostHi
def HomeTag.setHostHalf (t : HomeTag) (half : Nat) (x : BitVec 2) : HomeTag :=
  if half = 0 then { t with hostLo := x } else { t with hostHi := x }
def HomeTag.bridgeHalf (t : HomeTag) (half : Nat) : BitVec 2 := if half = 0 then t.brLo else t.brHi
def HomeTag.setBridgeHalf (t : HomeTag) (half : Nat) (x : BitVec 2) : HomeTag :=
  if half = 0 then { t with brLo := x } else { t with brHi := x }

/-- The halves that a mask touches. -/
def halvesOf (mask : BitVec 128) : List Nat := [0, 1].filter fun h => mask &&& halfMask h != 0#128

/-- Sends one message for each half and counts the answers awaited. -/
def State.askHalves (s : State) (key : Nat) (hs : List Nat) (m : Nat → Msg) : State :=
  hs.foldl (fun s h => (s.updTag key fun t => { t with pending := t.pending ||| (1#2 <<< h) }).send (m h)) s

/-- A half of a host-window line leaves the home (R108). -/
def State.leaveHalf (s : State) (t : HomeTag) (half : Nat) : State :=
  let st := t.bridgeHalf half
  if st = 0#2 then s
  else if st = 3#2 then s.send (.dirtyEvict t.line half (halfData (readLine s.mem t.line) half))
  else s.send (.cleanEvict t.line half)

/-- A caching entry in S unlinks from its chain (R101). -/
def State.startUnlink (s : State) (c : CacheTag) (wantOwn : Bool) : State :=
  let s := if ptrKind c.back = 2 then s.toHome c.line (.unhead c.fwd) else s.toEntry c.line c.back (.setfwd c.fwd)
  let s := if c.fwd = nullPtr then s else s.toEntry c.line c.fwd (.setback c.back)
  s.updCache c.line fun c =>
    { c with cst := cstUNLINK, acks := if c.fwd = nullPtr then 1 else 2, wantOwn := wantOwn }

/-- A victim leaves its slice, or starts the next of the steps that must be done first (R100, R101, R108). -/
def State.evictTag (s : State) (t : HomeTag) : State :=
  match s.cacheTag? t.line with
  | some c =>
    if c.cst = cstS then s.startUnlink c false
    else if c.cst = cstM then (s.toHome c.line (.wb true c.poison c.data)).dropTag t.line
    else if c.cst = cstE then (s.toHome c.line (.wb false c.poison 0)).dropTag t.line
    else s.dropTag t.line
  | none =>
    if t.hst = hstSH then s.startWalk t
    else if t.hst = hstEX then s.startRecall t
    else if isHostLine t.line then ((s.leaveHalf t 0).leaveHalf t 1).dropTag t.line
    else
      match [0, 1].filter fun h => t.hostHalf h != 0#2 with
      | [] => s.dropTag t.line
      | hs => s.askHalves t.line hs (.bisnpInv t.line)

/-- Whether a request has its line in the slice. -/
inductive Room where
  | here
  /-- it performs without allocating -/
  | bypass
  /-- it waits until a victim has left -/
  | later
  deriving DecidableEq, Repr

/-- The lines of a slice's set, most recently used first. -/
def State.setTags (s : State) (line : Nat) : List HomeTag :=
  s.home.tags.filter fun t => sliceOf (keyLine t.line) == sliceOf line && setOf (keyLine t.line) == setOf line

/-- A line enters its slice in a free way. -/
def State.enterTag (s : State) (key : Nat) (ret : BitVec 2) (cls : Nat) : State :=
  let way := (firstFree ((s.setTags (keyLine key)).map fun t => t.way) 16).getD 0
  let t : HomeTag :=
    { line := key, way := way, ret := s.recordRet key cls ret, cls := cls, owner := none, hst := hstU,
      head := nullPtr, homeWalk := false, hostHi := 0, hostLo := 0, brHi := 0, brLo := 0, walkPos := nullPtr,
      recallSent := 0, pending := 0, leaving := false, run := none, queue := [] }
  s.mapHome fun h => { h with tags := t :: h.tags }

/-- A hit: the tag takes the retention and the line becomes most recently used, unless the retention is `bypass`
(R63); a line that was to leave stays. -/
def State.hitTag (s : State) (t : HomeTag) (ret : BitVec 2) (cls : Nat) : State :=
  let keep := { t with leaving := false }
  if ret = retBypass then s.updTag t.line fun _ => keep
  else
    let n := { keep with ret := s.recordRet t.line cls ret, cls := cls }
    s.mapHome fun h => { h with tags := n :: h.tags.filter fun u => u.line != t.line }

/-- The victim of a full set that has begun to leave, or a new one (R65, R100). -/
def State.leaver (s : State) (set : List HomeTag) : Option HomeTag :=
  match set.find? fun t => t.leaving with
  | some t => some t
  | none => s.victim set

/-- ALLOCATION (R63, R65): a hit rewrites the tag and makes the line most recently used, unless its
retention is `bypass`; a miss allocates, performs without allocating, or waits for a victim, whose steps go on
one after the other. `must` marks a request that needs the line in the slice. -/
def State.allocate (s : State) (key : Nat) (ret : BitVec 2) (cls : Nat) (must : Bool) : State × Room :=
  match s.tag? key with
  | some t => (s.hitTag t ret cls, .here)
  | none =>
    if ret = retBypass ∧ must = false then (s, .bypass)
    else
      let set := s.setTags (keyLine key)
      if set.length < 16 then (s.enterTag key ret cls, .here)
      else
        match s.leaver set with
        | none => (s, if must then .later else .bypass)
        | some v =>
          let s := if s.idleTag v then (s.updTag v.line fun t => { t with leaving := true }).evictTag v else s
          if (s.tag? v.line).isSome then (s, .later) else (s.enterTag key ret cls, .here)

/-! ### The L1 and the coalescing buffer (R59 to R62) -/

def Core.l1Line? (c : Core) (key : Nat) : Option L1Line := c.l1.find? fun l => l.line == key
def Core.entry? (c : Core) (key : Nat) : Option CbEntry := c.cbuf.find? fun e => e.line == key

/-- Set of a line in the L1 (log 23). -/
def l1Set (key : Nat) : Nat := keyLine key % 128

/-- Removes the last line of a list that lies in a set. -/
def dropLast (set : Nat) (l : List L1Line) : List L1Line :=
  match l.reverse.find? fun x => l1Set x.line == set with
  | some v => l.filter fun x => x.line != v.line
  | none => l

/-- A line enters the L1, or is refreshed there (R59, R62). -/
def Core.l1Put (c : Core) (key : Nat) (coh : BitVec 2) (ret : BitVec 2) (d : LineData) : Core :=
  let rest := c.l1.filter fun x => x.line != key
  let full := decide (16 ≤ (rest.filter fun x => l1Set x.line == l1Set key).length)
  let rest := if full then dropLast (l1Set key) rest else rest
  let n : L1Line := { line := key, coh := coh, data := d }
  { c with l1 := if ret = retStream then rest ++ [n] else n :: rest }

/-- A line that the L1 holds takes new data in its place. -/
def Core.l1Refresh (c : Core) (key : Nat) (d : LineData) : Core :=
  { c with l1 := c.l1.map fun x => if x.line = key then { x with data := d } else x }

/-- Makes a line of the L1 most recently used. -/
def Core.l1Touch (c : Core) (key : Nat) : Core :=
  match c.l1Line? key with
  | some x => { c with l1 := x :: c.l1.filter fun y => y.line != key }
  | none => c

/-- Bytes of an entry that a lane has stored, read, or learnt of. -/
def CbEntry.knownTo (e : CbEntry) (gid lane : Nat) : BitVec 128 :=
  e.known.foldl (fun m k => if k.1 = gid ∧ k.2.1 = lane then m ||| k.2.2 else m) 0#128

/-- A lane learns bytes of an entry. -/
def CbEntry.learn (e : CbEntry) (gid lane : Nat) (m : BitVec 128) : CbEntry :=
  { e with known := (gid, lane, m ||| e.knownTo gid lane) :: e.known.filter fun k => !(k.1 == gid && k.2.1 == lane) }

/-- A lane learns bytes of the entry of a line, if there is one. -/
def Core.learn (c : Core) (key gid lane : Nat) (m : BitVec 128) : Core :=
  { c with cbuf := c.cbuf.map fun e => if e.line = key then e.learn gid lane (m &&& e.mask) else e }

/-- The newest bytes of the coalescing buffer over a line. -/
def Core.overlay (c : Core) (key : Nat) (d : LineData) : LineData :=
  match c.entry? key with
  | some e => mergeBytes d e.data e.mask 128
  | none => d

/-- The bytes that a load of a line returns which performs at the home: at core scope or narrower every newer byte of
the coalescing buffer, at a wider scope the home's alone (R59, R134). A wider load of bytes that its lane knows in the
buffer follows their drain (log 108). -/
def Core.seenBy (c : Core) (key : Nat) (wide : Bool) (d : LineData) : LineData := if wide then d else c.overlay key d

/-- Invalidation of an acquire (R61); `nc` gives the lines of the ranges. -/
def Core.acquire (c : Core) (nc : Nat → Bool) : Core :=
  { c with l1 := c.l1.filter fun x => x.coh == 0#2 && !nc x.line }

/-- Whether a scope reaches past the core: quad or wider, or the team of a quad team (R129). -/
def State.wideScope (s : State) (g : Group) (scope : BitVec 3) : Bool :=
  decide (3 ≤ scope.toNat) ||
    (scope == 1#3 && (match s.team? g.launch g.team with
      | some t => t.quadTeam
      | none => false))

/-- THE ACQUIRE EFFECT of lanes of a group (R61, R136): the L1 lines go, at quad scope or wider, and the lanes
know every store that the coalescing buffer then holds. -/
def State.acquireEffect (s : State) (gid : Nat) (m : BitVec 64) (scope : BitVec 3) (nc : Nat → Bool) : State :=
  match s.group? gid with
  | none => s
  | some g =>
    s.updCore g.core fun c =>
      let c := if s.wideScope g scope then c.acquire nc else c
      (List.range g.lanes.length).foldl (fun c i =>
        if m.getLsbD i then { c with cbuf := c.cbuf.map fun e => e.learn gid i e.mask } else c) c

/-! ### Migration counts (R110, R111) -/

def migEn (d : Die) : Bool := d.migCtrl.getLsbD 0
def migThresh (d : Die) : Nat := fldN d.migCtrl 48 16

/-- A proposal is due, or LOST is set when the queue is full (R111). It is written at the queue's home as soon as that
home can take it. -/
def State.postProposal (s : State) (die page owner : Nat) : State :=
  let d := s.die die
  let used := (fldN d.pqTail 0 12 + 4096 - fldN d.pqHead 0 12) % 4096 + d.pqOut.length
  if 4095 ≤ used then s.updDie die fun d => { d with migCtrl := d.migCtrl ||| 2#64 }
  else s.updDie die fun d => { d with pqOut := d.pqOut ++ [(page, owner)] }

/-- One entry of the counter table after a request (R110). The manual does not say what a count of 65,535 becomes:
here it stays (log 109). -/
def MigCount.step (e : MigCount) (requester : Nat) : MigCount :=
  if e.owner = requester then { e with count := min 65535 (e.count + 1) }
  else if e.count = 0 then { e with owner := requester, count := 1 }
  else { e with count := e.count - 1 }

/-- The entry with the lowest count; of several, the first of the list (log 109). -/
def lowestCount : List MigCount → Option MigCount
  | [] => none
  | e :: es =>
    match lowestCount es with
    | none => some e
    | some f => if f.count < e.count then some f else some e

/-- Counts a request for a page at its home (R110). -/
def State.countMig (s : State) (line requester : Nat) : State :=
  let die := dieOfSlice (sliceOf line)
  let d := s.die die
  if !migEn d then s
  else
    let page := line / 512
    let same := d.counts.filter fun e => e.page % 256 == page % 256
    let rest := match same.find? fun e => e.page == page with
      | some e => d.counts.filter fun f => f.page != e.page
      | none =>
        if same.length < 8 then d.counts
        else match lowestCount same with
          | some v => d.counts.filter fun f => f.page != v.page
          | none => d.counts
    let e : MigCount := match same.find? fun e => e.page == page with
      | some e => e
      | none => { page := page, owner := requester, count := 0 }
    let e := e.step requester
    let post := migThresh d != 0 && e.count == migThresh d && (e.owner != s.thisNode || isHost page)
    let e := if post then { e with count := 0 } else e
    let s := s.updDie die fun d => { d with counts := e :: rest }
    if post then s.postProposal die page e.owner else s

/-! ### What an access waits for at the home -/

/-- What a request needs of its line. -/
structure Need where
  /-- the stash must give the line up, or else supply it -/
  write : Bool
  /-- 0 nothing, 1 a local read, 2 a local write, 3 a READ, 4 an OWN -/
  chain : Nat
  /-- the halves are brought into the state that the access needs (R106, R108) -/
  halves : Bool
  mask : BitVec 128
  deriving DecidableEq, Repr

/-- Halves whose state an access must change first. -/
def HomeTag.askedHalves (t : HomeTag) (n : Need) : List Nat :=
  let hs := if n.halves then halvesOf n.mask else []
  if isHostLine t.line then
    hs.filter fun h => if n.write then t.bridgeHalf h == 0#2 || t.bridgeHalf h == 1#2 else t.bridgeHalf h == 0#2
  else if n.write then hs.filter fun h => t.hostHalf h != 0#2
  else hs.filter fun h => t.hostHalf h == 2#2

/-- The message that asks for a half. -/
def halfAsk (key : Nat) (write : Bool) (half : Nat) : Msg :=
  if isHostLine key then (if write then .rdOwn key half else .rdShared key half)
  else if write then .bisnpInv key half else .bisnpData key half

/-- The stash line of a core that owns a global line. -/
def Core.ownedLine? (c : Core) (key : Nat) : Option (Nat × StashLine) :=
  c.stash.find? fun e => e.2.line == key && (e.2.state == .clean || e.2.state == .dirty || e.2.state == .filling)

/-- The host is declared dead: its lines cannot be reached (R119, R478). -/
def hostAgent : Nat := 4096
def State.hostDown (s : State) : Bool := s.plat.dead.contains hostAgent
/-- A group's context has accessed the host window (R478). -/
def State.touchHost (s : State) (gid key : Nat) : State :=
  if isHostLine key then
    match s.group? gid with
    | some g => s.updLaunch g.launch fun l => { l with touchedHost := true }
    | none => s
  else s

def State.unreachable (s : State) (line : Nat) : Bool := isHostLine line && s.hostDown

/-- The steps before an access performs: the recall of an owning stash (R72), the walk, fetch or recall of the
chain (R98), the host's halves (R106, R108). None: it may perform now. -/
def State.prepare (s : State) (t : HomeTag) (n : Need) : Option State :=
  let stash := match t.owner with
    | none => 0
    | some c =>
      if n.write then 2
      else match (s.core c).ownedLine? t.line with
        | some (_, l) => if l.state = .dirty then 1 else 0
        | none => 0
  if n.chain ≠ 0 ∧ stash ≠ 0 then some (s.updTag t.line fun t => { t with recallSent := stash })
  else if n.chain = 2 ∧ t.hst = hstSH then some (s.startWalk t)
  else if (n.chain = 1 ∨ n.chain = 3) ∧ t.hst = hstEX then some (s.startFetch t)
  else if (n.chain = 2 ∨ n.chain = 4) ∧ t.hst = hstEX then some (s.startRecall t)
  else
    match if s.unreachable t.line then [] else t.askedHalves n with
    | [] => none
    | hs => some (s.askHalves t.line hs (halfAsk t.line n.write))

/-- Whether the line is in the middle of such steps. -/
def HomeTag.busy (t : HomeTag) : Bool :=
  t.pending != 0#2 || t.recallSent != 0 || t.hst == hstPG || t.hst == hstRC

/-- A copy of the migration engine, a walker or another unit tries to access a line: true when it may perform now. What
it must wait for is asked for, and it tries again (log 24). It allocates nothing but a host-window line (log 111). -/
def State.homeReady (s : State) (line : Nat) (n : Need) : State × Bool :=
  match s.tag? line with
  | none =>
    if isHostLine line then
      match s.allocate line retDefault 0 true with
      | (s, _) => (s, false)
    else (s, true)
  | some t =>
    if t.busy || !t.queue.isEmpty then (s, false)
    else
      match s.prepare t n with
      | some s => (s, false)
      | none => (s, true)

/-- An engine's access of a line, which enters the slice as a request of its context does (R63, R64). -/
def State.homeEngine (s : State) (line : Nat) (n : Need) (ret : BitVec 2) (cls : Nat) : State × Bool :=
  match s.allocate line ret cls (isHostLine line) with
  | (s, .later) => (s, false)
  | (s, _) => s.homeReady line n

end Sys2Proof.Machine
end

