-- ==== Sys2Proof/Machine/Xlate.lean ====
section
/-! DEFINITION. Translation (R16, R17, R28 to R41): the walk of both stages, the checks of R38 in order, the
TLBs, and the setting of ACC and DIRTY. A translation is one indivisible part of the step that needs it
(log 9); what it reads and writes it reads and writes at the homes of the table pages, and an access whose
walker must wait there waits with it (log 105). -/

namespace Sys2Proof.Machine

/-- Why a walk gives no translation: a check of R38 that failed, with its cause, the stage and level, and whether
it concerns a table page; or a line at whose home the walker must wait. -/
structure XErr where
  code : Nat
  stage2 : Bool
  level : Nat
  table : Bool
  /-- an entry of the walk is not VALID (check 3) -/
  absent : Bool
  /-- the line that the walker waits for, and whether to write it -/
  wait : Option (Nat × Bool)
  deriving DecidableEq, Repr

/-- A check that failed. -/
def xerr (code : Nat) (stage2 : Bool) (level : Nat) (table : Bool) : XErr :=
  { code := code, stage2 := stage2, level := level, table := table, absent := false, wait := none }

/-- Check 3 failed. -/
def xabsent (stage2 : Bool) (level : Nat) : XErr := { xerr cXlateMiss stage2 level false with absent := true }

/-- The walker must wait at the home of a line, or walk again. -/
def xwait (line : Nat) (write : Bool) : XErr := { xerr 0 false 0 false with wait := some (line, write) }

/-- The access waits and translates again. -/
def XErr.waits (e : XErr) : Bool := e.wait.isSome

/-- The cause with its detail (R510); a fetch of a page that is not resident is a `FETCH_FAULT` with
reason 0, and every other check keeps its own cause (R51). -/
def XErr.cause (e : XErr) (k : AccKind) : DWord :=
  let detail := k.code + 16 * e.level + (if e.stage2 then 256 else 0) + (if e.table then 512 else 0)
  if k = .fetch ∧ e.absent then causeOf cFetchFault detail else causeOf e.code detail

/-! ### Reading table entries at their homes (R28, R41) -/

/-- What a walker's read, or its compare-and-swap, needs of a line. -/
def walkNeed (write : Bool) : Need := ⟨write, if write then 2 else 1, true, BitVec.allOnes 128⟩

/-- A line whose home has nothing left to do before a walker's access performs there (R41, R57, R72). -/
def State.homeFree (s : State) (line : Nat) (write : Bool) : Bool :=
  match s.tag? line with
  | none => true
  | some t => !t.busy && t.queue.isEmpty && (s.prepare t (walkNeed write)).isNone

/-- A walk that must wait asks the home of its line for what it waits for. -/
def State.walkAsks (s : State) (e : XErr) : State :=
  match e.wait with
  | some (line, write) => (s.homeReady line (walkNeed write)).1
  | none => s

/-- Guest descriptor (R35). -/
structure GuestDesc where
  valid : Bool
  ok : Bool
  s2en : Bool
  s1root : Nat
  s2root : Nat
  deriving DecidableEq, Repr

/-- The line of a guest's descriptor. -/
def State.descAddr (s : State) (guest : Nat) : Nat := s.regs.gdtBase.toNat + 32 * guest

/-- The descriptor in use, once one that is valid has been read (R35). -/
def State.descUsed (s : State) (guest : Nat) : Option (BitVec 256) :=
  match s.xlate.descs.find? fun d => d.guest == guest with
  | some d => some d.value
  | none => none

/-- The descriptor's bytes: a change of a valid one takes effect only when it is no longer in use (R35). -/
def State.descBytes (s : State) (guest : Nat) : BitVec 256 :=
  (s.descUsed guest).getD (readLE s.mem (s.descAddr guest) 256 32)

def State.guestDesc (s : State) (guest : Nat) : GuestDesc :=
  let d := s.descBytes guest
  { valid := d.getLsbD 0, s2en := d.getLsbD 1, s1root := fldN d 16 32, s2root := fldN d 80 32,
    ok := fldN d 112 144 == 0 && fldN d 48 32 == 0 && fldN d 2 14 == 0 }

/-- A valid descriptor that is read comes into use (R35). -/
def State.useDesc (s : State) (guest : Nat) : State :=
  if (s.guestDesc guest).valid && (s.descUsed guest).isNone then
    { s with xlate := { s.xlate with descs :=
        { guest := guest, value := s.descBytes guest, s1 := [], s2 := [], s1done := false, s2done := false } :: s.xlate.descs } }
  else s

/-- Whether the descriptor must be read at a home that is not ready. -/
def State.descWaits (s : State) (guest : Nat) : Option XErr :=
  let line := s.descAddr guest / 128
  if (s.descUsed guest).isSome || s.homeFree line false then none else some (xwait line false)

/-- What a walk reads beside its result: the entries that enter the walk cache (R39). -/
abbrev Seen := List WalkEntry

/-- Index of a level within a page number (R17). -/
def levelIndex (page level : Nat) : Nat := page / 2 ^ (13 * (2 - level)) % 8192

/-- The value that a walk cache holds for a level-0 or level-1 entry. -/
def cachedEntry (wc : Seen) (guest : Nat) (st2 : Bool) (level path : Nat) : Option DWord :=
  if 2 ≤ level then none
  else
    match wc.find? fun w => w.guest == guest && w.stage2 == st2 && w.level == level && w.path == path with
    | some w => some w.value
    | none => none

/-- Reads the entry of a level in a table page (R28, R34), from the walk cache or at its home; the carve-out ends
the walk (R27). -/
def State.readEntry (s : State) (wc : Seen) (guest : Nat) (st2 : Bool) (level page tbl : Nat) :
    Except XErr (DWord × Nat × Seen) :=
  let addr := 65536 * tbl + 8 * levelIndex page level
  let path := page / 2 ^ (13 * (2 - level))
  if s.inCarve addr then .error (xerr cXlatePerm st2 level true)
  else
    match cachedEntry wc guest st2 level path with
    | some e => .ok (e, addr, [])
    | none =>
      if !s.homeFree (addr / 128) false then .error (xwait (addr / 128) false)
      else
        let e := readLE s.mem addr 64 8
        if e.getLsbD 0 then
          .ok (e, addr, if level < 2 then [{ guest := guest, stage2 := st2, level := level, path := path, value := e }]
            else [])
        else .error (xabsent st2 level)

/-- A table page that must lie in HBM (R32). -/
def hbmTable (st2 : Bool) (level page : Nat) : Except XErr Nat :=
  if isHbm page then .ok page else .error (xerr cXlateFormat st2 level false)

/-- The page that a non-leaf entry names. -/
def nextTable (st2 : Bool) (level : Nat) (e : DWord) : Except XErr Nat :=
  if nonLeafOk e then .ok (fldN e 16 32) else .error (xerr cXlateFormat st2 level false)

/-- The leaf of a guest-physical page in stage 2 and its address (R36). -/
def State.walk2 (s : State) (wc : Seen) (guest root page : Nat) : Except XErr (DWord × Nat × Seen) := do
  let t0 ← hbmTable true 0 root
  let (e0, _, w0) ← s.readEntry wc guest true 0 page t0
  let t1 ← hbmTable true 0 (← nextTable true 0 e0)
  let (e1, _, w1) ← s.readEntry wc guest true 1 page t1
  let t2 ← hbmTable true 1 (← nextTable true 1 e1)
  let (e2, a2, _) ← s.readEntry wc guest true 2 page t2
  if leafOk e2 then .ok (e2, a2, w0 ++ w1) else .error (xerr cXlateFormat true 2 false)

/-- The same failure, of a page-table page. -/
def XErr.ofTable (e : XErr) : XErr := { e with table := true }

/-- The physical page of a stage-1 table page, and the stage-2 leaf through which the walker writes it
(R32, R33, R36). A table page on another module lies outside this module's HBM (log 21). -/
def State.table1 (s : State) (wc : Seen) (guest : Nat) (d : GuestDesc) (level page : Nat) :
    Except XErr (Nat × Option Nat × Seen) :=
  if d.s2en then
    match s.walk2 wc guest d.s2root page with
    | .error e => .error e.ofTable
    | .ok (e2, a2, w) =>
      if !leafRd e2 then .error (xerr cXlatePerm true 2 true)
      else if leafRemote e2 then .error (xerr cXlateFormat false level false)
      else
        match hbmTable false level (leafPpn e2) with
        | .error e => .error e
        | .ok p => .ok (p, some a2, w)
  else
    match hbmTable false level page with
    | .error e => .error e
    | .ok p => .ok (p, none, [])

/-- A leaf in which bits are to be set: its address, the value that the walk read, and the stage-2 leaf of its
table page. -/
structure Leaf where
  addr : Nat
  value : DWord
  parent : Option Nat
  deriving DecidableEq, Repr

/-- A complete translation of a page. -/
structure Walked where
  ppn : Nat
  rd : Bool
  wr : Bool
  coh : BitVec 2
  ret : BitVec 2
  mig : Bool
  remote : Bool
  node : Nat
  /-- permissions of stage 1 alone -/
  rd1 : Bool
  wr1 : Bool
  ipa : Nat
  /-- leaves in the order in which bits are set -/
  leaves : List Leaf
  deriving DecidableEq, Repr

/-- Same attributes in a merged entry (R40). -/
def Walked.sameAttrs (a b : Walked) : Bool :=
  a.rd == b.rd && a.wr == b.wr && a.coh == b.coh && a.ret == b.ret && a.mig == b.mig &&
    a.remote == b.remote && a.node == b.node

/-- A page of a range that has been retired (R488): a leaf that names it is malformed. -/
def State.retired (s : State) (ppn : Nat) (remote : Bool) : Bool :=
  !remote && s.plat.retired.any fun first => decide (first ≤ ppn) && decide (ppn < first + 32768)

/-- The translation of a valid stage-1 leaf (R36, R37). -/
def State.resolve (s : State) (wc : Seen) (guest : Nat) (d : GuestDesc) (e1 : DWord) (a1 : Nat)
    (parent : Option Nat) : Except XErr (Walked × Seen) :=
  if d.s2en then
    if !leafOkGuest e1 then .error (xerr cXlateFormat false 2 false)
    else
      match s.walk2 wc guest d.s2root (leafPpn e1) with
      | .error e => .error e
      | .ok (e2, a2, w) =>
        let coh := widerCoh (leafCoh e1) (leafCoh e2)
        if placeOk (leafPpn e2) coh (leafRemote e2) (leafNode e2) && !s.retired (leafPpn e2) (leafRemote e2) then
          .ok ({ ppn := leafPpn e2, rd := leafRd e1 && leafRd e2, wr := leafWr e1 && leafWr e2, coh := coh,
                 ret := leafRet e1, mig := leafMig e2, remote := leafRemote e2, node := leafNode e2,
                 rd1 := leafRd e1, wr1 := leafWr e1, ipa := leafPpn e1,
                 leaves := [⟨a1, e1, parent⟩, ⟨a2, e2, none⟩] }, w)
        else .error (xerr cXlateFormat true 2 false)
  else if leafOk e1 && !s.retired (leafPpn e1) (leafRemote e1) then
    .ok ({ ppn := leafPpn e1, rd := leafRd e1, wr := leafWr e1, coh := leafCoh e1, ret := leafRet e1,
           mig := leafMig e1, remote := leafRemote e1, node := leafNode e1, rd1 := leafRd e1, wr1 := leafWr e1,
           ipa := leafPpn e1, leaves := [⟨a1, e1, none⟩] }, [])
  else .error (xerr cXlateFormat false 2 false)

/-- A walk of a virtual page: its translation, its level-2 table, and what enters the walk cache. -/
structure WalkOut where
  w : Walked
  tbl : Nat
  parent : Option Nat
  seen : Seen
  deriving DecidableEq, Repr

/-- The walk of both stages (R34, R36, R38 checks 2 to 4). -/
def State.walk1 (s : State) (wc : Seen) (guest page : Nat) : Except XErr WalkOut := do
  let d := s.guestDesc guest
  if let some e := s.descWaits guest then throw e
  if !d.valid then .error (xerr cXlateMiss false 0 false)
  else if !d.ok then .error (xerr cXlateFormat false 0 false)
  else
    let (t0, _, v0) ← s.table1 wc guest d 0 d.s1root
    let (e0, _, w0) ← s.readEntry wc guest false 0 page t0
    let (t1, _, v1) ← s.table1 wc guest d 0 (← nextTable false 0 e0)
    let (e1, _, w1) ← s.readEntry wc guest false 1 page t1
    let (t2, p2, v2) ← s.table1 wc guest d 1 (← nextTable false 1 e1)
    let (e2, a2, _) ← s.readEntry wc guest false 2 page t2
    let (w, v3) ← s.resolve wc guest d e2 a2 p2
    .ok { w := w, tbl := t2, parent := p2, seen := v0 ++ w0 ++ v1 ++ w1 ++ v2 ++ v3 }

/-! ### Setting ACC and DIRTY (R33) -/

def accBit : DWord := 0x200#64
def dirtyBit : DWord := 0x400#64

/-- The walker's compare: the entry still holds the value that the walk read, but for bits that the device sets. -/
def entrySame (a b : DWord) : Bool := (a ||| accBit ||| dirtyBit) == (b ||| accBit ||| dirtyBit)

/-- Why a bit cannot be set in a leaf now: the compare fails and the walk is made again, the leaf's home is not
ready, or the stage-2 leaf of its table page has WR = 0. -/
def State.leafCheck (s : State) (b : DWord) (l : Leaf) : Option XErr :=
  let e := readLE s.mem l.addr 64 8
  if e &&& b ≠ 0 then none
  else if !entrySame e l.value then some (xwait (l.addr / 128) false)
  else if !s.homeFree (l.addr / 128) true then some (xwait (l.addr / 128) true)
  else
    match l.parent with
    | none => none
    | some t =>
      let f := readLE s.mem t 64 8
      if !leafWr f then some (xerr cXlatePerm true 2 true)
      else if f &&& dirtyBit = 0 ∧ s.homeFree (t / 128) true = false then some (xwait (t / 128) true)
      else none

/-- The first leaf of a list in which a bit cannot be set now. -/
def State.leafChecks (s : State) (b : DWord) (ls : List Leaf) : Option XErr := ls.findSome? (s.leafCheck b)

/-- Sets bits of a table entry at its home, which refuses the write of a sealed page (R52, log 106). -/
def State.setEntry (s : State) (b : DWord) (addr : Nat) : State :=
  let e := readLE s.mem addr 64 8
  if e &&& b ≠ 0 then s
  else if s.refusesWrite (addr / 128) then s.log (.refusedWrite (addr / 128))
  else { s with mem := writeLE s.mem addr (e ||| b) 8 }

/-- Sets a bit of a leaf, if it is clear. A stage-1 leaf is written through the stage-2 leaf of its table page,
which takes DIRTY (R33). -/
def State.setLeaf (s : State) (b : DWord) (l : Leaf) : State :=
  if readLE s.mem l.addr 64 8 &&& b ≠ 0 then s
  else
    match l.parent with
    | none => s.setEntry b l.addr
    | some t => (s.setEntry dirtyBit t).setEntry b l.addr

def State.setLeaves (s : State) (b : DWord) (ls : List Leaf) : State := ls.foldl (fun s l => s.setLeaf b l) s

/-! ### TLBs -/

/-- The base die whose walkers serve a quad (R41): four dies for 160 quads. -/
def dieOfQuad (quad : Nat) : Nat := quad / 40

/-- The 2 MiB window of a page, and its place in it (R40). -/
def windowOf (page : Nat) : Nat := page / 32

/-- A TLB entry that maps a page. -/
def TlbEntry.maps (e : TlbEntry) (guest page : Nat) : Bool :=
  e.guest == guest && e.window == windowOf page && e.vmask.getLsbD (page % 32)

/-- The physical page that an entry gives. -/
def TlbEntry.ppn (e : TlbEntry) (page : Nat) : Nat := (e.base + page % 32) % 2 ^ 32

/-- Another page of the window of a walk: its place and translation, when it merges (R40). -/
def State.mergesWith (s : State) (wc : Seen) (guest page : Nat) (o : WalkOut) (i : Nat) :
    Except XErr (List (Nat × Walked)) :=
  let i0 := page % 32
  let a := 65536 * o.tbl + 8 * (page % 8192 - i0 + i)
  if i = i0 then .ok [(i0, o.w)]
  else if !s.homeFree (a / 128) false then .error (xwait (a / 128) false)
  else
    let e := readLE s.mem a 64 8
    if !e.getLsbD 0 then .ok []
    else
      match s.resolve wc guest (s.guestDesc guest) e a o.parent with
      | .ok (w, _) => .ok (if w.ppn = o.w.ppn - i0 + i ∧ w.sameAttrs o.w then [(i, w)] else [])
      | .error x => if x.waits then .error x else .ok []

/-- The merged entry of a walk (R40): the pages of the window with consecutive physical pages and the same
attributes, with the leaves in which ACC is set. -/
def State.merge (s : State) (wc : Seen) (guest page : Nat) (o : WalkOut) : Except XErr (TlbEntry × List Leaf) := do
  let i0 := page % 32
  let places := if i0 ≤ o.w.ppn ∧ (o.w.ppn - i0) % 32 = 0 then i0 :: (List.range 32).filter (fun i => i != i0) else [i0]
  let pages := (← places.mapM (s.mergesWith wc guest page o)).flatten
  .ok ({ guest := guest, window := windowOf page, base := (o.w.ppn + 2 ^ 32 - i0) % 2 ^ 32,
         vmask := pages.foldl (fun m p => m ||| (1#32 <<< p.1)) 0, dmask := 0, ipas := pages.map fun p => p.2.ipa,
         rd := o.w.rd, wr := o.w.wr, coh := o.w.coh, ret := o.w.ret, mig := o.w.mig, remote := o.w.remote,
         node := o.w.node },
       pages.flatMap fun p => p.2.leaves)

/-- Adds an entry, first dropping those that map the same page and, above a capacity, one at a free choice:
the manual does not say which entry a full TLB replaces (log 22). -/
def addTlb (cap pick : Nat) (e : TlbEntry) (page : Nat) (l : List TlbEntry) : List TlbEntry :=
  let l := l.filter fun f => !f.maps e.guest page
  let l := if cap ≤ l.length then l.eraseIdx (pick % l.length) else l
  e :: l

/-- Set index of the L2 TLB (R39). -/
def l2Set (guest window : Nat) : Nat := (window % 1024) ^^^ (guest % 1024)

/-- Adds an entry to an L2 TLB of 8 ways a set (R39). -/
def addL2 (pick : Nat) (e : TlbEntry) (page : Nat) (l : List TlbEntry) : List TlbEntry :=
  let k := l2Set e.guest e.window
  let same := l.filter fun f => l2Set f.guest f.window == k
  let rest := l.filter fun f => l2Set f.guest f.window != k
  addTlb 8 pick e page same ++ rest

/-- Which TLB of a core an access uses. -/
def Core.tlb (c : Core) (k : AccKind) : List TlbEntry := if k = .fetch then c.itlb else c.dtlb

/-- Adds an entry to the TLB of a core that an access uses (R39). -/
def Core.addTlb (c : Core) (k : AccKind) (pick : Nat) (e : TlbEntry) (page : Nat) : Core :=
  if k = .fetch then { c with itlb := Machine.addTlb 32 pick e page c.itlb }
  else { c with dtlb := Machine.addTlb 128 pick e page c.dtlb }

/-- Loads an entry into the quad's L2 TLB and, for an access of a core, into that core's TLB. -/
def State.loadTlb (s : State) (core : Option Nat) (quad : Nat) (k : AccKind) (e : TlbEntry) (page : Nat) : State :=
  let pick := Config.choice s.fresh
  let s := { s with fresh := s.fresh + 1 }
  let s := s.updQuad quad fun q => { q with l2tlb := addL2 pick e page q.l2tlb }
  match core with
  | some c => s.updCore c fun x => x.addTlb k pick e page
  | none => s

/-- Set of a walk-cache entry: 128 sets (R39, log 23). -/
def walkSet (w : WalkEntry) : Nat := (w.guest ^^^ w.path ^^^ w.level) % 128

/-- A walk-cache entry holds the same table entry. -/
def WalkEntry.same (v w : WalkEntry) : Bool :=
  v.guest == w.guest && v.stage2 == w.stage2 && v.level == w.level && v.path == w.path

/-- Adds an entry to a walk cache of 8 ways a set, in place of one at a free choice in a full set (R39, log 22). -/
def addWalk (pick : Nat) (l : List WalkEntry) (w : WalkEntry) : List WalkEntry :=
  let set := l.filter fun v => walkSet v == walkSet w
  let rest := l.filter fun v => walkSet v != walkSet w
  if set.any w.same then l
  else w :: (if 8 ≤ set.length then set.eraseIdx (pick % set.length) else set) ++ rest

/-- Adds entries to a die's walk cache (R39). -/
def State.loadWalkCache (s : State) (die : Nat) (seen : Seen) : State :=
  let new := seen.foldl (addWalk (Config.choice s.fresh)) (alookup s.xlate.walkCaches die [])
  { s with xlate := { s.xlate with walkCaches := aset s.xlate.walkCaches die new }, fresh := s.fresh + 1 }

/-! ### Translation -/

/-- The entry that an access hits, if it may use it: permitted, outside the
carve-out when it is a page of this module, and already dirty
for a write. Any other access walks (R40). -/
def State.tlbHit (s : State) (core : Option Nat) (quad guest : Nat) (va : DWord) (k : AccKind) :
    Option (TlbEntry × Bool) :=
  let page := pageOf va
  let usable := fun (e : TlbEntry) => e.maps guest page && (if k.writes then e.wr && e.dmask.getLsbD (page % 32) else e.rd) &&
    (e.remote || !s.inCarve (65536 * e.ppn page + va.toNat % 65536))
  let own := match core with
    | some c => ((s.core c).tlb k).find? usable
    | none => none
  match own with
  | some e => some (e, true)
  | none =>
    match (s.quad quad).l2tlb.find? usable with
    | some e => some (e, false)
    | none => none

/-- The walk that serves a miss, with the loading of the TLBs and ACC, and DIRTY for a write that passes the
later checks (R38 checks 2 to 6, R33, R40, R41). The spec leaves open which stage the detail of checks 5 and 6
names; the choice is log 107's. -/
def State.walkMiss (s : State) (core : Option Nat) (quad guest : Nat) (va : DWord) (k : AccKind) :
    State × Except XErr Trans :=
  let page := pageOf va
  let die := dieOfQuad quad
  let wc := alookup s.xlate.walkCaches die []
  let walked : Except XErr (WalkOut × TlbEntry × List Leaf) := do
    let o ← s.walk1 wc guest page
    let m ← s.merge wc guest page o
    .ok (o, m.1, m.2)
  match walked with
  | .error e => ((s.useDesc guest).walkAsks e, .error e)
  | .ok (o, e, leaves) =>
    let ok := if k.writes then o.w.wr else o.w.rd
    let stage2 := if k.writes then o.w.wr1 else o.w.rd1
    let carved := !o.w.remote && s.inCarve (65536 * o.w.ppn + va.toNat % 65536)
    let dirty := if k.writes && ok && !carved then o.w.leaves else []
    match (s.leafChecks accBit leaves).or (s.leafChecks dirtyBit dirty) with
    | some x => ((s.useDesc guest).walkAsks x, .error x)
    | none =>
      let s := ((s.useDesc guest).loadWalkCache die o.seen).setLeaves accBit leaves
      let s := s.setLeaves dirtyBit dirty
      let s := s.loadTlb core quad k (if dirty = [] then e else { e with dmask := 1#32 <<< (page % 32) }) page
      if !ok then (s, .error (xerr cXlatePerm stage2 2 false))
      else if carved then (s, .error (xerr cXlatePerm (s.guestDesc guest).s2en 2 false))
      else
        (s, .ok { ppn := o.w.ppn, coh := o.w.coh, ret := o.w.ret, mig := o.w.mig, remote := o.w.remote,
                  node := o.w.node })

/-- TRANSLATION with checks 1 to 6 of R38. An access of a core looks in its own TLB and then in the quad's
L2 TLB; an engine looks in the L2 TLB alone (R39). -/
def State.translate (s : State) (core : Option Nat) (quad guest : Nat) (va : DWord) (k : AccKind) :
    State × Except XErr Trans :=
  if fldN va 55 9 ≠ 0 then (s, .error (xerr cXlateMiss false 0 false))
  else
    match s.tlbHit core quad guest va k with
    | some (e, own) =>
      let t : Trans := { ppn := e.ppn (pageOf va), coh := e.coh, ret := e.ret, mig := e.mig, remote := e.remote,
                         node := e.node }
      match core, own with
      | some c, false => (s.updCore c fun x => x.addTlb k (Config.choice s.fresh) e (pageOf va), .ok t)
      | _, _ => (s, .ok t)
    | none => s.walkMiss core quad guest va k

/-- A translation for fetch that raises nothing and changes nothing: checks 1 to 6 (R300). -/
def State.peekFetch (s : State) (quad guest : Nat) (va : DWord) : Option Trans :=
  match (s.translate none quad guest va .fetch).2 with
  | .ok t => some t
  | .error _ => none

/-- A translation of a pointer that raises nothing and changes nothing: what it gives, if it gives one, or why it must
wait. -/
def State.peek (s : State) (core quad guest : Nat) (va : DWord) : Except XErr (Option Trans) :=
  match (s.translate (some core) quad guest va .load).2 with
  | .ok t => .ok (some t)
  | .error e => if e.waits then .error e else .ok none

/-- Why a translation for fetch must wait, if it must. -/
def State.peekWait? (s : State) (quad guest : Nat) (va : DWord) : Option XErr :=
  match (s.translate none quad guest va .fetch).2 with
  | .ok _ => none
  | .error e => if e.waits then some e else none

/-- The landing check of one lane: the trap that it raises (R300, R301, details 0 to 4). -/
def State.landing? (s : State) (g : Group) (x : DWord) : Option (DWord × DWord) :=
  let bad := fun d => some (causeOf cBadLanding d, x)
  if fldN x 55 9 ≠ 0 ∨ fldN x 0 2 ≠ 0 then bad 0
  else
    match s.peekFetch (quadOf g.core) g.guest x with
    | none => bad 1
    | some t =>
      let e := s.seal t.ppn
      if t.remote || !isHbm t.ppn || !sealedBit e then bad 2
      else if sealKernel e ≠ g.kernel then bad 3
      else if (alookup s.trusted.bitmaps (sealBitmap e) 0).getLsbD (fldN x 2 14) then none
      else bad 4

/-- `chkland a` (R300, R301). Lanes whose walk must wait at a home wait with their group. -/
def execChkland (a : BitVec 8) (s : State) : Out :=
  .next (s.forPick fun s gid m =>
    match s.group? gid with
    | none => s
    | some g =>
      let act := g.maskOf fun i l => m.getLsbD i && l.guard
      let wait := (g.lanes.zipIdx).findSome? fun e =>
        if act.getLsbD e.2 then s.peekWait? (quadOf g.core) g.guest (src64 g e.2 e.1 a) else none
      match wait with
      | some x => (s.walkAsks x).holdLanes gid m
      | none =>
        let ts := g.traps m fun i l => s.landing? g (src64 g i l a)
        if ts = [] then s else s.trapLanes gid none ts (if a.toNat < 0x80 then [a.toNat, a.toNat + 1] else []))

end Sys2Proof.Machine
end

