-- ==== Sys2Proof/Machine/Serve.lean ====
section
/-! DEFINITION. How a request performs on the bytes of its line (R57, R91, R126, R134, R141, R145, R325, R333),
how a line's waiting requests are served in order (R57, R98, R99), and how a request enters its home or its
caching slice (R92, R100, R101). -/

namespace Sys2Proof.Machine

/-! ### Parts of a request on the bytes of a line -/

def maskBits (n : Nat) : BitVec 128 := BitVec.ofNat 128 (2 ^ (8 * n) - 1)

/-- The bytes of a line that a part reads, at their place in the access. -/
def Part.slice (p : Part) (d : LineData) : BitVec 128 :=
  (((d >>> (8 * (p.pa % 128))).setWidth 128) &&& maskBits p.len) <<< (8 * p.off)

/-- The bytes of a line that a part touches. -/
def Part.mask (p : Part) : BitVec 128 := byteMask (p.pa % 128) p.len

/-- The bytes that a part writes, at their place in the line. -/
def Part.spread (p : Part) (x : BitVec 128) : LineData := ((x >>> (8 * p.off)).setWidth 1024) <<< (8 * (p.pa % 128))

/-- Bytes of a line after a part has written a value. -/
def Part.put (p : Part) (x : BitVec 128) (d : LineData) : LineData := mergeBytes d (p.spread x) p.mask 128

/-- The mask of every part. -/
def partsMask (ps : List Part) : BitVec 128 := ps.foldl (fun m p => m ||| p.mask) 0#128

/-- An atomic on 32 bits (R333): old value, operand and swap value. -/
def atom32 (a : AtomOp) (m x y : Word) : Word :=
  match a with
  | .add => m + x
  | .mini => if m.toInt ≤ x.toInt then m else x
  | .maxi => if x.toInt ≤ m.toInt then m else x
  | .minn => if m.toNat ≤ x.toNat then m else x
  | .maxn => if x.toNat ≤ m.toNat then m else x
  | .and => m &&& x
  | .or => m ||| x
  | .xor => m ^^^ x
  | .xchg => x
  | .cas => if m = x then y else m
  | .addf => fadd .ne m x

/-- An atomic on 64 bits (R333). -/
def atom64 (a : AtomOp) (m x y : DWord) : DWord :=
  match a with
  | .add => m + x
  | .mini => if m.toInt ≤ x.toInt then m else x
  | .maxi => if x.toInt ≤ m.toInt then m else x
  | .minn => if m.toNat ≤ x.toNat then m else x
  | .maxn => if x.toNat ≤ m.toNat then m else x
  | .and => m &&& x
  | .or => m ||| x
  | .xor => m ^^^ x
  | .xchg => x
  | .cas => if m = x then y else m
  | .addf => m

/-- The new value of a location (R333). -/
def atomValue (a : AtomOp) (size : Nat) (m x y : BitVec 128) : BitVec 128 :=
  if size = 4 then (atom32 a (m.setWidth 32) (x.setWidth 32) (y.setWidth 32)).setWidth 128
  else (atom64 a (m.setWidth 64) (x.setWidth 64) (y.setWidth 64)).setWidth 128

/-- The parts of an atomic, in ascending lane order, each on the value that the one before it wrote (R334). -/
def atomParts (a : AtomOp) (size : Nat) (d : LineData) : List Part → LineData × List Part
  | [] => (d, [])
  | p :: ps =>
    let m := p.slice d
    let d := p.put (atomValue a size m p.data p.data2) d
    let r := atomParts a size d ps
    (r.1, { p with value := m } :: r.2)

/-- The parts of a store, in ascending lane order (R126). -/
def storeParts (d : LineData) (ps : List Part) : LineData := ps.foldl (fun d p => p.put p.data d) d

/-! ### Groups and requests -/

def State.req? (s : State) (id : Nat) : Option Req := s.reqs.find? fun r => r.id == id
def State.updReq (s : State) (id : Nat) (f : Req → Req) : State :=
  { s with reqs := s.reqs.map fun r => if r.id = id then f r else r }
def State.dropReq (s : State) (id : Nat) : State := { s with reqs := s.reqs.filter fun r => r.id != id }

/-- Sticky class of a group's context (R64). -/
def State.clsOf (s : State) (gid : Nat) : Nat :=
  match s.group? gid with
  | some g => (match s.launch? g.launch with
      | some l => l.sticky
      | none => 0)
  | none => 0

/-- Lanes that wait inside an instruction trap there (R443). -/
def State.trapWaiting (s : State) (gid : Nat) (m : BitVec 64) (cause va : DWord) : State :=
  s.updGroup gid fun g => g.park (fun l => l.place) none [] (trapsOf m g.lanes.length cause va)

/-- Waiting lanes of a group go on after their instruction. -/
def State.release (s : State) (gid : Nat) (w : Wait) : State :=
  s.updGroup gid fun g => { g with lanes := g.lanes.map fun l => if l.status = .waiting w then l.goOn else l }

/-- The lanes of a group that wait for something. -/
def Group.waitersOn (g : Group) (w : Wait) : BitVec 64 := g.maskOf fun _ l => l.status == .waiting w

/-- Lanes that have gone on after an instruction with a fallback raise `SCOPE_FALLBACK` there when warnings trap,
unless traps are masked (R91, R202, R444). -/
def State.afterOp (s : State) (gid : Nat) (m : BitVec 64) (warn : BitVec 4) : State :=
  match s.group? gid with
  | none => s
  | some g =>
    if warn != 0#4 && g.wtrap && !g.masked then s.trapWaiting gid m (causeOf cScopeFallback 0) (noVA cScopeFallback) else s

/-- A part of an operation that c1 counts has completed. -/
def State.finishStore (s : State) (gid op : Nat) : State :=
  s.updGroup gid fun g => { g with q1 := finishPart op g.q1 }

/-- Tickets of a sequencer, the fabric's or the device's, are used up (R145). -/
def State.dropTickets (s : State) (fab : Bool) (ts : List Nat) : State :=
  if fab then { s with seqr := { s.seqr with fabOut := s.seqr.fabOut.filter fun t => !ts.contains t } }
  else { s with seqr := { s.seqr with devOut := s.seqr.devOut.filter fun t => !ts.contains t } }

/-- Another request of the same instruction's event holds the ticket and has not performed: an access of several lines
is one event (R145). -/
def State.ticketShared (s : State) (r : Req) (t : Nat) : Bool :=
  (s.reqs.any fun q => q.id != r.id && q.gid == r.gid && q.op == r.op && q.seq == r.seq && !q.done &&
    q.parts.any fun p => p.ticket == t) ||
  (s.cores.any fun c => c.2.cbuf.any fun e => e.tickets.contains (r.seq.getD false, t))

/-- The tickets of a request's parts are used up when every request of their event has performed (R145). -/
def State.useTickets (s : State) (r : Req) : State :=
  match r.seq with
  | none => s
  | some fab => s.dropTickets fab ((r.parts.map fun p => p.ticket).filter fun t => !s.ticketShared r t)

/-- Lanes of a request. -/
def Req.lanes (r : Req) : BitVec 64 := r.parts.foldl (fun m p => m ||| (1#64 <<< p.lane)) 0#64

/-- The acquire effect of a request that has performed; later accesses of its lanes wait no longer (R136). -/
def State.acquired (s : State) (r : Req) : State :=
  if isAcquire r.order then
    (s.acquireEffect r.gid r.lanes r.scope fun _ => false).giveLanes r.gid r.lanes fun _ l =>
      { l with acq := l.acq.erase r.id }
  else s

/-- An access that reads at its home refreshes the L1 line of its core, so that no later load of the core
returns an older value (R139). -/
def State.refresh (s : State) (core key : Nat) (d : LineData) : State :=
  s.updCore core fun c => c.l1Refresh key (c.overlay key d)

/-- A load performs (R134): each part takes its bytes, and a load at core scope or narrower allocates the line
in the L1 (R59, R62, R92). -/
def State.serveLoad (s : State) (r : Req) (key : Nat) (d : LineData) (poison : Bool) : State :=
  let c := s.core r.core
  let wide := match s.group? r.gid with
    | some g => s.wideScope g r.scope
    | none => true
  let parts := r.parts.map fun p =>
    { p with value := p.slice (c.seenBy key wide d),
             trap := if poison then causeOf cDataPoison 0 else p.trap }
  let s := s.updReq r.id fun q => { q with parts := parts, done := true }
  let s := if poison then s else s.refresh r.core key d
  let keep := !poison && !wide && retOf r.attr.ret r.attr.ret != retBypass && !(r.attr.remote && r.attr.coh == 0#2)
  let s := if keep && ((s.core r.core).l1Line? key).isNone then
      s.updCore r.core fun c => c.l1Put key r.attr.coh r.attr.ret (c.overlay key d)
    else s
  s.updCore r.core fun c =>
    r.parts.foldl (fun c p => if wide then c else c.learn key r.gid p.lane p.mask) c

/-- Whether the atomic writes a register. -/
def Req.returns (r : Req) : Bool := r.parts.any fun p => p.dst.isSome

/-- An atomic performs; a refused one leaves the line and returns what it holds (R52). A `.nr` form counts on
c1 and is then over (R324). -/
def State.serveAtom (s : State) (r : Req) (a : AtomOp) (key : Nat) (d : LineData) (poison refused : Bool) :
    State × BitVec 128 × LineData :=
  let s := s.useTickets r
  if poison then
    (s.updReq r.id fun q => { q with done := true, parts := q.parts.map fun p => { p with trap := causeOf cDataPoison 0 } },
      0, d)
  else
    let res := atomParts a r.size d r.parts
    let parts := if refused then r.parts.map fun p => { p with value := p.slice d } else res.2
    let d' := if refused then d else res.1
    let s := if refused then s.log (.refusedWrite key) else s.refresh r.core key d'
    let s := s.acquired r
    let s := if r.returns then s.updReq r.id fun q => { q with parts := parts, done := true }
      else (s.finishStore r.gid r.op).dropReq r.id
    (s, if refused then 0 else partsMask r.parts, d')

/-- A lock attempt performs (R340): what it finds decides whether it succeeds. A failed acquisition is tried again by
LOCK_RETRY; a failed release traps. A refused write changes nothing and is logged (R52). -/
def State.serveLock (s : State) (r : Req) (rel : Bool) (key : Nat) (d : LineData) (poison refused : Bool) :
    State × BitVec 128 × LineData :=
  let va := match r.parts with
    | p :: _ => p.va
    | [] => 0
  let live := match s.group? r.gid with
    | some g => g.waitersOn .lock
    | none => 0
  if poison then ((s.dropReq r.id).trapWaiting r.gid live (causeOf cDataPoison 0) va, 0, d)
  else
    let res := atomParts .cas 8 d r.parts
    let ok := res.2.all fun p => p.value == p.data
    if !ok then
      if rel then ((s.dropReq r.id).trapWaiting r.gid live (causeOf cLockState 0) va, 0, d)
      else (s.updReq r.id fun q => { q with done := true }, 0, d)
    else
      let s := if refused then s.log (.refusedWrite key) else s.refresh r.core key res.1
      let s := if rel then s else s.acquireEffect r.gid live r.scope fun _ => false
      (((s.dropReq r.id).release r.gid .lock).afterOp r.gid live r.warn, if refused then 0 else partsMask r.parts, res.1)

/-- The 16 doublewords of a line. -/
def lineWords (d : LineData) : List DWord := (List.range 16).map fun i => d.extractLsb' (64 * i) 64
/-- A line of 16 doublewords. -/
def wordsLine (ws : List DWord) : LineData :=
  ws.foldr (fun (w : DWord) (d : LineData) => (d <<< 64) ||| w.setWidth 1024) 0

/-- A request performs on its line: what it writes there, as a mask and the line's new bytes. -/
def State.serveReq (s : State) (r : Req) (key : Nat) (d : LineData) (poison refused : Bool) :
    State × BitVec 128 × LineData :=
  match r.kind with
  | .load => ((s.useTickets r).acquired r |>.serveLoad r key d poison, 0, d)
  | .store => (s, 0, d)
  | .atom a => s.serveAtom r a key d poison refused
  | .lockAcq => s.serveLock r false key d poison refused
  | .lockRel => s.serveLock r true key d poison refused
  | .stash w =>
    let s := s.updReq r.id fun q => { q with done := true, poison := poison, words := lineWords d }
    (if w && !poison then s.updTag key fun t => { t with owner := some r.core } else s, 0, d)
  | .hint => (s.dropReq r.id, 0, d)
  | .flask _ => (s, 0, d)
  | .fence => (s, 0, d)
  | .hamper _ => (s, 0, d)
  | .touch _ => (s, 0, d)

/-- Whether a request writes its line. -/
def Req.writes (r : Req) : Bool :=
  match r.kind with
  | .store => true
  | .atom _ => true
  | .lockAcq => true
  | .lockRel => true
  | .stash w => w
  | .load => false
  | .hint => false
  | .flask _ => false
  | .fence => false
  | .hamper _ => false
  | .touch _ => false

/-- The bytes that a request needs of its line. -/
def Req.need (r : Req) : BitVec 128 :=
  match r.parts with
  | [] => BitVec.allOnes 128
  | ps => partsMask ps

/-! ### Drains of the coalescing buffer (R60) -/

/-- The entry with a number. -/
def Core.entryOf? (c : Core) (id : Nat) : Option CbEntry := c.cbuf.find? fun e => e.id == id

/-- An entry leaves the buffer: the stores whose bytes it held have performed, and their tickets are used up (R145,
R324). A ticket that another entry or a waiting request still holds stays. -/
def State.endDrain (s : State) (core : Nat) (e : CbEntry) : State :=
  let s := s.updCore core fun c => { c with cbuf := c.cbuf.filter fun f => f.id != e.id }
  let held := fun (t : Bool × Nat) => (s.cores.any fun c => c.2.cbuf.any fun f => f.tickets.contains t) ||
    s.reqs.any fun q => q.seq == some t.1 && q.granted && !q.done && q.parts.any fun p => p.ticket == t.2
  let free := e.tickets.filter fun t => !held t
  let s := (s.dropTickets false ((free.filter fun t => !t.1).map fun t => t.2)).dropTickets true
    ((free.filter fun t => t.1).map fun t => t.2)
  e.ops.foldl (fun s o => s.finishStore o.1 o.2) s

/-! ### Writing at the home -/

/-- The masked bytes of a line are written: a full write ends its poison (R88), and the halves of a host-window
line become M (R108). -/
def State.writeHome (s : State) (line : Nat) (mask : BitVec 128) (d : LineData) : State :=
  if mask = 0#128 then s
  else
    let s := { s with mem := writeMasked s.mem line mask d 128 }
    let s := if mask = BitVec.allOnes 128 then s.setPoison line false else s
    if isHostLine line then
      (halvesOf mask).foldl (fun s h => s.updTag line fun t => t.setBridgeHalf h 3#2) s
    else s

/-- An error ends in a poisoned answer: the carve-out is not read from outside (R27). -/
def State.noHostRead (s : State) (line : Nat) : Bool := s.inCarve (128 * line)

/-- A write is refused at the home (R52), or its host-window line cannot be reached (R478). -/
def State.refuses (s : State) (line : Nat) : Bool := s.refusesWrite line || s.unreachable line

/-- A host request performs (R105, R108, R109, R52, R27, R473). -/
def State.performHost (s : State) (line kind half : Nat) (x : BitVec 512) : State :=
  let d := halfData (readLine s.mem line) half
  let poison := s.poisoned line || s.noHostRead line
  let sev := if kind = 9 ∨ kind = 10 then Severity.advisory else .uncorrectable
  let s := if s.noHostRead line && (kind == 0 || kind == 1 || kind == 3 || kind == 9) then s.log (.hostAccess line sev) else s
  let st := match s.tag? line with
    | some t => t.hostHalf half
    | none => 0
  let setSt := fun (s : State) x => s.updTag line fun t => t.setHostHalf half x
  let bridge := match s.tag? line with
    | some t => t.bridgeHalf half
    | none => 0
  let setBr := fun (s : State) x => s.updTag line fun t => t.setBridgeHalf half x
  let data := if poison then 0#512 else d
  let write := fun (s : State) => s.writeHome line (halfMask half) (fullHalf x half)
  match kind with
  | 0 => (setSt s (if st = 2#2 then 2#2 else 1#2)).send (.hostData line half poison data)
  | 1 => (setSt s 2#2).send (.hostData line half poison data)
  | 2 => if s.refusesWrite line then ((s.log (.hostAccess line sev)).send (.hostDone line half true))
         else ((write (setSt s 2#2)).send (.hostDone line half false))
  | 3 => s.send (.hostData line half poison data)
  | 4 => if s.refusesWrite line then (((setSt s 0#2).log (.hostAccess line sev)).send (.hostDone line half true))
         else ((setSt (write s) 0#2).send (.hostDone line half false))
  | 5 => setSt s 0#2
  | 6 => if bridge = 3#2 then (setBr s 1#2).send (.snoopAnswer line half (some d))
         else if bridge = 0#2 then s else (setBr s 1#2).send (.snoopAnswer line half none)
  | 7 => if bridge = 3#2 then (setBr s 0#2).send (.snoopAnswer line half (some d))
         else if bridge = 0#2 then s else (setBr s 0#2).send (.snoopAnswer line half none)
  | 8 => if bridge = 3#2 then s.send (.snoopAnswer line half (some d))
         else if bridge = 0#2 then s else s.send (.snoopAnswer line half none)
  | 9 => s.send (.bar2Data (2 * line + half) (if s.noHostRead line then BitVec.allOnes 512 else d))
  | _ => if s.refusesWrite line then s.log (.hostAccess line sev) else write s

/-! ### A waiter performs at the home -/

/-- A READ is answered (R98): the requester becomes the head, or gets a copy that it does not keep (R100). -/
def State.performRead (s : State) (line : Nat) (src : ChainPtr) : State :=
  let d := readLine s.mem line
  let p := s.poisoned line
  match s.tag? line with
  | none => s.fromHome line src (.data nullPtr true p d)
  | some t =>
    (s.updTag line fun t => { t with head := src, hst := hstSH }).fromHome line src
      (.data (if t.hst = hstSH then t.head else nullPtr) false p d)

/-- An OWN is granted (R98). -/
def State.performOwn (s : State) (line : Nat) (src : ChainPtr) : State :=
  let d := readLine s.mem line
  let p := s.poisoned line
  match s.tag? line with
  | none => s
  | some t =>
    if t.hst = hstSH then
      let same := ptrNode t.head == ptrNode src
      (s.updTag line fun t => { t with head := src, hst := hstPG, homeWalk := false, walkPos := t.head }).fromHome line src
        (.grant (if same then nullPtr else t.head) same p d)
    else (s.updTag line fun t => { t with head := src, hst := hstEX }).fromHome line src (.grant nullPtr false p d)

/-- The atomic of an opcode of R333, with its size. -/
def atomOfOpcode (op : Nat) : AtomOp × Nat :=
  match op with
  | 0x20 => (.add, 4)
  | 0x21 => (.add, 8)
  | 0x22 => (.mini, 4)
  | 0x23 => (.maxi, 4)
  | 0x24 => (.minn, 4)
  | 0x25 => (.maxn, 4)
  | 0x26 => (.and, 4)
  | 0x27 => (.or, 4)
  | 0x28 => (.xor, 4)
  | 0x29 => (.xchg, 4)
  | 0x2A => (.xchg, 8)
  | 0x2B => (.cas, 4)
  | 0x2C => (.cas, 8)
  | 0x2D => (.addf, 4)
  | 0x2E => (.mini, 8)
  | _ => (.maxi, 8)

/-- The opcode of an atomic (R333). -/
def opcodeOfAtom (a : AtomOp) (size : Nat) : Nat :=
  match a with
  | .add => if size = 4 then 0x20 else 0x21
  | .mini => if size = 4 then 0x22 else 0x2E
  | .maxi => if size = 4 then 0x23 else 0x2F
  | .minn => 0x24
  | .maxn => 0x25
  | .and => 0x26
  | .or => 0x27
  | .xor => 0x28
  | .xchg => if size = 4 then 0x29 else 0x2A
  | .cas => if size = 4 then 0x2B else 0x2C
  | .addf => 0x2D

/-- The atomic that a request performs at its home, if it is one; a lock attempt is a compare-and-swap of 8 bytes
(R340). -/
def Req.atomic? (r : Req) : Option AtomOp :=
  match r.kind with
  | .atom a => some a
  | .lockAcq => some .cas
  | .lockRel => some .cas
  | .load => none
  | .store => none
  | .flask _ => none
  | .fence => none
  | .hint => none
  | .hamper _ => none
  | .touch _ => none
  | .stash _ => none

/-- The lowest byte of a mask. -/
def lowestByte (m : BitVec 128) : Nat := ((List.range 128).find? fun i => m.getLsbD i).getD 0

/-- A request that another module forwards performs (R57, R92), or is refused (R27, R52). An atomic that reads poison
writes nothing (R89). -/
def State.performForeign (s : State) (line node kind : Nat) (mask : BitVec 128) (x : LineData) : State :=
  let d := readLine s.mem line
  if s.inCarve (128 * line) then s.send (.nack line node none)
  else if kind != 0 && s.refusesWrite line then s.send (.nack line node (some d))
  else if kind = 0 then s.send (.remoteAnswer node line (s.poisoned line) d)
  else if kind = 1 then (s.writeHome line mask x).send (.remoteAnswer node line false 0)
  else if s.poisoned line then s.send (.remoteAnswer node line true d)
  else
    let a := atomOfOpcode kind
    let p : Part := { lane := 0, va := 0, pa := lowestByte mask, off := 0, len := a.2, data := x.setWidth 64 |>.setWidth 128,
                      data2 := (x.extractLsb' 64 64).setWidth 128, dst := none, value := 0, trap := 0, ticket := 0 }
    let r := atomParts a.1 a.2 d [p]
    (s.writeHome line p.mask r.1).send (.remoteAnswer node line false d)

/-- The request goes on with the atomics that are half done on a line. -/
def State.runs (s : State) (t : HomeTag) (w : Waiter) : Bool :=
  match w with
  | .req id => (match s.req? id with
      | some r => t.run == some (r.gid, r.op)
      | none => false)
  | .drain _ _ => false
  | .read _ => false
  | .own _ => false
  | .host _ _ _ => false
  | .foreign _ _ _ _ => false

/-- An atomic has performed: other parties wait while the same operation still has atomics on the line (R334, log 133). -/
def State.markRun (s : State) (line : Nat) (r : Req) : State :=
  let more := r.atomic?.isSome && s.reqs.any fun q =>
    q.id != r.id && q.gid == r.gid && q.op == r.op && q.line == r.line && !q.done && q.atomic?.isSome
  s.updTag line fun t => { t with run := if more then some (r.gid, r.op) else none }

/-- A waiter performs at the home of its line. -/
def State.performHome (s : State) (line : Nat) (w : Waiter) : State :=
  let d := readLine s.mem line
  match w with
  | .read src => s.performRead line src
  | .own src => s.performOwn line src
  | .req id =>
    match s.req? id with
    | none => s
    | some r =>
      let s := if r.attr.mig then s.countMig line s.thisNode else s
      let o := s.serveReq r line d (s.poisoned line || s.unreachable line) (r.writes && s.refuses line)
      (o.1.writeHome line o.2.1 o.2.2).markRun line r
  | .drain core e =>
    match (s.core core).entryOf? e with
    | none => s
    | some e =>
      let s := if e.mig then s.countMig line s.thisNode else s
      let s := if s.refuses line then s.log (.refusedWrite line) else s.writeHome line e.mask e.data
      s.endDrain core e
  | .host kind half x => s.performHost line kind half x
  | .foreign node kind mask x => s.performForeign line node kind mask x

/-- What a waiter needs of its line. -/
def State.needOf (s : State) (w : Waiter) : Need :=
  match w with
  | .read _ => ⟨false, 3, true, BitVec.allOnes 128⟩
  | .own _ => ⟨true, 4, true, BitVec.allOnes 128⟩
  | .req id =>
    match s.req? id with
    | none => ⟨false, 0, false, 0⟩
    | some r => ⟨r.writes, if r.writes then 2 else 1, true, r.need⟩
  | .drain core e =>
    match (s.core core).entryOf? e with
    | none => ⟨false, 0, false, 0⟩
    | some e => ⟨true, 2, true, e.mask⟩
  | .host kind half _ =>
    if kind = 4 ∨ kind = 5 then ⟨false, 0, false, 0⟩
    else if kind = 0 ∨ kind = 3 then ⟨false, 1, false, halfMask half⟩
    else if kind = 6 ∨ kind = 8 then ⟨false, 2, false, halfMask half⟩
    else if kind = 9 then ⟨false, 1, true, halfMask half⟩
    else if kind = 10 then ⟨true, 2, true, halfMask half⟩
    else ⟨true, 2, false, halfMask half⟩
  | .foreign _ kind mask _ => ⟨kind != 0, if kind = 0 then 1 else 2, true, mask⟩

/-- THE HOME SERVES A LINE (R57, R98, R99): its waiting requests in the order of their arrival, each after the
steps that it needs. -/
def State.pump (s : State) (line : Nat) : Nat → State
  | 0 => s
  | n + 1 =>
    match s.tag? line with
    | none => s
    | some t =>
      if t.busy then s
      else
        match t.queue with
        | [] => s
        | w :: rest =>
          if t.run.isSome && !s.runs t w then s
          else match s.prepare t (s.needOf w) with
          | some s => s
          | none => (((s.updTag line fun t => { t with queue := rest }).performHome line w)).pump line n

/-- Serves a line as far as it can be served. -/
def State.pumpAll (s : State) (line : Nat) : State :=
  match s.tag? line with
  | none => s
  | some t => s.pump line (t.queue.length + 1)

/-! ### Entering the home -/

/-- Retention and sticky class that a request brings (R63, R64). A request of a chain, of the host or of another module
names neither: it is taken as `default` and class 0 (log 111). -/
def State.retentionOf (s : State) (w : Waiter) : BitVec 2 × Nat :=
  match w with
  | .req id =>
    match s.req? id with
    | some r => (r.attr.ret, s.clsOf r.gid)
    | none => (retDefault, 0)
  | .drain core e =>
    match (s.core core).entryOf? e with
    | some e => (e.ret, match e.ops with
        | o :: _ => s.clsOf o.1
        | [] => 0)
    | none => (retDefault, 0)
  | .read _ => (retDefault, 0)
  | .own _ => (retDefault, 0)
  | .host _ _ _ => (retDefault, 0)
  | .foreign _ _ _ _ => (retDefault, 0)

/-- Whether a request needs the line's tag (R72, R98, R105, R108). -/
def State.mustAllocate (s : State) (line : Nat) (w : Waiter) : Bool :=
  match w with
  | .own _ => true
  | .read _ => false
  | .req id =>
    match s.req? id with
    | some r => isHostLine line || r.kind == .stash true
    | none => false
  | .drain _ _ => isHostLine line
  | .host kind _ _ => decide (kind < 3)
  | .foreign _ _ _ _ => isHostLine line

/-- Requests that wait in a slice's queue (R99). -/
def State.queued (s : State) (slice : Nat) : Nat :=
  (s.home.tags.filter fun t => sliceOf (keyLine t.line) == slice).foldl (fun n t => n + t.queue.length) 0

/-- A chain request that a home may refuse with RETRY. -/
def Waiter.chain? : Waiter → Option ChainPtr
  | .read src => some src
  | .own src => some src
  | .req _ => none
  | .drain _ _ => none
  | .host _ _ _ => none
  | .foreign _ _ _ _ => none

/-- Whether the home answers a READ or OWN with RETRY (R99): the queue is full, a local request waits for a
place, or the last place is kept for the oldest request refused. -/
def State.refusesChain (s : State) (line : Nat) (src : ChainPtr) : Bool :=
  let slice := sliceOf line
  let n := s.queued slice
  let local' := s.home.inbox.any fun e => sliceOf (keyLine e.1) == slice && e.2.chain?.isNone
  match s.home.refused.find? fun r => r.1 == slice with
  | none => decide (32 ≤ n) || local'
  | some r => decide (32 ≤ n) || local' || (decide (31 ≤ n) && !(r.2.1 == line && ptrNode r.2.2 == ptrNode src))

/-- A request joins the queue of its line; a chain request that had been refused is so no longer (R99). -/
def State.joinQueue (s : State) (line : Nat) (w : Waiter) : State :=
  let s := match w.chain? with
    | some src => s.mapHome fun h => { h with refused := h.refused.filter fun r => !(r.2.1 == line && ptrNode r.2.2 == ptrNode src) }
    | none => s
  (s.updTag line fun t => { t with queue := if s.runs t w then w :: t.queue else t.queue ++ [w] }).pumpAll line

/-- A home answers a chain request with RETRY, and remembers it (R99). -/
def State.refuseChain (s : State) (line : Nat) (src : ChainPtr) : State :=
  let known := s.home.refused.any fun r => r.2.1 == line && ptrNode r.2.2 == ptrNode src
  let s := if known then s else s.mapHome fun h => { h with refused := h.refused ++ [(sliceOf line, line, src)] }
  s.fromHome line src .retry

/-- A request enters the home of its line, and true; or it cannot enter now, after the steps that its allocation has
begun (R99, R100). -/
def State.enterHome (s : State) (line : Nat) (w : Waiter) : State × Bool :=
  let ret := s.retentionOf w
  match s.tag? line with
  | some t =>
    if t.busy || !t.queue.isEmpty then
      match w.chain? with
      | some src => (if s.refusesChain line src then s.refuseChain line src else (s.hitTag t ret.1 ret.2).joinQueue line w, true)
      | none => if 32 ≤ s.queued (sliceOf line) then (s, false) else ((s.hitTag t ret.1 ret.2).joinQueue line w, true)
    else ((s.hitTag t ret.1 ret.2).joinQueue line w, true)
  | none =>
    match s.allocate line ret.1 ret.2 (s.mustAllocate line w) with
    | (s, .here) => (s.joinQueue line w, true)
    | (s, .bypass) => (s.performHome line w, true)
    | (s, .later) => (s, false)

/-! ### The caching slices of remote `sys` lines (R92, R101) -/

/-- A request is served at a caching slice that holds the line. -/
def State.performCache (s : State) (c : CacheTag) (w : Waiter) : State :=
  match w with
  | .req id =>
    match s.req? id with
    | none => s
    | some r =>
      let o := s.serveReq r c.line c.data c.poison false
      let s := if o.2.1 = 0#128 then o.1
        else o.1.updCache c.line fun c =>
          { c with data := mergeBytes c.data o.2.2 o.2.1 128, cst := cstM,
                   poison := c.poison && o.2.1 != BitVec.allOnes 128 }
      s.markRun c.line r
  | .drain core e =>
    match (s.core core).entryOf? e with
    | none => s
    | some e =>
      (s.updCache c.line fun c =>
        { c with data := mergeBytes c.data e.data e.mask 128, cst := cstM,
                 poison := c.poison && e.mask != BitVec.allOnes 128 }).endDrain core e
  | .read _ => s
  | .own _ => s
  | .host _ _ _ => s
  | .foreign _ _ _ _ => s

/-- The MIG bit that a request carries (R110). -/
def State.migOf (s : State) (w : Waiter) : Bool :=
  match w with
  | .req id => (match s.req? id with
      | some r => r.attr.mig
      | none => false)
  | .drain core e => (match (s.core core).entryOf? e with
      | some e => e.mig
      | none => false)
  | .read _ => false
  | .own _ => false
  | .host _ _ _ => false
  | .foreign _ _ _ _ => false

/-- A FETCH or RECALL that came within a run of atomics is answered when the run is over (R334). -/
def State.answerAsked (s : State) (key : Nat) : State :=
  match s.cacheTag? key with
  | none => s
  | some c =>
    if s.running key then s
    else
      match c.asked with
      | none => s
      | some true =>
        let s := s.toHome key (.recallAnswer (c.cst == cstM) c.poison c.data)
        if c.queue.isEmpty then s.dropTag key
        else s.updCache key fun c => { c with cst := cstI, fwd := nullPtr, back := nullPtr, asked := none }
      | some false =>
        (s.toHome key (.fetchAnswer (c.cst == cstM) c.poison c.data)).updCache key fun c =>
          { c with cst := cstS, fwd := nullPtr, back := homePtr key, asked := none }

/-- A request of another operation waits while the atomics of one are half done on the line (R334). -/
def State.outOfRun (s : State) (key : Nat) (w : Waiter) : Bool :=
  match s.tag? key with
  | some t => t.run.isSome && !s.runs t w
  | none => false

/-- A caching slice serves its line's requests in order, and asks the home for what they need (R101). -/
def State.pumpCache (s : State) (key : Nat) : Nat → State
  | 0 => s
  | n + 1 =>
    match s.cacheTag? key with
    | none => s
    | some c =>
      match c.queue with
      | [] => s
      | w :: rest =>
        let write := (s.needOf w).write
        let mig := s.migOf w
        let serve := (((s.updCache key fun c => { c with queue := rest }).performCache c w).answerAsked key)
        if s.outOfRun key w then s
        else if c.cst = cstE ∨ c.cst = cstM then serve.pumpCache key n
        else if c.cst = cstS then
          if !write then serve.pumpCache key n
          else if ptrKind c.back = 2 then (s.updCache key fun c => { c with cst := cstWPEND }).toHome key (.own mig)
          else s.startUnlink c true
        else if c.cst = cstI then
          if write then (s.updCache key fun c => { c with cst := cstWPEND }).toHome key (.own mig)
          else (s.updCache key fun c => { c with cst := cstRPEND }).toHome key (.read mig)
        else s

def State.pumpCacheAll (s : State) (key : Nat) : State :=
  match s.cacheTag? key with
  | none => s
  | some c => s.pumpCache key (c.queue.length + 1)

/-- A caching entry with nothing in it. -/
def CacheTag.empty (key : Nat) : CacheTag :=
  { line := key, cst := cstI, fwd := nullPtr, back := nullPtr, data := 0, acks := 0, target := nullPtr,
    heldPurge := none, wantOwn := false, backoff := 0, poison := false, asked := none, queue := [] }

/-- A request enters the caching slice of its line, and true; or it cannot enter now. -/
def State.enterCache (s : State) (key : Nat) (w : Waiter) : State × Bool :=
  let add := fun (s : State) =>
    let first := s.running key && !s.outOfRun key w
    (s.updCache key fun c => { c with queue := if first then w :: c.queue else c.queue ++ [w] }).pumpCacheAll key
  match s.cacheTag? key with
  | some _ => (add (s.allocate key (s.retentionOf w).1 (s.retentionOf w).2 true).1, true)
  | none =>
    match s.allocate key (s.retentionOf w).1 (s.retentionOf w).2 true with
    | (s, .here) => (add (s.mapHome fun h => { h with caches := CacheTag.empty key :: h.caches }), true)
    | (s, _) => (s, false)

/-- A store that a dead node's home cannot take is dropped and logged, and its groups know (R122). -/
def State.dropWrite (s : State) (key : Nat) (gids : List Nat) : State :=
  (gids.foldl (fun s gid => s.updGroup gid fun g => { g with dropped := true }) s).log (.droppedWrite key)

/-- The operand and the swap value of an atomic's part, as they go to a home on another module. -/
def Part.operands (p : Part) : LineData := ((p.data2.setWidth 64).setWidth 1024 <<< 64) ||| (p.data.setWidth 64).setWidth 1024

/-- A request of this module performs at a home on another module that keeps no copy here (R90, R92): the answer comes
with it, and an atomic goes out as an atomic. A dead node answers with poison. -/
def State.performFar (s : State) (r : Req) (key : Nat) (poison : Bool) (d : LineData) : State :=
  let node := homeNode key
  let dead := s.plat.dead.contains node
  let s := match r.atomic? with
    | some a =>
      if dead then s
      else r.parts.foldl (fun s (p : Part) => s.send (.remoteAtomic node (keyLine key) (opcodeOfAtom a r.size) r.attr.mig p.mask p.operands)) s
    | none => s
  (s.serveReq r key d (poison || dead) false).1

/-- A request performs at a home on another module, or goes on to it (R92, R114, R122). -/
def State.performRemote (s : State) (key : Nat) (w : Waiter) (poison : Bool) (d : LineData) : State :=
  let node := homeNode key
  match w with
  | .req id =>
    match s.req? id with
    | none => s
    | some r => s.performFar r key poison d
  | .drain core e =>
    match (s.core core).entryOf? e with
    | none => s
    | some e =>
      if s.plat.dead.contains node then (s.dropWrite key (e.ops.map fun o => o.1)).endDrain core e
      else (s.send (.remoteWrite node (keyLine key) e.mig e.mask e.data)).endDrain core e
  | .read src => s.send (.forward (keyLine key) node src false)
  | .own src => s.send (.forward (keyLine key) node src true)
  | .host kind half x => s.send (.forwardHost node (keyLine key) kind half x)
  | .foreign from' kind mask x => s.send (.forwardForeign node (keyLine key) from' kind mask x)

/-- Where a line has been forwarded to (R114). -/
def State.forwardOf (s : State) (line : Nat) : Option (Nat × Nat) :=
  match s.home.forwarded.find? fun f => f.1 == line with
  | some f => some f.2
  | none => none

/-- The coherence class that a request carries. -/
def State.cohOf (s : State) (w : Waiter) : BitVec 2 :=
  match w with
  | .req id => (match s.req? id with
      | some r => r.attr.coh
      | none => 0)
  | .drain core e => (match (s.core core).entryOf? e with
      | some e => e.coh
      | none => 0)
  | .read _ => 2
  | .own _ => 2
  | .host _ _ _ => 2
  | .foreign _ _ _ _ => 0

/-- A load with retention `bypass` that misses in its caching slice: it performs at its home and keeps no copy
(R63, log 69). -/
def State.bypassesCache (s : State) (key : Nat) (w : Waiter) : Bool :=
  (s.cacheTag? key).isNone && (s.retentionOf w).1 == retBypass && !(s.needOf w).write

/-- Where a request is served. -/
inductive Route where
  /-- at the home on this module -/
  | home (line : Nat)
  /-- at the caching slice of a remote `sys` line -/
  | cache (key : Nat)
  /-- at a home on another module -/
  | far (key : Nat)
  deriving DecidableEq, Repr

/-- The route of a request: to its home, to the caching slice of a remote `sys` line, to a remote home, or to where the
line has been forwarded (R92, R114). -/
def State.route (s : State) (key : Nat) (w : Waiter) : Route :=
  match keyNode key with
  | some node =>
    if s.cohOf w = 2#2 && !s.plat.dead.contains node && !s.bypassesCache key w then .cache key else .far key
  | none =>
    match s.forwardOf key with
    | some (node, dst) => if node = 0x1000 then .home dst else .far (remoteKey node dst)
    | none => .home key

/-- A request arrives where its line is served, and true when it has entered there. -/
def State.enter (s : State) (key : Nat) (w : Waiter) (poison : Bool) (d : LineData) : State × Bool :=
  match s.route key w with
  | .home line => s.enterHome line w
  | .cache key => s.enterCache key w
  | .far key => (s.performRemote key w poison d, true)

/-- A request arrives; one that cannot enter, or that follows another such request to the line, waits at the
slice's input (R99, R100). -/
def State.arrive (s : State) (key : Nat) (w : Waiter) (poison : Bool) (d : LineData) : State :=
  let wait := fun (s : State) => s.mapHome fun h => { h with inbox := h.inbox ++ [(key, w)] }
  if s.home.inbox.any fun e => e.1 == key then wait s
  else
    match s.enter key w poison d with
    | (s, true) => s
    | (s, false) => wait s

/-- A waiting request of this module whose line has moved to another module is sent anew, for that home's answer
(R114). -/
def State.resend (s : State) (w : Waiter) : State :=
  match w with
  | .req id => s.updReq id fun r => { r with sent := false }
  | .read _ => s
  | .own _ => s
  | .drain _ _ => s
  | .host _ _ _ => s
  | .foreign _ _ _ _ => s

/-- A request of this module that needs the answer of a home on another module. -/
def State.needsAnswer (s : State) (key : Nat) (w : Waiter) : Bool :=
  match s.route key w, w with
  | .far _, .req _ => true
  | _, _ => false

/-- Requests at the slices' inputs enter as soon as they can, in their order. -/
def State.settleInbox (s : State) : State :=
  s.home.inbox.foldl (fun s e =>
    let first := match s.home.inbox.find? fun f => f.1 == e.1 with
      | some f => f == e
      | none => false
    let out := fun (s : State) => s.mapHome fun h => { h with inbox := h.inbox.erase e }
    if !first then s
    else if s.needsAnswer e.1 e.2 then out (s.resend e.2)
    else
      match s.enter e.1 e.2 false 0 with
      | (s, true) => out s
      | (s, false) => s) s

end Sys2Proof.Machine
end

