-- ==== Sys2Proof/Machine/Mem.lean ====
section
/-! DEFINITION. Loads, stores and atomics of global memory (R321 to R327, R333, R334), the hints that concern
a line (R349), and the steps in which their requests go out, perform and return (R57, R60, R86, R144, R182). -/

namespace Sys2Proof.Machine

/-! ### Accesses of a lane -/

/-- A stretch of an access within one line: its address, its place in the access, and its translation. -/
structure Span where
  va : DWord
  off : Nat
  len : Nat
  trans : Trans
  deriving DecidableEq, Repr

/-- Whether the core's data TLB misses a page (R422). -/
def State.dtlbMiss (s : State) (core guest : Nat) (va : DWord) : Bool :=
  !((s.core core).dtlb.any fun e => e.maps guest (pageOf va))

/-- Translates the bytes of an access: one stretch, or two when it crosses a line (log 25). -/
def State.translateSpans (s : State) (core guest : Nat) (va : DWord) (size : Nat) (k : AccKind) :
    State × Except XErr (List Span) :=
  let n := min size (128 - va.toNat % 128)
  match s.translate (some core) (quadOf core) guest va k with
  | (s, .error e) => (s, .error e)
  | (s, .ok t) =>
    if n = size then (s, .ok [⟨va, 0, size, t⟩])
    else
      let va2 := va + BitVec.ofNat 64 n
      if pageOf va2 = pageOf va then (s, .ok [⟨va, 0, n, t⟩, ⟨va2, n, size - n, t⟩])
      else
        match s.translate (some core) (quadOf core) guest va2 k with
        | (s, .error e) => (s, .error e)
        | (s, .ok t2) => (s, .ok [⟨va, 0, n, t⟩, ⟨va2, n, size - n, t2⟩])

/-! ### The range-lock table (R147, R149) -/

def rangeValid (e : BitVec 128) : Bool := e.getLsbD 127
def rangeDst (e : BitVec 128) : Bool := e.getLsbD 126
def rangeStash (e : BitVec 128) : Bool := e.getLsbD 125
def rangeCore (e : BitVec 128) : Nat := fldN e 121 2
def rangeGuest (e : BitVec 128) : Nat := fldN e 109 12
def rangeOpid (e : BitVec 128) : Nat := fldN e 100 8
def rangeLines (e : BitVec 128) : Nat := fldN e 76 24 + 1
def rangeBase (e : BitVec 128) : Nat := fldN e 0 55

/-- An entry that an access of lines `lo` to `hi` meets: a write meets every entry, a read a destination. -/
def rangeMeets (e : BitVec 128) (stash : Bool) (lo hi : Nat) (write : Bool) : Bool :=
  let base := rangeBase e / 128
  rangeValid e && rangeStash e == stash && (write || rangeDst e) && decide (lo ≤ base + rangeLines e - 1) && decide (base ≤ hi)

/-- A global access touches a registered line of its guest (R149). -/
def State.rangeBusy (s : State) (quad guest : Nat) (va : DWord) (n : Nat) (write : Bool) : Bool :=
  (s.quad quad).ranges.any fun e =>
    rangeGuest e.2 == guest && rangeMeets e.2 false (va.toNat / 128) ((va.toNat + n - 1) / 128) write

/-! ### Checks of an access, lane by lane (R149, R327, R443) -/

/-- Why an access does not go on: a trap with its cause, or a wait for its walk (R41). -/
inductive Stop where
  | trap (c : DWord)
  | wait
  deriving DecidableEq, Repr

/-- What a failed translation means for an access. -/
def XErr.stop (e : XErr) (k : AccKind) : Stop := if e.waits then .wait else .trap (e.cause k)

/-- A lane whose access has passed its checks. -/
structure Access where
  lane : Nat
  va : DWord
  spans : List Span
  deriving DecidableEq, Repr

/-- The checks of one lane's access in their order: translation, range lock, seal (R149). -/
def State.checkAccess (s : State) (g : Group) (va : DWord) (size : Nat) (k : AccKind) :
    State × Except Stop (List Span) :=
  let s := if s.dtlbMiss g.core g.guest va then s.updGroup g.gid fun g => g.count 0x04 1 else s
  match s.translateSpans g.core g.guest va size k with
  | (s, .error e) => (s, .error (e.stop k))
  | (s, .ok sp) =>
    if s.rangeBusy (quadOf g.core) g.guest va size k.writes then (s, .error (.trap (causeOf cRangeBusy 0)))
    else if k.writes && sp.any fun x => !x.trans.remote && s.refusesWrite (x.trans.pa x.va / 128) then
      (s, .error (.trap (causeOf cSealWrite 0)))
    else (sp.foldl (fun s x => s.touchHost g.gid (x.trans.key x.va)) s, .ok sp)

/-- What the checks of several lanes give: the lanes that trap, those that wait for a walk, and the accesses that go
on. -/
structure Checked where
  traps : List LaneTrap
  waits : BitVec 64
  accesses : List Access
  deriving DecidableEq, Repr

/-- The checks of every lane of a mask. -/
def State.checkLanes (s : State) (g : Group) (m : BitVec 64) (size : Nat) (k : AccKind)
    (ea : Nat → Lane → DWord) : State × Checked :=
  (g.lanes.zipIdx).foldl (fun acc e =>
    if m.getLsbD e.2 then
      let va := ea e.2 e.1
      let c := acc.2
      match acc.1.checkAccess g va size k with
      | (s, .error (.trap x)) => (s, { c with traps := c.traps ++ [{ lane := e.2, cause := x, va := va }] })
      | (s, .error .wait) => (s, { c with waits := c.waits ||| (1#64 <<< e.2) })
      | (s, .ok sp) => (s, { c with accesses := c.accesses ++ [{ lane := e.2, va := va, spans := sp }] })
    else acc) (s, ⟨[], 0, []⟩)

/-! ### Requests of an operation -/

/-- A part with nothing in it. -/
def Part.zero : Part :=
  { lane := 0, va := 0, pa := 0, off := 0, len := 0, data := 0, data2 := 0, dst := none, value := 0, trap := 0, ticket := 0 }

/-- A request with nothing in it. -/
def Req.zero : Req :=
  { id := 0, op := 0, gid := 0, core := 0, guest := 0, kind := .load, line := 0, mapped := none, size := 0, attr := default,
    scope := 0, order := 0, fmt := .zx, parts := [], after := [], drains := [], seq := none, granted := false,
    sent := false, done := false, poison := false, warn := 0, held := [], words := [] }

/-- Adds a part to the request of its line, or starts a request. Parts with tickets join only the request
before them, so that their tickets stay in order (log 26). -/
def addPart (last : Bool) (r : Req) (rs : List Req) : List Req :=
  let fits := fun (q : Req) => q.line == r.line && q.scope == r.scope && q.order == r.order && q.seq == r.seq
  if last then
    match rs.reverse with
    | q :: qs => if fits q then (({ q with parts := q.parts ++ r.parts, held := q.held ++ r.held }) :: qs).reverse else rs ++ [r]
    | [] => [r]
  else if rs.any fits then
    rs.map fun q => if fits q then { q with parts := q.parts ++ r.parts, held := q.held ++ r.held } else q
  else rs ++ [r]

/-- Requests of a lane that have not performed. -/
def State.unperformed (s : State) (gid lane : Nat) : List Req :=
  s.reqs.filter fun r => r.gid == gid && !r.done && r.lanes.getLsbD lane

/-- Two requests concern one location: one global line, or one line of the core's stash (R153, R154). -/
def Req.meets (q r : Req) : Bool :=
  let loc := fun (r : Req) => match r.kind with
    | .touch _ => r.mapped
    | _ => some r.line
  let touch := fun (r : Req) => match r.kind with
    | .touch _ => true
    | _ => false
  ((loc q).isSome && loc q == loc r) || (touch q && touch r && q.core == r.core && q.line == r.line)

/-- Coalescing-buffer entries that a lane knows (R136). -/
def State.knownEntries (s : State) (core gid lane : Nat) : List Nat :=
  ((s.core core).cbuf.filter fun e => e.knownTo gid lane != 0#128).map fun e => e.id

/-- The order of a `seqcst` access decides its sequencer: none, the device's, or the fabric's (R144). A page of class
`nc` is not named there: it takes the device's (log 112). -/
def State.sequencer (s : State) (scope order : BitVec 3) (coh : BitVec 2) : Option Bool :=
  if order = oSeqCst then some (scope == 5#3 && coh == 2#2 && fldN s.regs.domCtrl 1 1 == 1) else none

/-- What must have performed before a request (R136, R139, R141, R145): for a `seqcst` access and a release, the earlier
requests of its lanes, and beyond the core the stores they know; for any other, those that concern its location. A
wide load follows the drain of bytes that its lane knows in the buffer (log 108). -/
def State.precede (s : State) (g : Group) (r : Req) : Req :=
  let lanes := r.parts.map fun p => p.lane
  let wide := s.wideScope g r.scope
  let all := r.order == oSeqCst || (isRelease r.order && r.kind != .load)
  let before := lanes.flatMap fun i => (s.unperformed g.gid i).filter fun q => all || q.meets r
  let known := lanes.flatMap fun i => s.knownEntries g.core g.gid i
  let own := match (s.core g.core).entry? r.line with
    | some e => if lanes.any fun i => e.knownTo g.gid i != 0#128 then [e.id] else []
    | none => []
  { r with after := (before.map fun q => q.id).eraseDups,
           drains := (if r.order == oSeqCst || (all && wide) then known else if r.kind = .store then []
                      else if r.kind = .load && !wide then [] else own).eraseDups }

/-- Gives requests their numbers and adds them. -/
def State.addReqs (s : State) (rs : List Req) : State × List Nat :=
  rs.foldl (fun acc r =>
    let id := acc.1.nextId
    ({ acc.1 with reqs := acc.1.reqs ++ [{ r with id := id }], nextId := id + 1 }, acc.2 ++ [id])) (s, [])

/-! ### The outstanding-request table (R86) -/

/-- Unreserved entries of the table. -/
def outstLimit : Nat := 1408

/-- Unreserved entries in use: by requests, and by write-backs and recall answers beyond their 64 reserved ones. -/
def Core.outstUsed (c : Core) : Nat := c.outst.length + (c.backs.length - 64)

/-- Requests that take an entry: one for each, but a load of a line for which an entry is held merges into it. -/
def State.takers (s : State) (core : Nat) (rs : List Req) : List Req :=
  rs.filter fun r => !r.done && !(r.kind == .load && s.reqs.any fun q =>
    q.core == core && q.kind == .load && q.line == r.line && !q.done && (s.core core).outst.contains q.id)

/-! ### What a memory instruction is -/

/-- One form of a global access. -/
structure MemForm where
  kind : ReqKind
  acc : AccKind
  size : Nat
  fmt : LoadFmt
  /-- first destination register of a lane, if it writes one -/
  dst : Option Nat
  /-- number of destination registers -/
  nregs : Nat
  /-- operands: store data or atomic operand, and the swap value -/
  data : Lane → BitVec 128
  data2 : Lane → BitVec 128

/-- The kind of access that the fallbacks tell apart. -/
def MemForm.fallback (f : MemForm) : AccessKind :=
  match f.acc with
  | .load => .load (f.size == 16)
  | .store => .store (f.size == 16)
  | .atomic => .atomic
  | .fetch => .load false
  | .fill => .load false
  | .writeBack => .store false

/-- The request of one stretch of a lane's access. -/
def State.spanReq (s : State) (f : MemForm) (g : Group) (x : XM) (p : Pick) (l : Lane) (a : Access) (sp : Span) : Req :=
  let m := fallbacks f.fallback (some sp.trans.coh) x.scope x.order
  let attr := { sp.trans.attr with ret := retOf x.ret sp.trans.ret }
  { Req.zero with
      gid := g.gid, core := g.core, guest := g.guest, kind := f.kind, line := sp.trans.key sp.va, size := f.size,
      attr := attr, scope := m.scope, order := m.order, fmt := f.fmt, seq := s.sequencer m.scope m.order attr.coh,
      warn := m.warn, held := [(a.lane, l.goTo (p.placeHere l))],
      parts := [{ lane := a.lane, va := a.va, pa := sp.trans.pa sp.va, off := sp.off, len := sp.len,
                  data := f.data l, data2 := f.data2 l, dst := f.dst, value := 0, trap := 0, ticket := 0 }] }

/-- The requests of an operation's accesses, in ascending lane order. -/
def State.buildReqs (s : State) (f : MemForm) (g : Group) (x : XM) (p : Pick) (as : List Access) : List Req :=
  (as.flatMap fun a =>
    match g.lanes[a.lane]? with
    | some l => a.spans.map fun sp => s.spanReq f g x p l a sp
    | none => []).foldl (fun rs r => addPart r.seq.isSome r rs) []

/-- A load at core scope or narrower that the core serves itself: from its L1, or from bytes that the coalescing
buffer holds (R59, R134). -/
def State.servedHere (s : State) (g : Group) (r : Req) : Bool :=
  let c := s.core g.core
  r.kind == .load && !s.wideScope g r.scope && r.seq.isNone &&
    !(r.parts.any fun p => (s.unperformed g.gid p.lane).any fun q => q.meets r) &&
    ((c.l1Line? r.line).isSome || (match c.entry? r.line with
      | some e => partsMask r.parts &&& e.mask == partsMask r.parts
      | none => false))

/-- Serves such a load: its values are taken now. -/
def State.serveHere (s : State) (g : Group) (r : Req) : State × Req :=
  let c := s.core g.core
  let base := match c.l1Line? r.line with
    | some l => l.data
    | none => 0
  let parts := r.parts.map fun p => { p with value := p.slice (c.overlay r.line base) }
  let s := s.updCore g.core fun c =>
    let c := if r.attr.ret = retBypass then c else c.l1Touch r.line
    r.parts.foldl (fun c p => c.learn r.line g.gid p.lane p.mask) c
  let s := if isAcquire r.order then s.acquireEffect g.gid r.lanes r.scope fun _ => false else s
  (s, { r with parts := parts, done := true })

/-- Marks the destination registers of a lane as awaited by an operation (R182). -/
def Lane.await (l : Lane) (d n op : Nat) : Lane :=
  { l with pend := (l.pend.filter fun e => decide (e.1 < d) || decide (d + n ≤ e.1)) ++ (List.range n).map fun i => (d + i, op) }

/-- After an operation has issued with a fallback, its lanes wait for it when warnings trap (R91, R202). -/
def State.warnOp (s : State) (gid op : Nat) (m : BitVec 64) (n : Nat) (w : BitVec 4) : State :=
  if w = 0#4 then s
  else
    let s := s.warn gid w
    match s.group? gid with
    | some g => if g.wtrap then s.waitLanes gid m n (.fallback op) else s
    | none => s

/-- The WARN bits of an operation's requests. -/
def warnOf (rs : List Req) : BitVec 4 := rs.foldl (fun w r => w ||| r.warn) 0#4

/-- Lanes of accesses. -/
def lanesOfAccess (as : List Access) : BitVec 64 := as.foldl (fun m a => m ||| (1#64 <<< a.lane)) 0#64

/-! ### Issue -/

/-- The requests of an operation that reads go out after what precedes them, but for those that the core serves itself;
they take their entries of the table (R59, R86). -/
def State.issueReqs (s : State) (g : Group) (op : Nat) (rs : List Req) : State × List Req :=
  let (s, rs) := rs.foldl (fun (acc : State × List Req) r =>
    let r := { r with op := op }
    if acc.1.servedHere g r then
      let (s, r) := acc.1.serveHere g r
      (s, acc.2 ++ [r])
    else (acc.1, acc.2 ++ [acc.1.precede g r])) (s, [])
  let takers := s.takers g.core rs
  let (s, ids) := s.addReqs rs
  let taken := ((rs.zip ids).filter fun e => takers.contains e.1).map fun e => e.2
  (s.updCore g.core fun c => { c with outst := c.outst ++ taken }, rs)

/-- The requests of a load or of an atomic are issued. -/
def State.commitReqs (s : State) (f : MemForm) (g : Group) (lanes : BitVec 64) (rs : List Req) : State :=
  let (s, op) := s.newId
  let (s, rs) := s.issueReqs g op rs
  let misses := (rs.filter fun r => r.kind == .load && !r.done).length
  let s := s.updGroup g.gid fun g =>
    let g := (g.count 0x03 misses)
    let g := g.mapLanes lanes fun i l =>
      let l := match f.dst with
        | some d => l.await d f.nregs op
        | none => l
      { l with acq := l.acq ++ (s.reqs.filter fun r => r.gid == g.gid && r.op == op && !r.done && isAcquire r.order &&
          r.lanes.getLsbD i).map fun r => r.id }
    match f.dst with
    | some _ => { g with q0 := g.q0 ++ [{ op := op, left := 1 }] }
    | none => { g with q1 := g.q1 ++ [{ op := op, left := rs.length }] }
  s.warnOp g.gid op lanes 2 (warnOf rs)

/-- A store that waits before it enters the coalescing buffer: a release for its lane's earlier accesses, and a
`seqcst` store for its ticket as well (R60, R136, R145). -/
def State.directStore (_s : State) (_g : Group) (r : Req) : Bool := r.order == oSeqCst || isRelease r.order

/-- A store enters the coalescing buffer and the L1 line that it hits, whose place in the replacement order stays. An
entry keeps the retention of the store that opened it (R59, log 113). -/
def Core.bufferStore (c : Core) (gid op id : Nat) (r : Req) : Core :=
  let c := { c with l1 := c.l1.map fun (x : L1Line) => if x.line = r.line then { x with data := storeParts x.data r.parts } else x }
  let learn := fun (e : CbEntry) => r.parts.foldl (fun e p => e.learn gid p.lane p.mask) e
  let tickets := match r.seq with
    | some fab => r.parts.map fun p => (fab, p.ticket)
    | none => []
  if (c.entry? r.line).isSome then
    { c with cbuf := c.cbuf.map fun (e : CbEntry) =>
        if e.line = r.line then
          learn { e with data := storeParts e.data r.parts, mask := e.mask ||| partsMask r.parts, ops := e.ops ++ [(gid, op)],
                         reqs := e.reqs ++ [r.id], tickets := e.tickets ++ tickets }
        else e }
  else
    let e : CbEntry :=
      { id := id, line := r.line, mask := partsMask r.parts, data := storeParts 0 r.parts, ops := [(gid, op)],
        known := [], coh := r.attr.coh, ret := r.attr.ret, mig := r.attr.mig, remote := r.attr.remote,
        node := r.attr.node, reqs := [r.id], tickets := tickets, due := false }
    { c with cbuf := c.cbuf ++ [learn e] }

/-- The requests of a store are issued: into the coalescing buffer, or to wait before it. -/
def State.commitStores (s : State) (g : Group) (lanes : BitVec 64) (rs : List Req) : State :=
  let (s, op) := s.newId
  let rs := rs.map fun r => { r with op := op }
  let direct := (rs.filter fun r => s.directStore g r).map (s.precede g)
  let s := rs.foldl (fun s r =>
    if s.directStore g r then s
    else
      let (s, id) := s.newId
      s.updCore g.core fun c => c.bufferStore g.gid op id { r with id := id }) s
  let s := (s.addReqs direct).1
  let s := s.updGroup g.gid fun g => { g with q1 := g.q1 ++ [{ op := op, left := rs.length }] }
  s.warnOp g.gid op lanes 2 (warnOf rs)

/-- Entries of the coalescing buffer that stores need: one for each new line, and one for each store that waits. -/
def State.newEntries (s : State) (g : Group) (rs : List Req) : Nat :=
  (((rs.filter fun r => !s.directStore g r).map fun r => r.line).eraseDups.filter fun k =>
    ((s.core g.core).entry? k).isNone).length + (rs.filter fun r => s.directStore g r).length

/-- Entries in use, with those that waiting stores of the core will take. -/
def State.bufferUsed (s : State) (core : Nat) : Nat :=
  (s.core core).cbuf.length + (s.reqs.filter fun r => r.core == core && r.kind == .store).length

/-- Lanes that wait at issue themselves: for an earlier acquire (R136), and before a write for an earlier load (R141). -/
def State.laneHeld (s : State) (f : MemForm) (g : Group) (i : Nat) (l : Lane) : Bool :=
  !l.acq.isEmpty || (f.acc != .load && s.awaits g.gid i)

/-- Lines that an access touches. -/
def vaLines (va : DWord) (size : Nat) : Nat × Nat := (va.toNat / 128, (va.toNat + size - 1) / 128)

/-- The lanes that wait: those of a mask and, for a write, every later lane that touches a line of theirs, so that the
lanes of one instruction keep their order there (R126). -/
def Group.heldWith (g : Group) (act held : BitVec 64) (write : Bool) (size : Nat) (ea : Nat → Lane → DWord) : BitVec 64 :=
  if !write then held
  else (g.lanes.zipIdx).foldl (fun h e =>
    let mine := vaLines (ea e.2 e.1) size
    let meets := (g.lanes.zipIdx).any fun k =>
      let v := vaLines (ea k.2 k.1) size
      decide (k.2 < e.2) && h.getLsbD k.2 && decide (v.1 ≤ mine.2) && decide (mine.1 ≤ v.2)
    if act.getLsbD e.2 && meets then h ||| (1#64 <<< e.2) else h) held

/-- A store waits behind a store of its own lane to the line (R139). -/
def State.storeBehind (s : State) (g : Group) (a : Access) : Bool :=
  a.spans.any fun sp => (s.unperformed g.gid a.lane).any fun q =>
    q.meets { Req.zero with kind := .store, line := sp.trans.key sp.va }

/-- Loads or atomics find entries of the table (R86). -/
def State.entriesFor (s : State) (g : Group) (rs : List Req) : Bool :=
  decide ((s.core g.core).outstUsed + (s.takers g.core (rs.filter fun r => !s.servedHere g r)).length ≤ outstLimit)

/-- The accesses for which the core has room: a store's in ascending lane order while the coalescing buffer has entries
(R60); a load's or an atomic's all, or none (R86). -/
def State.roomFor (s : State) (f : MemForm) (g : Group) (build : List Access → List Req) (as : List Access) : List Access :=
  if f.kind = .store then
    let fits := fun k => decide (s.bufferUsed g.core + s.newEntries g (build (as.take k)) ≤ 64)
    as.take (((List.range (as.length + 1)).reverse.find? fits).getD 0)
  else if s.entriesFor g (build as) then as
  else []

/-- A GLOBAL ACCESS of the pick's lanes of one group (R322, R324 to R327, R333). Lanes that must wait at issue do so by
themselves (R168): for the counter of the group (R182), an earlier acquire or load, their walk, or an entry. -/
def State.memGroup (s : State) (f : MemForm) (x : XM) (ea : Group → Nat → Lane → DWord) (gid : Nat) (m : BitVec 64) :
    State :=
  match s.cur, s.group? gid with
  | some p, some g =>
    let act := g.maskOf fun i l => m.getLsbD i && l.guard
    let write := f.acc != .load
    if act = 0#64 then s
    else if 63 ≤ (if f.dst.isSome then g.c0 else g.c1) then s.holdLanes gid act
    else
      let held := g.heldWith act (g.maskOf fun i l => act.getLsbD i && s.laneHeld f g i l) write f.size (ea g)
      let s := if held = 0#64 then s else s.holdLanes gid held
      let (s, c) := s.checkLanes g (act &&& ~~~held) f.size f.acc (ea g)
      let s := if c.traps = [] then s else s.trapLanes gid none c.traps
      let stay := c.waits ||| (if f.kind = .store then lanesOfAccess (c.accesses.filter fun a => s.storeBehind g a) else 0)
      let stay := g.heldWith (act &&& ~~~held) stay write f.size (ea g) &&& ~~~lanesOf c.traps
      let as := c.accesses.filter fun a => !stay.getLsbD a.lane
      let go := s.roomFor f g (s.buildReqs f g x p) as
      let stay := stay ||| lanesOfAccess (as.drop go.length)
      let s := if stay = 0#64 then s else s.holdLanes gid stay
      if go = [] then s
      else
        let rs := s.buildReqs f g x p go
        if f.kind = .store then s.commitStores g (lanesOfAccess go) rs
        else s.commitReqs f g (lanesOfAccess go) rs
  | _, _ => s

/-- A global access of the whole pick. -/
def State.memPick (s : State) (f : MemForm) (a b : BitVec 8) (x : XM) : State :=
  s.forPick fun s gid m => s.memGroup f x (fun g i l => effAddr g i l a b x) gid m

/-! ### Loads and stores (R325) -/

def loadForm (size : Nat) (fmt : LoadFmt) (d : BitVec 7) : MemForm :=
  { kind := .load, acc := .load, size := size, fmt := fmt, dst := some d.toNat, nregs := (size + 3) / 4,
    data := fun _ => 0, data2 := fun _ => 0 }

/-- The bytes of a register, a pair or four registers. -/
def Lane.bytes (l : Lane) (size d : Nat) : BitVec 128 :=
  if size = 16 then l.quadReg d else if size = 8 then (l.pair d).setWidth 128 else (l.reg d).setWidth 128

def storeForm (size : Nat) (d : BitVec 7) : MemForm :=
  { kind := .store, acc := .store, size := size, fmt := .words, dst := none, nregs := 0,
    data := fun l => l.bytes size d.toNat, data2 := fun _ => 0 }

def execLdN8 (d : BitVec 7) (a b : BitVec 8) (x : XM) (s : State) : Out := .next (s.memPick (loadForm 1 .zx d) a b x)
def execLdI8 (d : BitVec 7) (a b : BitVec 8) (x : XM) (s : State) : Out := .next (s.memPick (loadForm 1 .sx d) a b x)
def execLdN16 (d : BitVec 7) (a b : BitVec 8) (x : XM) (s : State) : Out := .next (s.memPick (loadForm 2 .zx d) a b x)
def execLdI16 (d : BitVec 7) (a b : BitVec 8) (x : XM) (s : State) : Out := .next (s.memPick (loadForm 2 .sx d) a b x)
def execLdB32 (d : BitVec 7) (a b : BitVec 8) (x : XM) (s : State) : Out := .next (s.memPick (loadForm 4 .words d) a b x)
def execLdB64 (d : BitVec 7) (a b : BitVec 8) (x : XM) (s : State) : Out := .next (s.memPick (loadForm 8 .words d) a b x)
def execLdB128 (d : BitVec 7) (a b : BitVec 8) (x : XM) (s : State) : Out := .next (s.memPick (loadForm 16 .words d) a b x)
def execStB8 (d : BitVec 7) (a b : BitVec 8) (x : XM) (s : State) : Out := .next (s.memPick (storeForm 1 d) a b x)
def execStB16 (d : BitVec 7) (a b : BitVec 8) (x : XM) (s : State) : Out := .next (s.memPick (storeForm 2 d) a b x)
def execStB32 (d : BitVec 7) (a b : BitVec 8) (x : XM) (s : State) : Out := .next (s.memPick (storeForm 4 d) a b x)
def execStB64 (d : BitVec 7) (a b : BitVec 8) (x : XM) (s : State) : Out := .next (s.memPick (storeForm 8 d) a b x)
def execStB128 (d : BitVec 7) (a b : BitVec 8) (x : XM) (s : State) : Out := .next (s.memPick (storeForm 16 d) a b x)

/-! ### Atomics (R333) -/

/-- An atomic's form: MODE[1] is `.nr`; a compare-and-swap holds its swap value above the compare value. -/
def atomForm (op : AtomOp) (size : Nat) (d : BitVec 7) (x : XM) : MemForm :=
  { kind := .atom op, acc := .atomic, size := size, fmt := .words,
    dst := if x.mode.getLsbD 1 then none else some d.toNat, nregs := size / 4,
    data := fun l => l.bytes size d.toNat, data2 := fun l => l.bytes size (d.toNat + size / 4) }

def State.atomPick (s : State) (op : AtomOp) (size : Nat) (d : BitVec 7) (a b : BitVec 8) (x : XM) : State :=
  s.memPick (atomForm op size d x) a b x

def execAtomAddB32 (d : BitVec 7) (a b : BitVec 8) (x : XM) (s : State) : Out := .next (s.atomPick .add 4 d a b x)
def execAtomAddB64 (d : BitVec 7) (a b : BitVec 8) (x : XM) (s : State) : Out := .next (s.atomPick .add 8 d a b x)
def execAtomMinI32 (d : BitVec 7) (a b : BitVec 8) (x : XM) (s : State) : Out := .next (s.atomPick .mini 4 d a b x)
def execAtomMaxI32 (d : BitVec 7) (a b : BitVec 8) (x : XM) (s : State) : Out := .next (s.atomPick .maxi 4 d a b x)
def execAtomMinN32 (d : BitVec 7) (a b : BitVec 8) (x : XM) (s : State) : Out := .next (s.atomPick .minn 4 d a b x)
def execAtomMaxN32 (d : BitVec 7) (a b : BitVec 8) (x : XM) (s : State) : Out := .next (s.atomPick .maxn 4 d a b x)
def execAtomAndB32 (d : BitVec 7) (a b : BitVec 8) (x : XM) (s : State) : Out := .next (s.atomPick .and 4 d a b x)
def execAtomOrB32 (d : BitVec 7) (a b : BitVec 8) (x : XM) (s : State) : Out := .next (s.atomPick .or 4 d a b x)
def execAtomXorB32 (d : BitVec 7) (a b : BitVec 8) (x : XM) (s : State) : Out := .next (s.atomPick .xor 4 d a b x)
def execAtomXchgB32 (d : BitVec 7) (a b : BitVec 8) (x : XM) (s : State) : Out := .next (s.atomPick .xchg 4 d a b x)
def execAtomXchgB64 (d : BitVec 7) (a b : BitVec 8) (x : XM) (s : State) : Out := .next (s.atomPick .xchg 8 d a b x)
def execAtomCasB32 (d : BitVec 7) (a b : BitVec 8) (x : XM) (s : State) : Out := .next (s.atomPick .cas 4 d a b x)
def execAtomCasB64 (d : BitVec 7) (a b : BitVec 8) (x : XM) (s : State) : Out := .next (s.atomPick .cas 8 d a b x)
def execAtomAddF32 (d : BitVec 7) (a b : BitVec 8) (x : XM) (s : State) : Out := .next (s.atomPick .addf 4 d a b x)
def execAtomMinI64 (d : BitVec 7) (a b : BitVec 8) (x : XM) (s : State) : Out := .next (s.atomPick .mini 8 d a b x)
def execAtomMaxI64 (d : BitVec 7) (a b : BitVec 8) (x : XM) (s : State) : Out := .next (s.atomPick .maxi 8 d a b x)

/-! ### Hints (R199, R200, R349) -/

/-- The lines that a hint advises on: those of its guard-true lanes whose addresses translate. -/
def State.hintLines (s : State) (g : Group) (m : BitVec 64) (a b : BitVec 8) (x : XM) : List (Nat × Attr) :=
  (g.lanes.zipIdx).filterMap fun e =>
    if m.getLsbD e.2 && e.1.guard then
      let va := effAddr g e.2 e.1 a b x
      match (s.translate (some g.core) (quadOf g.core) g.guest va .load).2 with
      | .ok t => some (t.key va, t.attr)
      | .error _ => none
    else none

/-- WARN bits of a hint: an order other than `relaxed` falls back (R202). -/
def hintWarn (x : XM) : BitVec 4 := relaxedWarn x.scope x.order

/-- The advice of a hint for every group of the pick, and 0 in D (R200). -/
def State.hintPick (s : State) (d : BitVec 7) (w : BitVec 1) (x : XM) (advise : State → Group → BitVec 64 → State) :
    State :=
  let s := s.forPick fun s gid m =>
    match s.group? gid with
    | none => s
    | some g =>
      if (g.lead m).isNone then s
      else
        let s := advise s g m
        if hintWarn x = 0#4 then s else s.warn gid (hintWarn x)
  s.vec32 d.toNat w fun _ _ _ => 0

/-- `pref`: each line is asked for with retention RET (R199), while the core has entries for outstanding requests
(R5, R86, log 114). -/
def execPref (d : BitVec 7) (w : BitVec 1) (a b : BitVec 8) (x : XM) (s : State) : Out :=
  .next (s.hintPick d w x fun s g m =>
    let rs := (s.hintLines g m a b x).eraseDups.map fun l =>
      { Req.zero with gid := g.gid, core := g.core, guest := g.guest, kind := .hint, line := l.1, size := 128,
                      attr := { l.2 with ret := retOf x.ret l.2.ret } }
    let (s, ids) := s.addReqs (rs.take (outstLimit - (s.core g.core).outstUsed))
    s.updCore g.core fun c => { c with outst := c.outst ++ ids })

/-- `evict.hint`: a resident line becomes `stream` (R199). -/
def execEvictHint (d : BitVec 7) (w : BitVec 1) (a b : BitVec 8) (x : XM) (s : State) : Out :=
  .next (s.hintPick d w x fun s g m =>
    (s.hintLines g m a b x).foldl (fun s l => s.updTag l.1 fun t => { t with ret := retStream }) s)

/-! ### Results return (R182, R324, R327) -/

/-- The value of a lane's part of an operation. -/
def valueOf (rs : List Req) (lane : Nat) : BitVec 128 :=
  rs.foldl (fun v r => r.parts.foldl (fun v p => if p.lane = lane then v ||| p.value else v) v) 0#128

/-- The lane can still go back to the operation's instruction (R193). -/
def heldIn (rs : List Req) (lane : Nat) : Bool := rs.any fun r => r.held.any fun e => e.1 == lane

/-- The first part of a lane that brings a trap. -/
def trapPart (rs : List Req) (lane : Nat) : Option Part :=
  rs.findSome? fun r => r.parts.find? fun p => p.lane == lane && p.trap != 0#64

/-- The cause that a lane's answer brings, 0 for none, and the address that TRAP.VA names. -/
def trapOf (rs : List Req) (lane : Nat) : DWord :=
  match trapPart rs lane with
  | some p => if heldIn rs lane then p.trap else 0
  | none => 0
def trapVa (rs : List Req) (lane : Nat) : DWord :=
  match trapPart rs lane with
  | some p => p.va
  | none => 0

/-- Destination register of an operation. -/
def dstOf (rs : List Req) (lane : Nat) : Option Nat :=
  rs.foldl (fun d r => r.parts.foldl (fun d p => if p.lane = lane then p.dst else d) d) none

/-- Writes a returned word to a register, if the lane still awaits it there (R182). -/
def Lane.deliver (l : Lane) (op n : Nat) (x : Word) : Lane := if l.pend.contains (n, op) then l.setReg n x else l

/-- A returned value enters a lane's registers (R325). -/
def Lane.returned (l : Lane) (op d size : Nat) (fmt : LoadFmt) (v : BitVec 128) : Lane :=
  if size ≤ 4 then
    l.deliver op d (match fmt with
      | .sx => if size = 1 then (v.setWidth 8).signExtend 32 else (v.setWidth 16).signExtend 32
      | .zx => v.setWidth 32
      | .words => v.setWidth 32)
  else if size = 8 then (l.deliver op d (v.extractLsb' 0 32)).deliver op (d + 1) (v.extractLsb' 32 32)
  else ((l.deliver op d (v.extractLsb' 0 32)).deliver op (d + 1) (v.extractLsb' 32 32)).deliver op (d + 2)
    (v.extractLsb' 64 32) |>.deliver op (d + 3) (v.extractLsb' 96 32)

/-- A request whose answer is found by its operation number: neither a stash fill, which is known by its stash line, nor
a fence or a lock attempt, whose lanes wait for it. -/
def ReqKind.byOp : ReqKind → Bool
  | .stash _ => false
  | .fence => false
  | .lockAcq => false
  | .lockRel => false
  | .load => true
  | .store => true
  | .atom _ => true
  | .flask _ => true
  | .hint => true
  | .hamper _ => true
  | .touch _ => true

/-- Requests of an operation. -/
def State.opReqs (s : State) (gid op : Nat) : List Req := s.reqs.filter fun r => r.gid == gid && r.op == op && r.kind.byOp

/-- The requests of an operation leave, with the entries that they hold. -/
def State.dropOp (s : State) (gid op : Nat) : State :=
  { s with reqs := s.reqs.filter fun r => !(r.gid == gid && r.op == op && r.kind.byOp) }

/-- Later operations of lanes that go back before them bring those lanes nothing more. -/
def State.forget (s : State) (gid op : Nat) (m : BitVec 64) : State :=
  { s with reqs := s.reqs.map fun r =>
      if r.gid = gid ∧ op < r.op then { r with held := r.held.filter fun e => !m.getLsbD e.1 } else r }

/-- Lanes of a mask leave the parked sub-groups: an earlier instruction of theirs traps first (R193). -/
def Group.unparkLanes (g : Group) (m : BitVec 64) : Group :=
  { g with parkedSubs := (g.parkedSubs.map fun x => { x with lanes := x.lanes &&& ~~~m }).filter fun x => x.lanes != 0#64 }

/-- A lane goes back to an instruction, as it stood there, with what it has missed since (R171, R193). -/
def Lane.goBack (l held : Lane) : Lane := { held with missed := l.missed }

/-- THE TRAPS THAT ANSWERS BRING: the lanes go back to the instruction as they stood there, with the results that have
come since, and park; what they executed after it has not performed (R193, R327, log 27). -/
def State.trapBack (s : State) (gid : Nat) (rs : List Req) (ts : List LaneTrap) : State :=
  match ts, rs with
  | _ :: _, r :: _ =>
    let m := lanesOf ts
    let held := rs.flatMap fun r => r.held
    let s := (s.forget gid r.op m).updGroup gid fun g =>
      ((g.unparkLanes m).mapLanes m fun i l => match held.find? fun e => e.1 == i with
        | some e => l.goBack e.2
        | none => l).park (fun l => l.place) none [] ts
    { s with ports := s.ports.map fun (p : Pick) => p.remove gid m }
  | _, _ => s

/-- The lanes whose part of an operation's answer brings a trap. -/
def Group.answerTraps (g : Group) (rs : List Req) : List LaneTrap :=
  (g.lanes.zipIdx).filterMap fun e =>
    let c := trapOf rs e.2
    if c ≠ 0#64 ∧ e.1.status ≠ .exited then some { lane := e.2, cause := c, va := trapVa rs e.2 } else none

def State.lateTraps (s : State) (gid : Nat) (rs : List Req) : State :=
  match s.group? gid with
  | some g => s.trapBack gid rs (g.answerTraps rs)
  | none => s

/-- The answer of a flask operation enters its scalar register, if the group still awaits it there (R182, R332). -/
def State.returnScalar (s : State) (r : Req) : State :=
  match r.kind, r.words with
  | .flask _, ans :: sd :: _ =>
    s.updGroup r.gid fun g =>
      if g.spend.contains (sd.toNat, r.op) then
        match r.parts with
        | p :: _ =>
          match g.frameOf p.lane with
          | some f => if f.since ≤ r.op then g.setScalar p.lane sd.toNat ans else g.setOwnScalar sd.toNat ans
          | none => g.setScalar p.lane sd.toNat ans
        | [] => g
      else g
  | _, _ => s

/-- A request of a Hamper instruction. -/
def ReqKind.isHamper : ReqKind → Bool
  | .hamper _ => true
  | _ => false

/-- RESULT_RETURN: the values of an operation enter the registers and its counter counts down (R182, R324). -/
def execResultReturn (gid op : Nat) (s : State) : Out :=
  let rs := s.opReqs gid op
  .next (if rs = [] ∨ (rs.any fun r => r.kind.isHamper) ∨ (rs.any fun r => !r.done) ∨ (s.tileOps.any fun o => o.op == op) then s
    else
      let size := match rs with
        | r :: _ => r.size
        | [] => 0
      let fmt := match rs with
        | r :: _ => r.fmt
        | [] => .words
      let lanes := rs.foldl (fun m r => m ||| r.lanes) 0#64
      let s := s.giveLanes gid lanes fun i l =>
        match dstOf rs i with
        | some d => if trapOf rs i = 0#64 then l.returned op d size fmt (valueOf rs i)
                    else { l with pend := l.pend.filter fun e => e.2 != op }
        | none => l
      let s := s.lateTraps gid rs
      let s := rs.foldl (fun s r => s.returnScalar r) s
      let s := s.updGroup gid fun g => { g with q0 := finishOp op g.q0, q1 := finishOp op g.q1 }
      s.dropOp gid op)

/-! ### Requests go out -/

/-- A `seqcst` event has its ticket, and every lower one has performed (R145). -/
def State.ticketFirst (s : State) (r : Req) : Bool :=
  let mine := r.parts.map fun p => p.ticket
  let first := fun (out : List Nat) => out.all fun t => mine.contains t || mine.all fun u => decide (u < t)
  match r.seq with
  | none => true
  | some false => r.granted && first s.seqr.devOut
  | some true => r.granted && first s.seqr.fabOut

/-- A store request that has entered the coalescing buffer and has not drained. -/
def State.buffered (s : State) (core id : Nat) : Bool := (s.core core).cbuf.any fun e => e.reqs.contains id

/-- A load or fence that reaches no further than its core, for which a store in the core's buffer has performed. -/
def State.narrow (s : State) (r : Req) : Bool :=
  (r.kind == .load || r.kind == .fence) && r.order != oSeqCst && (match s.group? r.gid with
    | some g => !s.wideScope g r.scope
    | none => false)

/-- What must have performed before a request performs: other requests, the tile operation whose bytes it writes,
and entries of the coalescing buffer (R136, R145, R335, R367). -/
def State.orderedReady (s : State) (r : Req) : Bool :=
  (r.after.all fun i => match s.req? i with
    | some q => q.done
    | none => !(s.tileOps.any fun o => o.op == i) && (s.narrow r || !s.buffered r.core i)) &&
    (r.drains.all fun e => ((s.core r.core).entryOf? e).isNone)

/-- A store that has waited enters the coalescing buffer, when it has an entry for it (R59, R60). -/
def State.enterBuffer (s : State) (r : Req) : State :=
  if ((s.core r.core).entry? r.line).isNone && decide (64 ≤ (s.core r.core).cbuf.length) then s
  else
    let (s, id) := s.newId
    (s.updCore r.core fun c => c.bufferStore r.gid r.op id r).dropReq r.id

/-- ECC meets an error in a line that a request reaches: one that it corrects is counted, another poisons the line
(R88). -/
def State.eccError (s : State) (key : Nat) (corrected : Bool) : State :=
  if corrected then s.log (.correctedError key)
  else
    match keyNode key with
    | none => (s.setPoison key true).log (.poisoned key)
    | some _ => if (s.cacheTag? key).isSome then (s.updCache key fun c => { c with poison := true }).log (.poisoned key) else s

/-- Atomics of another operation are half done on some line: a request that would begin such a run waits (R334). -/
def State.runElsewhere (s : State) (r : Req) : Bool :=
  r.seq.isSome && r.atomic?.isSome && s.home.tags.any fun t => t.run.isSome && t.run != some (r.gid, r.op)

/-- A request of the module reaches the home of its line, with the answer when the home is on another module. -/
def State.ownArrives (s : State) (r : Req) (poison : Bool) (d : LineData) : State :=
  if r.sent || r.done || !s.orderedReady r || !s.ticketFirst r || s.runElsewhere r then s
  else
    match r.kind with
    | .flask _ => s
    | .fence => s
    | .hamper _ => s
    | .touch _ => s
    | .store => s.enterBuffer r
    | .load => (s.updReq r.id fun (q : Req) => { q with sent := true }).arrive r.line (.req r.id) poison d
    | .atom _ => (s.updReq r.id fun (q : Req) => { q with sent := true }).arrive r.line (.req r.id) poison d
    | .lockAcq => (s.updReq r.id fun (q : Req) => { q with sent := true }).arrive r.line (.req r.id) poison d
    | .lockRel => (s.updReq r.id fun (q : Req) => { q with sent := true }).arrive r.line (.req r.id) poison d
    | .hint => (s.updReq r.id fun (q : Req) => { q with sent := true }).arrive r.line (.req r.id) poison d
    | .stash _ => (s.updReq r.id fun (q : Req) => { q with sent := true }).arrive r.line (.req r.id) poison d

/-- HOME_REQUEST: a request of the module reaches the home of its line; a request of another module arrives; or ECC
meets an error in a line that a request reaches (R57, R88, R92, R110). -/
def execHomeRequest (r : HomeArrival) (s : State) : Out :=
  .next (match r with
    | .own id poison d =>
      match s.req? id with
      | none => s
      | some r => s.ownArrives r poison d
    | .foreign node line kind mig mask d =>
      if fldN s.regs.domCtrl 1 1 = 0 || s.inCarve (128 * line) then s.send (.nack line node none)
      else
        let s := if mig then s.countMig line node else s
        s.arrive line (.foreign node kind mask d) false 0
    | .ecc key corrected => s.eccError key corrected)

/-- COALESCE_TIMEOUT: an entry has been held for as long as R60 allows, and must drain. -/
def execCoalesceTimeout (core line : Nat) (s : State) : Out :=
  .next (s.updCore core fun c => { c with cbuf := c.cbuf.map fun (e : CbEntry) => if e.line = line then { e with due := true } else e })

/-- STORE_DRAIN: an entry of the coalescing buffer goes to the home of its line (R60). -/
def execStoreDrain (core line : Nat) (s : State) : Out :=
  .next (match (s.core core).entry? line with
    | none => s
    | some e =>
      let waiting := (s.home.inbox.any fun w => w.2 == .drain core e.id) ||
        (s.home.tags.any fun t => t.queue.contains (.drain core e.id)) ||
        (s.home.caches.any fun c => c.queue.contains (.drain core e.id))
      if waiting then s else s.arrive line (.drain core e.id) false 0)

/-- OUTSTANDING_ENTRY_FREE: the home has answered, and the entry is free (R86). -/
def execOutstandingEntryFree (core req : Nat) (s : State) : Out :=
  .next (match s.req? req with
    | some r => if r.done then s.updCore core fun c => { c with outst := c.outst.erase req } else s
    | none => s.updCore core fun c => { c with outst := c.outst.erase req })

/-- An instruction asks for its tickets when the events that precede it in its lanes have performed: the orders of the two
sequencers then agree with the lanes' own (R142, R145, log 128). -/
def State.asksTicket (s : State) (r : Req) : Bool :=
  let mine := fun (q : Req) => q.gid == r.gid && q.op == r.op && q.seq == r.seq
  let before := fun (i : Nat) => match s.req? i with
    | some p => !mine p
    | none => true
  (s.reqs.filter mine).all fun (q : Req) => s.orderedReady { q with after := q.after.filter before }

/-- TICKET_GRANT: the sequencer gives an instruction one run of tickets, one for each lane in ascending order, or
the fabric's refuses it (R144, R146). -/
def execTicketGrant (req : Nat) (grant : Bool) (s : State) : Out :=
  .next (match s.req? req with
    | none => s
    | some r =>
      match r.seq with
      | none => s
      | some fab =>
        let mine := fun (q : Req) => q.gid == r.gid && q.op == r.op && q.seq == r.seq
        if r.granted || !s.asksTicket r then s
        else if fab && (!grant || s.plat.dead.contains (fldN s.regs.domCtrl 20 12)) then
          let refuse := fun (q : Req) =>
            let parts := q.parts.map fun (p : Part) => { p with trap := causeOf cNodeDead 0 }
            { q with granted := true, done := q.kind != .fence, seq := none, parts := parts }
          { s with reqs := s.reqs.map fun q => if mine q then refuse q else q }
        else
          let base := if fab then s.seqr.fabNext else s.seqr.devNext
          let lanes := ((s.reqs.filter mine).flatMap fun q => q.parts.map fun p => p.lane).eraseDups
          let order := (List.range 64).filter fun i => lanes.contains i
          let ticket := fun i => base + (order.takeWhile fun j => j != i).length
          let give := fun (q : Req) =>
            let parts := q.parts.map fun (p : Part) => { p with ticket := ticket p.lane }
            { q with granted := true, parts := parts }
          let s := { s with reqs := s.reqs.map fun q => if mine q then give q else q }
          let out := order.map ticket
          if fab then { s with seqr := { s.seqr with fabNext := base + order.length, fabOut := s.seqr.fabOut ++ out } }
          else { s with seqr := { s.seqr with devNext := base + order.length, devOut := s.seqr.devOut ++ out } })

/-- A request that its home on another module refuses ends as its own source reports it (R27, R52): the carve-out's
refusal is `XLATE_PERM`; a sealed page's raises no trap, and an atomic returns the bytes that the home holds. -/
def State.nackedReq (s : State) (r : Req) (value : Option LineData) : State :=
  let logged := s.log (.refusedWrite r.line)
  let cause := causeOf cXlatePerm (if r.kind = .load ∨ r.kind = .stash true ∨ r.kind = .stash false then 32 else 34)
  let va := match r.parts with
    | p :: _ => p.va
    | [] => 0
  let live := match s.group? r.gid with
    | some g => g.waitersOn .lock
    | none => 0
  if r.kind = .hint then logged.dropReq r.id
  else
    match value with
    | some d => ((if r.atomic?.isSome then s else logged).serveReq r r.line d false true).1
    | none =>
      if r.kind = .lockAcq ∨ r.kind = .lockRel then (logged.dropReq r.id).trapWaiting r.gid live cause va
      else
        let mark := fun (p : Part) => { p with trap := cause }
        (logged.useTickets r).updReq r.id fun (q : Req) =>
          { q with sent := true, done := true, parts := if q.parts = [] then [mark Part.zero] else q.parts.map mark }

/-- The requests of this module that wait in a caching entry whose home refuses it end so, and the entry is gone. -/
def State.nackedCache (s : State) (key : Nat) : State :=
  match s.cacheTag? key with
  | none => s
  | some c =>
    let s := c.queue.foldl (fun s w =>
      match w with
      | .req id => (match s.req? id with
          | some r => s.nackedReq r none
          | none => s)
      | .drain core e => (match (s.core core).entryOf? e with
          | some e => (s.log (.refusedWrite key)).endDrain core e
          | none => s)
      | .read _ => s
      | .own _ => s
      | .host _ _ _ => s
      | .foreign _ _ _ _ => s) s
    s.dropTag key

/-- OTGER_NACK: the home on another module refuses a request, which its source reports as for a line of its own
(R27, R52): a request that waits for its answer, a write that had gone out, or a request of a caching slice. -/
def execOtgerNack (n : Nacked) (s : State) : Out :=
  .next (match n with
    | .request id value =>
      (match s.req? id with
        | none => s
        | some r => if r.attr.remote = false ∨ r.done then s else s.nackedReq r value)
    | .write key => s.log (.refusedWrite key)
    | .cache key => s.nackedCache key)

/-- STICKY_QUOTA_WRITE: the hypervisor writes the quota of a class (R64). -/
def execStickyQuotaWrite (c : Nat) (v : BitVec 64) (s : State) : Out :=
  .next (if c < 16 then
      { s with regs := { s.regs with stickyQuota := aset s.regs.stickyQuota c ((v.setWidth 32) &&& 0x7F#32) } }
    else s)

/-- WALK_COMPLETE: a walk finishes and loads the TLBs, with the setting of ACC, and of DIRTY for a write; a walk
that fails leaves the fault to the access itself, which walks in its own step (R41, log 9). -/
def execWalkComplete (guest core : Nat) (va : BitVec 64) (kind : Nat) (s : State) : Out :=
  let k : AccKind := match kind with
    | 0 => .load
    | 1 => .store
    | 2 => .atomic
    | 3 => .fetch
    | 4 => .fill
    | _ => .writeBack
  .next (match s.walkMiss (some core) (quadOf core) guest va k with
    | (s', .ok _) => s'
    | (s', .error e) => if e.waits then s' else s)

end Sys2Proof.Machine
end

