-- ==== Sys2Proof/Machine/Stash.lean ====
section
/-! DEFINITION. The stash (R54, R66 to R75, R153, R154, R328 to R331): its accesses, fills and recalls, and the
mapping, unmapping and flushing of its lines. -/

namespace Sys2Proof.Machine

def cStashMap : DWord := causeOf cStash 0
def cStashRo : DWord := causeOf cStash 1

/-! ### Mapping table (R67) -/

def mapValid (e : BitVec 128) : Bool := e.getLsbD 87
def mapTeam (e : BitVec 128) : Nat := fldN e 88 8
def mapMode (e : BitVec 128) : Nat := fldN e 96 2
def mapRet (e : BitVec 128) : BitVec 2 := fld e 85 2
def mapCount (e : BitVec 128) : Nat := fldN e 74 11 + 1
def mapSoff (e : BitVec 128) : Nat := fldN e 63 11
def mapGva (e : BitVec 128) : Nat := fldN e 0 55
def mapFlask (e : BitVec 128) : Nat := fldN e 98 14
def mapFgen (e : BitVec 128) : Nat := fldN e 112 16

/-- The mark that a map's pointer had a bit of [63:55] set, so that its fills miss (R16, log 115). -/
def mapWild (e : BitVec 128) : Bool := e.getLsbD 62

def mkMap (fgen flask mode team : Nat) (ret : BitVec 2) (count soff gva : Nat) : BitVec 128 :=
  BitVec.ofNat 16 fgen ++ BitVec.ofNat 14 flask ++ BitVec.ofNat 2 mode ++ BitVec.ofNat 8 team ++ 1#1 ++ ret ++
    BitVec.ofNat 11 (count - 1) ++ BitVec.ofNat 11 soff ++ 0#8 ++ BitVec.ofNat 55 gva

/-- The valid entry that covers a stash line. -/
def Core.mapOf? (c : Core) (line : Nat) : Option (BitVec 128) :=
  match c.maps.find? fun e => mapValid e.2 && decide (mapSoff e.2 ≤ line) && decide (line < mapSoff e.2 + mapCount e.2) with
  | some e => some e.2
  | none => none

/-- The global address that an entry maps a stash line to. -/
def mapVa (e : BitVec 128) (line : Nat) : DWord :=
  BitVec.ofNat 64 (mapGva e + 128 * (line - mapSoff e)) ||| (if mapWild e then 1#64 <<< 63 else 0#64)

def Core.sline (c : Core) (line : Nat) : StashLine := alookup c.stash line StashLine.zero
def Core.setSline (c : Core) (line : Nat) (l : StashLine) : Core := { c with stash := aset c.stash line l }
def State.sline (s : State) (core line : Nat) : StashLine := (s.core core).sline line
def State.setSline (s : State) (core line : Nat) (l : StashLine) : State := s.updCore core fun c => c.setSline line l

/-! ### Addresses (R328) -/

/-- First stash line of a group's quota, and its length (R66). -/
def State.quota (s : State) (g : Group) : Nat × Nat :=
  match s.team? g.launch g.team with
  | some t => (t.stashAt g.core, t.stashLines)
  | none => (0, 0)

/-- The byte offset of a stash access from the start of the quota. -/
def stashOffset (g : Group) (i : Nat) (l : Lane) (a b : BitVec 8) (x : XM) : DWord :=
  (src32 g i l a).setWidth 64 + srcIndex g i l (x.mode.getLsbD 0) b + x.off.signExtend 64

/-- The byte of the core's stash that an offset names. -/
def State.stashByte (s : State) (g : Group) (o : DWord) : Nat := (128 * (s.quota g).1 + o.toNat) % 262144

/-! ### Fills (R70, R72, R73) -/

/-- Starts the fill of an invalid line: the translation through the core's data TLB, and the request to the home; or
the check that fails, or the wait for the walk or for an entry. A writable fill of a remote line is a `STASH_MAP` (R73). -/
def State.startFill (s : State) (g : Group) (line : Nat) (e : BitVec 128) : State × Except Stop Unit :=
  let va := mapVa e line
  let wr := mapMode e == 1
  if outstLimit ≤ (s.core g.core).outstUsed then (s, .error .wait)
  else
    match s.translate (some g.core) (quadOf g.core) g.guest va .fill with
    | (s, .error x) => (s, .error (x.stop .fill))
    | (s, .ok t) =>
      if s.rangeBusy (quadOf g.core) g.guest va 128 false then (s, .error (.trap (causeOf cRangeBusy 0)))
      else if wr && t.remote then (s, .error (.trap cStashMap))
      else
        let ret := retOf (mapRet e) t.ret
        let r : Req :=
          { Req.zero with op := line, gid := g.gid, core := g.core, guest := g.guest, kind := .stash wr,
                          line := t.key va, size := 128, attr := { t.attr with ret := ret } }
        let (s, ids) := s.addReqs [r]
        let s := s.updCore g.core fun c => { c with outst := c.outst ++ ids }
        let s := s.touchHost g.gid (t.key va)
        let l := s.sline g.core line
        (s.setSline g.core line { l with state := .filling, line := t.key va, coh := t.coh, remote := t.remote,
                                         node := t.node, ret := ret }, .ok ())

/-! ### Touches (R70, R329) -/

/-- The line that a touch is on. -/
def Req.sline (r : Req) : Nat := r.line

/-- A stash line's bytes as a lane's access reads them, and after it writes them. A store to a line of a writable
mapping is a store to its global line: the core's L1 keeps no older copy (R139, R153). -/
def State.performTouch (s : State) (r : Req) (store : Bool) : State :=
  let l := s.sline r.core r.sline
  if store then
    let d := storeParts l.data r.parts
    let s := s.setSline r.core r.sline { l with data := d, state := if l.state = .clean then .dirty else l.state }
    let s := if l.state = .unbacked then s else s.refresh r.core l.line d
    ((s.useTickets r).finishStore r.gid r.op).dropReq r.id
  else
    let parts := r.parts.map fun (p : Part) => { p with value := p.slice l.data }
    ((s.useTickets r).acquired r).updReq r.id fun q => { q with parts := parts, done := true }

/-- A touch that fails brings its cause to its lanes. -/
def State.failTouch (s : State) (r : Req) (c : DWord) : State :=
  (s.useTickets r).updReq r.id fun q =>
    let parts := q.parts.map fun (p : Part) => { p with trap := c }
    { q with parts := parts, done := true }

/-- A store meets a line that its mapping lets it only read (R70). -/
def State.readOnlyLine (s : State) (core line : Nat) : Bool :=
  match (s.core core).mapOf? line with
  | some e => mapMode e != 1
  | none => false

/-- A touch of a line that holds bytes performs; a store to a read-only or flask line raises `STASH_RO` (R70). -/
def State.touchFilled (s : State) (r : Req) (store : Bool) : State :=
  if store && s.readOnlyLine r.core r.sline then s.failTouch r cStashRo else s.performTouch r store

/-- A touch performs as soon as what precedes it has performed and its line holds bytes; an invalid line is
filled first. -/
def State.tryTouch (s : State) (r : Req) (store : Bool) : State :=
  if r.done || !s.orderedReady r || !s.ticketFirst r then s
  else
    match (s.sline r.core r.sline).state with
    | .unbacked => s.performTouch r store
    | .clean => s.touchFilled r store
    | .dirty => s.touchFilled r store
    | .filling => s
    | .invalid =>
      match s.group? r.gid, (s.core r.core).mapOf? r.sline with
      | some g, some e =>
        match s.startFill g r.sline e with
        | (s, .error (.trap c)) => s.failTouch r c
        | (s, .error .wait) => s
        | (s, .ok ()) => s
      | _, _ => s

/-- Touches that can perform do, in the order of their issue. -/
def State.settleTouches (s : State) : State :=
  s.reqs.foldl (fun s r =>
    match r.kind with
    | .touch store => (match s.req? r.id with
        | some r => s.tryTouch r store
        | none => s)
    | _ => s) s

/-- What a touch of a lane meets: the cause of a trap, or 0. -/
def State.touchTrap (s : State) (g : Group) (o : DWord) (size : Nat) (store : Bool) : DWord :=
  let b := s.stashByte g o
  let line := b / 128
  let q := s.quad (quadOf g.core)
  let stashHit := q.ranges.any fun e => rangeCore e.2 == g.core % 4 && rangeMeets e.2 true line ((b + size - 1) / 128) store
  match (s.core g.core).mapOf? line with
  | none => if stashHit then causeOf cRangeBusy 0 else 0#64
  | some e =>
    if stashHit || s.rangeBusy (quadOf g.core) g.guest (mapVa e line) 128 store then causeOf cRangeBusy 0
    else
      let filled := (s.sline g.core line).state == .clean || (s.sline g.core line).state == .dirty
      if store && filled && mapMode e != 1 then cStashRo else 0#64

/-- The class of the page behind a stash line, `dev` for an unbacked line (R154, R328), and the global line of a
writable mapping (R153). -/
def State.stashPage (s : State) (g : Group) (line : Nat) : BitVec 2 × Option Nat :=
  match (s.core g.core).mapOf? line with
  | none => (1, none)
  | some e =>
    match (s.translate (some g.core) (quadOf g.core) g.guest (mapVa e line) .fill).2 with
    | .ok t => (t.coh, if mapMode e = 1 then some (t.key (mapVa e line)) else none)
    | .error _ => (1, none)

/-- The stretches of an access within lines of the stash. -/
def stashSpans (b size : Nat) : List (Nat × Nat × Nat) :=
  let n := min size (128 - b % 128)
  if n = size then [(b, 0, size)] else [(b, 0, n), ((b + n) % 262144, n, size - n)]

/-- The touches of a lane. -/
def State.touchReqs (s : State) (f : MemForm) (g : Group) (x : XM) (p : Pick) (i : Nat) (l : Lane) (o : DWord) : List Req :=
  (stashSpans (s.stashByte g o) f.size).map fun sp =>
    let page := s.stashPage g (sp.1 / 128)
    let m := fallbacks f.fallback none x.scope x.order
    { Req.zero with
        gid := g.gid, core := g.core, guest := g.guest, kind := f.kind, line := sp.1 / 128,
        mapped := page.2, size := f.size, scope := m.scope, order := m.order, fmt := f.fmt, seq := s.sequencer m.scope m.order page.1, warn := m.warn,
        held := [(i, l.goTo (p.placeHere l))],
        parts := [{ lane := i, va := o, pa := sp.1, off := sp.2.1, len := sp.2.2, data := f.data l, data2 := 0,
                    dst := f.dst, value := 0, trap := 0, ticket := 0 }] }

/-- What must precede a touch: earlier accesses of its lane to its location, and what its order asks for (R136, R145,
R153). -/
def State.precedeTouch (s : State) (g : Group) (r : Req) : Req :=
  let lanes := r.parts.map fun p => p.lane
  let all := r.order == oSeqCst || (isRelease r.order && r.kind == .touch true)
  let before := lanes.flatMap fun i => (s.unperformed g.gid i).filter fun q => all || q.meets r
  let known := lanes.flatMap fun i => s.knownEntries g.core g.gid i
  { r with after := (before.map fun q => q.id).eraseDups,
           drains := if r.order == oSeqCst || (all && s.wideScope g r.scope) then known.eraseDups else [] }

/-- What one lane's touch meets at issue: a trap, a wait for its line's fill to start, or neither. -/
def State.touchStart (s : State) (g : Group) (o : DWord) (size : Nat) (store : Bool) : State × Except Stop Unit :=
  let line := s.stashByte g o / 128
  let c := s.touchTrap g o size store
  if c ≠ 0#64 then (s, .error (.trap c))
  else
    match (s.sline g.core line).state, (s.core g.core).mapOf? line with
    | .invalid, some e => s.startFill g line e
    | _, _ => (s, .ok ())

/-- The touches of several lanes at issue: the lanes that trap, those that wait, and those that go on. -/
def State.touchStarts (s : State) (g : Group) (size : Nat) (store : Bool) (lanes : List (Nat × Lane × DWord)) :
    State × List LaneTrap × BitVec 64 × List (Nat × Lane × DWord) :=
  lanes.foldl (fun acc e =>
    let (s, ts, w, ok) := acc
    match s.touchStart g e.2.2 size store with
    | (s, .error (.trap c)) => (s, ts ++ [({ lane := e.1, cause := c, va := e.2.2 } : LaneTrap)], w, ok)
    | (s, .error .wait) => (s, ts, w ||| (1#64 <<< e.1), ok)
    | (s, .ok ()) => (s, ts, w, ok ++ [e])) (s, [], 0, [])

/-- The touches of a group's lanes are issued. -/
def State.commitTouches (s : State) (f : MemForm) (store : Bool) (g : Group) (x : XM) (p : Pick)
    (ok : List (Nat × Lane × DWord)) : State :=
  let (s, op) := s.newId
  let rs := ok.flatMap fun e => s.touchReqs f g x p e.1 e.2.1 e.2.2
  let s := rs.foldl (fun s r => (s.addReqs [s.precedeTouch g { r with op := op }]).1) s
  let mask := ok.foldl (fun m e => m ||| (1#64 <<< e.1)) 0#64
  let acq := fun i => (s.reqs.filter fun r => r.gid == g.gid && r.op == op && isAcquire r.order && r.lanes.getLsbD i).map
    fun r => r.id
  let s := s.updGroup g.gid fun g =>
    if store then { g with q1 := g.q1 ++ [{ op := op, left := rs.length }] }
    else
      let g := { g with q0 := g.q0 ++ [({ op := op, left := 1 } : Counted)] }
      g.mapLanes mask fun i l =>
        let l := match f.dst with
          | some d => l.await d f.nregs op
          | none => l
        { l with acq := l.acq ++ acq i }
  s.warnOp g.gid op mask 2 (warnOf rs)

/-- A STASH ACCESS of the pick's lanes of one group (R328, R329). Lanes that must wait at issue do so by themselves
(R168). -/
def State.stashGroup (s : State) (f : MemForm) (store : Bool) (a b : BitVec 8) (x : XM) (gid : Nat) (m : BitVec 64) :
    State :=
  match s.cur, s.group? gid with
  | some p, some g =>
    let act := g.maskOf fun i l => m.getLsbD i && l.guard
    let ea := fun i l => stashOffset g i l a b x
    if act = 0#64 then s
    else if 63 ≤ (if store then g.c1 else g.c0) then s.holdLanes gid act
    else
      let held := g.heldWith act (g.maskOf fun i l => act.getLsbD i && s.laneHeld f g i l) store f.size ea
      let s := if held = 0#64 then s else s.holdLanes gid held
      let lanes := ((g.lanes.zipIdx).filter fun e => (act &&& ~~~held).getLsbD e.2).map fun e => (e.2, e.1, ea e.2 e.1)
      let (s, ts, w, ok) := s.touchStarts g f.size store lanes
      let s := if ts = [] then s else s.trapLanes gid none ts
      let stay := g.heldWith (act &&& ~~~held) w store f.size ea &&& ~~~lanesOf ts
      let s := if stay = 0#64 then s else s.holdLanes gid stay
      let go := ok.filter fun e => !stay.getLsbD e.1
      if go = [] then s else s.commitTouches f store g x p go
  | _, _ => s

def ldsForm (size : Nat) (d : BitVec 7) : MemForm := { loadForm size .words d with kind := .touch false }
def stsForm (size : Nat) (d : BitVec 7) : MemForm := { storeForm size d with kind := .touch true }

def State.ldsPick (s : State) (size : Nat) (d : BitVec 7) (a b : BitVec 8) (x : XM) : State :=
  s.forPick fun s gid m => s.stashGroup (ldsForm size d) false a b x gid m
def State.stsPick (s : State) (size : Nat) (d : BitVec 7) (a b : BitVec 8) (x : XM) : State :=
  s.forPick fun s gid m => s.stashGroup (stsForm size d) true a b x gid m

def execLdsB32 (d : BitVec 7) (a b : BitVec 8) (x : XM) (s : State) : Out := .next (s.ldsPick 4 d a b x)
def execLdsB64 (d : BitVec 7) (a b : BitVec 8) (x : XM) (s : State) : Out := .next (s.ldsPick 8 d a b x)
def execLdsB128 (d : BitVec 7) (a b : BitVec 8) (x : XM) (s : State) : Out := .next (s.ldsPick 16 d a b x)
def execStsB32 (d : BitVec 7) (a b : BitVec 8) (x : XM) (s : State) : Out := .next (s.stsPick 4 d a b x)
def execStsB64 (d : BitVec 7) (a b : BitVec 8) (x : XM) (s : State) : Out := .next (s.stsPick 8 d a b x)
def execStsB128 (d : BitVec 7) (a b : BitVec 8) (x : XM) (s : State) : Out := .next (s.stsPick 16 d a b x)

/-- STASH_FILL_RETURN: the bytes of a fill arrive, and the waiting touches perform in order; poison raises
`DATA_POISON` for the touching lanes (R70). -/
def execStashFillReturn (core line : Nat) (s : State) : Out :=
  .next (match s.reqs.find? fun r => r.core == core && r.op == line && r.done && (r.kind == .stash true || r.kind == .stash false) with
    | none => s
    | some r =>
      let s := (s.dropReq r.id).updCore core fun c => { c with outst := c.outst.erase r.id }
      let l := s.sline core line
      let bad := if r.poison then causeOf cDataPoison 0
        else r.parts.foldl (fun c p => if c = 0 then p.trap else c) 0#64
      if bad ≠ 0#64 then
        let s := s.setSline core line { l with state := .invalid }
        s.reqs.foldl (fun s (q : Req) =>
          if q.core = core ∧ q.line = line ∧ q.done = false ∧ (q.kind = .touch true ∨ q.kind = .touch false) then
            s.failTouch q bad else s) s
      else (s.setSline core line { l with state := .clean, data := wordsLine r.words }).settleTouches)

/-! ### Write-backs and recalls (R70, R72, R74) -/

/-- A write-back or recall answer of a core takes an entry of the table, a reserved one first, or waits to be sent in
its turn (R86). -/
def State.takeBack (s : State) (core key : Nat) : State × Bool :=
  let c := s.core core
  let first := c.unsent.isEmpty || c.unsent.head? == some key
  if c.backs.contains key then (s, true)
  else if first && (decide (c.backs.length < 64) || decide (c.outstUsed < outstLimit)) then
    (s.setCore core { c with backs := c.backs ++ [key], unsent := c.unsent.erase key }, true)
  else (s.setCore core { c with unsent := if c.unsent.contains key then c.unsent else c.unsent ++ [key] }, false)

/-- The home has answered a write-back or a recall answer. -/
def State.freeBack (s : State) (core key : Nat) : State :=
  s.updCore core fun c => { c with backs := c.backs.erase key }

/-- A stash line is written back at its home (R72, R74): a sealed page or a lost link drops it, and otherwise it
performs as a local write, after the walk or recall of the chain and the host's answers for which it waits (R98, R104,
R106). The answer says whether it has performed: none while it waits, false when it was dropped. -/
def State.writeBack (s : State) (core line : Nat) (ret : BitVec 2) (cls : Nat) (d : LineData) : State × Option Bool :=
  match s.takeBack core line with
  | (s, false) => (s, none)
  | (s, true) =>
    if s.refusesWrite line then ((s.log (.refusedWrite line)).freeBack core line, some false)
    else if s.unreachable line then ((s.log (.droppedWrite line)).freeBack core line, some false)
    else
      let write := fun (s : State) => ((s.writeHome line (BitVec.allOnes 128) d).freeBack core line, some true)
      match s.tag? line with
      | none =>
        if isHostLine line then ((s.allocate line ret cls true).1, none)
        else write (s.allocate line ret cls false).1
      | some t =>
        if t.pending ≠ 0#2 ∨ t.hst = hstPG ∨ t.hst = hstRC then (s, none)
        else
          match s.prepare { t with owner := none } ⟨true, 2, true, BitVec.allOnes 128⟩ with
          | some s => (s, none)
          | none => write (s.hitTag t ret cls)

/-- The stash gives up a line that it owns. -/
def State.disown (s : State) (core line : Nat) : State :=
  s.updTag line fun t => if t.owner = some core then { t with owner := none } else t

/-- Sticky class of the context whose mapping holds a stash line: that of a resident group of the team (R64). -/
def State.lineCls (s : State) (core line : Nat) : Nat :=
  match (s.core core).mapOf? line with
  | none => 0
  | some e =>
    match s.teams.find? fun t => t.resident && t.local' == mapTeam e && quadOf t.core == quadOf core with
    | none => 0
    | some t => (match s.launch? t.launch with
        | some l => l.sticky
        | none => 0)

/-- An owning stash answers a recall: a dirty line is written back first, and `after` says what becomes of the line and of
the ownership (R70, R72). -/
def State.answerRecall (s : State) (core line kind : Nat) (after : StashState) (owner : Option Nat) : State :=
  match s.tag? line with
  | none => s
  | some t =>
    if t.owner ≠ some core ∨ t.recallSent ≠ kind then s
    else
      match (s.core core).ownedLine? line with
      | none => (s.updTag line fun t => { t with recallSent := 0, owner := none }).pumpAll line
      | some (k, l) =>
        let finish := fun (s : State) =>
          ((s.setSline core k { l with state := after }).updTag line fun t =>
            { t with recallSent := 0, owner := owner }).pumpAll line
        if l.state = .filling then s
        else if l.state = .dirty then
          match s.writeBack core line l.ret (s.lineCls core k) l.data with
          | (s, none) => s
          | (s, some _) => finish s
        else finish s

/-- STASH_READ_RECALL: the owning stash writes a dirty line back and supplies it; it keeps the line clean. -/
def execStashReadRecall (core line : Nat) (s : State) : Out := .next (s.answerRecall core line 1 .clean (some core))

/-- STASH_WRITE_RECALL: the owning stash writes a dirty line back and releases it. -/
def execStashWriteRecall (core line : Nat) (s : State) : Out := .next (s.answerRecall core line 2 .invalid none)

/-! ### Mapping, unmapping and flushing (R68, R69, R330, R331) -/

/-- The performing lane of an instruction that performs once for a group's pick (R323). -/
def State.once (s : State) (f : State → Group → Nat → Lane → BitVec 64 → State) : State :=
  s.holdLead.forPick fun s gid m =>
    match s.group? gid with
    | none => s
    | some g =>
      match g.lead m with
      | none => s
      | some (i, l) => f s g i l m

/-- The performing lane traps. -/
def State.trapOne (s : State) (gid i : Nat) (cause va : DWord) : State :=
  s.trapLanes gid none [{ lane := i, cause := cause, va := va }]

/-- An operation on c1 that is complete. -/
def State.countDone (s : State) (gid op : Nat) : State :=
  s.updGroup gid fun g => { g with q1 := popDone (g.q1 ++ [{ op := op, left := 0 }]) }

/-- Two runs of numbers overlap. -/
def overlaps (a n b k : Nat) : Bool := decide (a < b + k) && decide (b < a + n)

/-- A map that fails under R68. -/
def State.mapFails (s : State) (g : Group) (t : Team) (mode : Nat) (gva off lines token : Nat) : Bool :=
  let c := s.core g.core
  let valid := c.maps.filter fun e => mapValid e.2
  let soff := t.stashAt g.core + off / 128
  off % 128 != 0 ||
    decide (16 ≤ (valid.filter fun e => mapTeam e.2 == t.local').length) ||
    decide (64 ≤ valid.length) ||
    decide (t.stashLines < off / 128 + lines) ||
    (valid.any fun e => overlaps (mapSoff e.2) (mapCount e.2) soff lines) ||
    (mode == 1 && valid.any fun e => overlaps (mapGva e.2 / 128) (mapCount e.2) (gva / 128) lines) ||
    (valid.any fun e => mapMode e.2 == 1 && overlaps (mapGva e.2 / 128) (mapCount e.2) (gva / 128) lines) ||
    (mode == 2 && !t.flaskRefs.contains (BitVec.ofNat 30 token))

/-- The physical lines, by key, of a run of global lines whose pages translate. -/
def State.keysOf (s : State) (g : Group) (va : Nat) (lines : Nat) : List Nat :=
  let first := va / 65536
  let last := (va + 128 * lines - 1) / 65536
  (List.range (last + 1 - first)).flatMap fun k =>
    let page := first + k
    match (s.translate (some g.core) (quadOf g.core) g.guest (BitVec.ofNat 64 (65536 * page)) .load).2 with
    | .error _ => []
    | .ok t =>
      let lo := max va (65536 * page)
      let hi := min (va + 128 * lines) (65536 * (page + 1))
      (List.range ((hi - lo) / 128)).map fun j => t.key (BitVec.ofNat 64 (lo + 128 * j))

/-- The walk that the translation of a run of global lines waits for, if any. -/
def State.keysWait (s : State) (g : Group) (va : Nat) (lines : Nat) : Option XErr :=
  let first := va / 65536
  (List.range ((va + 128 * lines - 1) / 65536 + 1 - first)).findSome? fun k =>
    match (s.translate (some g.core) (quadOf g.core) g.guest (BitVec.ofNat 64 (65536 * (first + k))) .load).2 with
    | .error e => if e.waits then some e else none
    | .ok _ => none

/-- `stash.map` (R331). Every touch of the range waits for a later fill; a writable map first waits until the
coalescing buffer has drained the lines of its global range (R69). -/
def execStashMap (tok : BitVec 6) (a b : BitVec 8) (x : XM) (s : State) : Out :=
  .next (s.once fun s g i l m =>
    match s.team? g.launch g.team with
    | none => s
    | some t =>
      let mode := fldN x.mode 0 2
      let ptr := srcUniform g i l a
      let gva := ptr.toNat % 2 ^ 55 / 128 * 128
      let off := (src32 g i l b).toNat
      let lines := fldN x.off 0 11 + 1
      let token := fldN (g.scalar i tok.toNat) 0 30
      let soff := t.stashAt g.core + off / 128
      let busy := s.rangeBusy (quadOf g.core) g.guest (BitVec.ofNat 64 gva) (128 * lines) (mode == 1) ||
        (s.quad (quadOf g.core)).ranges.any fun e =>
          rangeCore e.2 == g.core % 4 && rangeMeets e.2 true soff (soff + lines - 1) true
      if 63 ≤ g.c1 then s.holdLanes g.gid m
      else if busy then s.trapOne g.gid i (causeOf cRangeBusy 0) ptr
      else if s.mapFails g t mode gva off lines token then s.trapOne g.gid i cStashMap ptr
      else
        let keys := if mode = 1 then s.keysOf g gva lines else []
        match if mode = 1 then s.keysWait g gva lines else none with
        | some w => (s.walkAsks w).holdLanes g.gid m
        | none =>
        if (s.core g.core).cbuf.any fun e => keys.contains e.line then s.holdLanes g.gid m
        else
          let ret := if x.ret = retBypass then retDefault else x.ret
          let e := mkMap (token % 65536) (token / 65536) mode t.local' ret lines soff gva |||
            (if fldN ptr 55 9 = 0 then 0#128 else 1#128 <<< 62)
          let s := s.updCore g.core fun c =>
            let slot := (firstFree ((c.maps.filter fun e => mapValid e.2).map fun e => e.1) 64).getD 0
            let c := { c with maps := aset c.maps slot e, l1 := c.l1.filter fun x => !keys.contains x.line }
            (List.range lines).foldl (fun c k => c.setSline (soff + k) { StashLine.zero with state := .invalid }) c
          let (s, op) := s.newId
          (s.countDone g.gid op).warnOp g.gid op m 2 (if x.ret = retBypass then wRet else 0))

/-- The halves of a host-window line that a flush has written go to the host (R108). -/
def State.flushHalves (s : State) (line : Nat) : State :=
  if isHostLine line then
    match s.tag? line with
    | some t => [0, 1].foldl (fun s h =>
        if t.bridgeHalf h = 3#2 then
          (s.send (.dirtyEvict line h (halfData (readLine s.mem line) h))).updTag line fun t => t.setBridgeHalf h 0#2
        else s) s
    | none => s
  else s

/-- A line whose page has moved since its fill is owned at its new home (R45, R46). -/
def State.rehome (s : State) (core k : Nat) (l : StashLine) (t : Trans) (key : Nat) : State :=
  let s := if key = l.line then s
    else ((s.disown core l.line).allocate key l.ret 0 true).1.updTag key fun t => { t with owner := some core }
  s.setSline core k { l with state := .clean, line := key, coh := t.coh, node := t.node }

/-- A dirty line of a flush or unmap is written back (R74) where its translation now says (R45): the translation and the
range locks are checked as for a write of its global line. A check that fails stops it, and so does a wait. -/
def State.flushLine (s : State) (g : Group) (line : Nat) : State × Except Stop Unit :=
  let l := s.sline g.core line
  match (s.core g.core).mapOf? line with
  | none => (s, .ok ())
  | some e =>
    if l.state ≠ .dirty then (s, .ok ())
    else
      let va := mapVa e line
      match s.translate (some g.core) (quadOf g.core) g.guest va .writeBack with
      | (s, .error x) => (s, .error (x.stop .writeBack))
      | (s, .ok t) =>
        if s.rangeBusy (quadOf g.core) g.guest va 128 true then (s, .error (.trap (causeOf cRangeBusy 0)))
        else if t.remote then (s, .error (.trap cStashMap))
        else
          match s.writeBack g.core (t.key va) l.ret (s.clsOf g.gid) l.data with
          | (s, none) => (s, .error .wait)
          | (s, some ok) =>
            let s := (s.rehome g.core line l t (t.key va)).flushHalves (t.key va)
            (s, if ok then .ok () else .error (.trap (causeOf cSealWrite 0)))

/-- A line whose home is in the middle of other steps, or that is still being filled. -/
def State.lineUnsettled (s : State) (core line : Nat) : Bool :=
  let l := s.sline core line
  l.state == .filling || (match s.tag? l.line with
    | some t => t.busy && (l.state == .clean || l.state == .dirty)
    | none => false)

/-- An earlier stash access of the group has still to perform (R74). -/
def State.touchesPending (s : State) (gid : Nat) : Bool :=
  s.reqs.any fun r => r.gid == gid && !r.done && (r.kind == .touch true || r.kind == .touch false)

/-- Flushes lines in order up to the first that stops. -/
def State.flushLines (s : State) (g : Group) : List Nat → State × Except Stop Unit
  | [] => (s, .ok ())
  | k :: ks =>
    match s.flushLine g k with
    | (s, .error e) => (s, .error e)
    | (s, .ok ()) => s.flushLines g ks

/-- `stash.flush` (R331): it performs after the group's earlier stash accesses, and completes at once (log 28). -/
def execStashFlush (b : BitVec 8) (x : XM) (s : State) : Out :=
  .next (s.once fun s g i l m =>
    let off := (src32 g i l b).toNat
    let first := (s.quota g).1 + off / 128
    let lines := (List.range (fldN x.off 0 11 + 1)).map fun k => (first + k) % 2048
    if decide (63 ≤ g.c1) || s.touchesPending g.gid || lines.any (fun k => (s.sline g.core k).state == .dirty && s.lineUnsettled g.core k) then
      s.holdLanes g.gid m
    else
      match s.flushLines g lines with
      | (s, .ok ()) =>
        let (s, op) := s.newId
        s.countDone g.gid op
      | (s, .error .wait) => s.holdLanes g.gid m
      | (s, .error (.trap c)) => s.trapOne g.gid i c (BitVec.ofNat 64 off))

/-- A line of an unmapped range (R70): a writable line gives up its ownership; bytes stay when it was filled, and an
unfilled line reads as zero. -/
def State.unmapLine (s : State) (core line : Nat) (writable : Bool) : State :=
  let l := s.sline core line
  let s := if writable && (l.state == .clean || l.state == .dirty) then s.disown core l.line else s
  match l.state with
  | .clean => s.setSline core line { StashLine.zero with data := l.data }
  | .dirty => s.setSline core line { StashLine.zero with data := l.data }
  | .invalid => s.setSline core line StashLine.zero
  | .filling => s.setSline core line StashLine.zero
  | .unbacked => s

/-- Unmaps the lines of an entry and clears it. -/
def State.unmapEntry (s : State) (core slot : Nat) (e : BitVec 128) : State :=
  let s := (List.range (mapCount e)).foldl (fun s k => s.unmapLine core (mapSoff e + k) (mapMode e == 1)) s
  s.updCore core fun c => { c with maps := adel c.maps slot }

/-- `stash.unmap` (R331): it waits for the fills of its lines, writes dirty lines back, and completes at once. -/
def execStashUnmap (b : BitVec 8) (_x : XM) (s : State) : Out :=
  .next (s.once fun s g i l m =>
    match s.team? g.launch g.team with
    | none => s
    | some t =>
      let off := (src32 g i l b).toNat
      let soff := t.stashAt g.core + off / 128
      match (s.core g.core).maps.find? fun e => mapValid e.2 && mapTeam e.2 == t.local' && mapSoff e.2 == soff && off % 128 == 0 with
      | none => s.trapOne g.gid i cStashMap (BitVec.ofNat 64 off)
      | some (slot, e) =>
        let lines := (List.range (mapCount e)).map fun k => mapSoff e + k
        if decide (63 ≤ g.c1) || s.touchesPending g.gid || lines.any (s.lineUnsettled g.core) then s.holdLanes g.gid m
        else
          match s.flushLines g lines with
          | (s, .ok ()) =>
            let (s, op) := (s.unmapEntry g.core slot e).newId
            s.countDone g.gid op
          | (s, .error .wait) => s.holdLanes g.gid m
          | (s, .error (.trap c)) => s.trapOne g.gid i c (BitVec.ofNat 64 off))

end Sys2Proof.Machine
end

