-- ==== Sys2Proof/Machine/Flask.lean ====
section
/-! DEFINITION. Flasks (R76 to R83, R332): the operations of a group, the flask table of a slice, and the copy
references of a team. -/

namespace Sys2Proof.Machine

/-! ### Flask-table entries (R77) -/

def flGen (e : BitVec 256) : BitVec 16 := fld e 240 16
def flGuest (e : BitVec 256) : Nat := fldN e 228 12
def flTenant (e : BitVec 256) : Nat := fldN e 212 16
def flCount (e : BitVec 256) : Nat := fldN e 192 20
def flState (e : BitVec 256) : Nat := fldN e 189 3
def flLines (e : BitVec 256) : Nat := fldN e 160 24
def flBase (e : BitVec 256) : Nat := fldN e 0 55

def mkFlask (gen : BitVec 16) (guest tenant count state lines base : Nat) : BitVec 256 :=
  gen ++ BitVec.ofNat 12 guest ++ BitVec.ofNat 16 tenant ++ BitVec.ofNat 20 count ++ BitVec.ofNat 3 state ++ 0#5 ++
    BitVec.ofNat 24 lines ++ 0#105 ++ BitVec.ofNat 55 base

/-- Flask states: free, open, sealed, closing, retiring. -/
def fsFree : Nat := 0
def fsOpen : Nat := 1
def fsSealed : Nat := 2
def fsClosing : Nat := 3
def fsRetiring : Nat := 4

/-- Status values (R78). -/
def flOk : Nat := 0
def flNotSealed : Nat := 1
def flClosing : Nat := 2
def flBusy : Nat := 3
def flStale : Nat := 4
def flFull : Nat := 5
def flLimit : Nat := 6

def State.flaskEntry (s : State) (id : Nat) : BitVec 256 := alookup s.flasks id 0
def State.setFlask (s : State) (id : Nat) (e : BitVec 256) : State := { s with flasks := aset s.flasks id e }

/-- An entry with another state and count; it becomes free with the next generation (R79). -/
def flWith (e : BitVec 256) (state count : Nat) : BitVec 256 :=
  if state = fsFree then mkFlask (flGen e + 1) 0 0 0 fsFree 0 0
  else mkFlask (flGen e) (flGuest e) (flTenant e) count state (flLines e) (flBase e)

/-- A count that falls to 0 opens a closing flask and frees a retiring one (R79). -/
def flDrop (e : BitVec 256) : BitVec 256 :=
  let n := flCount e - 1
  if n = 0 ∧ flState e = fsClosing then flWith e fsOpen 0
  else if n = 0 ∧ flState e = fsRetiring then flWith e fsFree 0
  else flWith e (flState e) n

/-- Identifier and generation of a token (R76). -/
def tokId (t : BitVec 30) : Nat := fldN t 16 14
def tokGen (t : BitVec 30) : BitVec 16 := fld t 0 16

/-- The token names no flask of the guest and tenant (R78). -/
def State.flStale? (s : State) (t : BitVec 30) (guest tenant : Nat) : Bool :=
  let e := s.flaskEntry (tokId t)
  tokGen t != flGen e || flState e == fsFree || flGuest e != guest || flTenant e != tenant

/-- A team's references on a flask grow or shrink by one. -/
def State.addRef (s : State) (launch team : Nat) (t : BitVec 30) : State :=
  s.updTeam launch team fun x => { x with flaskRefs := x.flaskRefs ++ [t] }
def State.dropRef (s : State) (launch team : Nat) (t : BitVec 30) : State :=
  s.updTeam launch team fun x => { x with flaskRefs := x.flaskRefs.erase t }

/-- The team's flask mappings of a flask are unmapped (R79). -/
def State.unmapFlask (s : State) (x : Team) (t : BitVec 30) : State :=
  (if x.quadTeam then [0, 1, 2, 3] else [0]).foldl (fun s k =>
    let core := x.core + k
    ((s.core core).maps.filter fun e =>
      mapValid e.2 && mapMode e.2 == 2 && mapTeam e.2 == x.local' && mapFlask e.2 == tokId t &&
        mapFgen e.2 == (tokGen t).toNat).foldl (fun s e => s.unmapEntry core e.1 e.2) s) s

/-- One release of a reference at the flask home (R79, R83). -/
def State.releaseRef (s : State) (x : Team) (t : BitVec 30) : State :=
  let s := (s.dropRef x.launch x.team t).unmapFlask x t
  s.setFlask (tokId t) (flDrop (s.flaskEntry (tokId t)))

/-- A FLASK OPERATION AT ITS HOME (R79): the status, and the token of a create. Operations: 0 create, 1 seal,
2 reopen, 3 retire, 4 acquire copy, 5 release copy. -/
def State.flaskOp (s : State) (f : Nat) (g : Group) (x : Team) (t : BitVec 30) : State × Nat :=
  let id := tokId t
  let e := s.flaskEntry id
  let st := flState e
  if s.flStale? t g.guest g.tenant then (s, flStale)
  else if f = 1 then if st = fsOpen then (s.setFlask id (flWith e fsSealed 0), flOk) else (s, flBusy)
  else if f = 2 then
    if st = fsOpen then (s, flOk)
    else if st = fsSealed then
      (s.setFlask id (if flCount e = 0 then flWith e fsOpen 0 else flWith e fsClosing (flCount e)), flOk)
    else (s, flBusy)
  else if f = 3 then
    if st = fsOpen then (s.setFlask id (flWith e fsFree 0), flOk)
    else if st = fsSealed then
      (s.setFlask id (if flCount e = 0 then flWith e fsFree 0 else flWith e fsRetiring (flCount e)), flOk)
    else (s, flBusy)
  else if f = 4 then
    if st = fsOpen then (s, flNotSealed)
    else if st ≠ fsSealed then (s, flClosing)
    else if 1048575 ≤ flCount e ∨ 8 ≤ x.flaskRefs.length then (s, flLimit)
    else ((s.setFlask id (flWith e fsSealed (flCount e + 1))).addRef x.launch x.team t, flOk)
  else if x.flaskRefs.contains t then (s.releaseRef x t, flOk)
  else (s, flStale)

/-- A create at the slice that homes the first line (R76). -/
def State.flaskCreate (s : State) (g : Group) (slice base lines : Nat) : State × Nat × BitVec 30 :=
  match (List.range 64).find? fun k => flState (s.flaskEntry (64 * slice + k)) == fsFree with
  | none => (s, flFull, 0)
  | some k =>
    let id := 64 * slice + k
    let gen := flGen (s.flaskEntry id)
    (s.setFlask id (mkFlask gen g.guest g.tenant 0 fsOpen lines base), flOk, BitVec.ofNat 14 id ++ gen)

/-- The answer that a flask operation writes to its scalar (R332). -/
def flaskAnswer (status : Nat) (tok : BitVec 30) : DWord := 0#2 ++ tok ++ 0#28 ++ BitVec.ofNat 4 status

/-- What a release copy waits for: earlier engine and tile operations of its team, and earlier reads (R80). -/
def State.teamReading (s : State) (launch team before : Nat) : Bool :=
  let mine := fun gid => match s.group? gid with
    | some g => g.launch == launch && g.team == team
    | none => false
  (s.engOps.any fun o => mine o.gid && decide (o.id < before)) || (s.tileOps.any fun o => mine o.gid && decide (o.op < before)) ||
    (s.reqs.any fun r => mine r.gid && decide (r.id < before) && (r.kind == .load || r.kind == .stash false || r.kind == .stash true))

/-- FLASK_REQUEST_AT_HOME: a flask operation is checked and applied, and its status is answered (R79). -/
def execFlaskRequestAtHome (req : Nat) (s : State) : Out :=
  .next (match s.req? req with
    | none => s
    | some r =>
      match r.kind, r.words, s.group? r.gid with
      | .flask f, _ :: sd :: tok :: lines :: slice :: _, some g =>
        match s.team? g.launch g.team with
        | none => s
        | some x =>
          if r.done || !s.orderedReady r || (f == 5 && s.teamReading g.launch g.team r.id) then s
          else
            let answer := fun (s : State) (st : Nat) (t : BitVec 30) =>
              s.updReq req fun q => { q with done := true, words := [flaskAnswer st t, sd] }
            if f = 0 then
              let (s, st, t) := s.flaskCreate g slice.toNat (tok.toNat % 2 ^ 55) lines.toNat
              answer s st t
            else
              let t : BitVec 30 := tok.setWidth 30
              let (s, st) := s.flaskOp f g x t
              let s := if f = 4 then
                  let s := if st = flOk then s.acquireEffect r.gid (BitVec.allOnes 64) 4 fun _ => false else s
                  s.giveLanes r.gid (BitVec.allOnes 64) fun _ l => { l with acq := l.acq.erase r.id }
                else s
              answer s st t
      | _, _, _ => s)

/-! ### The instructions (R332) -/

/-- A flask operation of a group's pick sends one request and counts on c0. -/
def State.sendFlask (s : State) (f : Nat) (g : Group) (i : Nat) (m : BitVec 64) (sd : BitVec 6) (tok lines slice : DWord) :
    State :=
  if 63 ≤ g.c0 ∨ (g.lanes[i]?).any (fun l => !l.acq.isEmpty) then s.holdLanes g.gid m
  else
    let (s, op) := s.newId
    let lanes := List.range g.lanes.length
    let after := if f = 1 then (s.reqs.filter fun r => r.gid == g.gid && !r.done).map fun r => r.id else []
    let drains := if f = 1 then (lanes.flatMap fun j => s.knownEntries g.core g.gid j).eraseDups else []
    let part : Part := { lane := i, va := 0, pa := 0, off := 0, len := 0, data := 0, data2 := 0, dst := none, value := 0,
                         trap := 0, ticket := 0 }
    let r : Req :=
      { Req.zero with op := op, gid := g.gid, core := g.core, guest := g.guest, kind := .flask f, parts := [part],
                      after := after, drains := drains, words := [0, sd.setWidth 64, tok, lines, slice] }
    let (s, ids) := s.addReqs [r]
    s.updGroup g.gid fun g =>
      let g := { g with q0 := g.q0 ++ [({ op := op, left := 1 } : Counted)],
                        spend := (g.spend.filter fun e => e.1 != sd.toNat) ++ [(sd.toNat, op)] }
      if f = 4 then g.mapLanes m fun _ l => { l with acq := l.acq ++ ids } else g

/-- `flask.create`: a line count outside 1 to 16,777,215 raises `FLASK_ARG`; the slice comes from the first line's
physical address. A pointer that fails a check of R38 raises nothing (R350), and which slice takes the create is then a
free value (log 29). -/
def execFlaskCreate (r_ : BitVec 6) (a b : BitVec 8) (_x : XM) (s : State) : Out :=
  .next (s.once fun s g i l m =>
    let ptr := srcUniform g i l a &&& ~~~(0x7F#64)
    let lines := srcUniform g i l b
    if lines = 0 ∨ 16777215 < lines.toNat then s.trapOne g.gid i (causeOf cFlaskArg 0) lines
    else
      match s.translate (some g.core) (quadOf g.core) g.guest ptr .load with
      | (s, .error e) =>
        if e.waits then s.holdLanes g.gid m
        else { s with fresh := s.fresh + 1 }.sendFlask 0 g i m r_ ptr lines (BitVec.ofNat 64 (Config.choice s.fresh % 256))
      | (s, .ok t) => s.sendFlask 0 g i m r_ ptr lines (BitVec.ofNat 64 (sliceOf (t.pa ptr / 128))))

def State.flaskPick (s : State) (f : Nat) (sd : BitVec 6) (a : BitVec 8) : State :=
  s.once fun s g i l m => s.sendFlask f g i m sd (srcUniform g i l a &&& 0x3FFFFFFF#64) 0 0

def execFlaskSeal (r_ : BitVec 6) (a : BitVec 8) (_x : XM) (s : State) : Out := .next (s.flaskPick 1 r_ a)
def execFlaskReopen (r_ : BitVec 6) (a : BitVec 8) (_x : XM) (s : State) : Out := .next (s.flaskPick 2 r_ a)
def execFlaskRetire (r_ : BitVec 6) (a : BitVec 8) (_x : XM) (s : State) : Out := .next (s.flaskPick 3 r_ a)
def execFlaskAcq (r_ : BitVec 6) (a : BitVec 8) (_x : XM) (s : State) : Out := .next (s.flaskPick 4 r_ a)
def execFlaskRel (r_ : BitVec 6) (a : BitVec 8) (_x : XM) (s : State) : Out := .next (s.flaskPick 5 r_ a)

end Sys2Proof.Machine
end

