-- ==== Sys2Proof/Machine/Fetch.lean ====
section
/-! DEFINITION. The fetch of clauses (R50, R51, R179, R180) and the fields of a clause header. -/

namespace Sys2Proof.Machine

/-! ### Clause headers (R180) -/

def hdrWords (h : Word) : Nat := fldN h 0 4
def hdrClass (h : Word) : Nat := fldN h 4 3
def hdrPred (h : Word) : Nat := fldN h 7 3
def hdrNeg (h : Word) : Bool := h.getLsbD 10
def hdrWmask (h : Word) : BitVec 4 := fld h 11 4
def hdrBstart (h : Word) : Bool := h.getLsbD 27
def hdrYield (h : Word) : Bool := h.getLsbD 28
/-- Threshold of counter `c`. -/
def hdrThreshold (h : Word) (c : Nat) : Nat := fldN h (15 + 3 * c) 3

/-- The guard of a lane (R183). -/
def hdrGuard (h : Word) (l : Lane) : Bool := l.pred (hdrPred h) != hdrNeg h

/-- Each counter that WMASK selects is at or below its threshold (R182). -/
def Group.waitsMet (g : Group) (h : Word) : Bool :=
  [g.c0, g.c1, g.c2, g.c3].zipIdx.all fun e => !(hdrWmask h).getLsbD e.2 || decide (e.1 ≤ hdrThreshold h e.2)

/-! ### Fetching -/

/-- The code word at a physical address. -/
def State.codeWord (s : State) (pa : Nat) : Word := readLE s.mem pa 32 4

/-- The clause at a physical address: its header and its words. -/
def State.clauseAt (s : State) (pa : Nat) : Word × List Word :=
  let h := s.codeWord pa
  (h, (List.range (hdrWords h)).map fun k => s.codeWord (pa + 4 + 4 * k))

/-- Lines of the clause at a physical address. -/
def State.clauseLines (s : State) (pa : Nat) : List Nat :=
  (List.range ((pa + 4 * hdrWords (s.codeWord pa)) / 128 - pa / 128 + 1)).map fun k => pa / 128 + k

/-- A `FETCH_FAULT` with a reason (R510). -/
def fetchFault (reason : Nat) : DWord := causeOf cFetchFault (4096 * reason)

/-- Lines enter the L1 instruction cache, 64 sets of 16 ways, most recently used first (R53, log 23). -/
def addIcache (old : List Nat) (line : Nat) : List Nat :=
  let rest := old.filter fun l => l != line
  let mine := rest.filter fun l => l % 64 == line % 64
  line :: (if mine.length < 16 then rest else rest.filter fun l => some l != mine.getLast?)

/-- What a fetch finds at a translated address: the seal table and poison decide (R51, R89). -/
def State.fetchAt (s : State) (t : Trans) (pc : DWord) : Except DWord (Word × List Word) :=
  let pa := t.pa pc
  if t.remote || !isHbm t.ppn || !sealedBit (s.seal t.ppn) then .error (fetchFault 2)
  else if (s.clauseLines pa).any s.poisoned then .error (fetchFault 3)
  else .ok (s.clauseAt pa)

/-- THE FETCH of the clause at an address for a group of a guest on a core, with its failure's TRAP.CAUSE (R51), or the
wait for its walk (R41). -/
def State.fetchClause (s : State) (core guest : Nat) (pc : DWord) : State × Except Stop (Word × List Word) :=
  match s.translate (some core) (quadOf core) guest pc .fetch with
  | (s, .error e) => (s, .error (e.stop .fetch))
  | (s, .ok t) =>
    match s.fetchAt t pc with
    | .error c => (s, .error (.trap c))
    | .ok c => (s.updCore core fun k => { k with icache := (s.clauseLines (t.pa pc)).foldl addIcache k.icache }, .ok c)

/-- The same without any effect. -/
def State.peekClause (s : State) (quad guest : Nat) (pc : DWord) : Option (Word × List Word) :=
  match s.peekFetch quad guest pc with
  | none => none
  | some t =>
    match s.fetchAt t pc with
    | .error _ => none
    | .ok c => some c

/-- The page request of a `FETCH_FAULT` with the not-resident reason (R448). -/
def pageRequest (cause pc : DWord) : Option PageReq :=
  if codeOf cause = cFetchFault ∧ fldN cause 60 4 = 0 then some { va := pc &&& ~~~(0xFFFF#64), sent := false, response := none } else none

/-- `n` clauses from an address, in order, and the address after them; or the cause and the address of the first
whose fetch fails. -/
def State.fetchRun (s : State) (core guest : Nat) (pc : DWord) (acc : List (Word × List Word)) :
    Nat → State × Except (Stop × DWord) (List (Word × List Word) × DWord)
  | 0 => (s, .ok (acc, pc))
  | n + 1 =>
    match s.fetchClause core guest pc with
    | (s, .error c) => (s, .error (c, pc))
    | (s, .ok c) => s.fetchRun core guest (pc + BitVec.ofNat 64 (4 * (1 + hdrWords c.1))) (acc ++ [c]) n

/-- Lanes of the issuing pick whose instruction fetches clauses that cannot be fetched: they wait for the walk, or park at
the instruction as their own fetch of the clause would park them (R51, log 33). -/
def State.fetchFails (s : State) (gid : Nat) (m : BitVec 64) (e : Stop × DWord) : State :=
  match s.cur, e.1 with
  | none, _ => s
  | some _, .wait => s.holdLanes gid m
  | some p, .trap c =>
    (s.updGroup gid fun g => g.park p.placeHere (pageRequest c e.2) [] (trapsOf m g.lanes.length c e.2)).leave gid m

end Sys2Proof.Machine
end

