-- ==== Sys2Proof/Machine/IntAlu.lean ====
section
/-! DEFINITION. Class 0: 32-bit and 64-bit integers, moves, selects, compares, predicate logic and pointer
arithmetic (R269 to R288). No instruction of this file accesses memory, counts or traps (R271). -/

namespace Sys2Proof.Machine

/-! ### The values -/

/-- R275. -/
def divS (a b : Word) : Word :=
  if b = 0#32 then 0xFFFFFFFF#32
  else if a = 0x80000000#32 ∧ b = 0xFFFFFFFF#32 then 0x80000000#32
  else BitVec.ofInt 32 (a.toInt.tdiv b.toInt)
def remS (a b : Word) : Word :=
  if b = 0#32 then a
  else if a = 0x80000000#32 ∧ b = 0xFFFFFFFF#32 then 0#32
  else BitVec.ofInt 32 (a.toInt - b.toInt * a.toInt.tdiv b.toInt)
def divU (a b : Word) : Word := if b = 0#32 then 0xFFFFFFFF#32 else BitVec.ofNat 32 (a.toNat / b.toNat)
def remU (a b : Word) : Word := if b = 0#32 then a else BitVec.ofNat 32 (a.toNat - b.toNat * (a.toNat / b.toNat))

/-- R277 and R284: a count at or above the width gives 0, or the sign fill. -/
def shlW (a : BitVec w) (n : Nat) : BitVec w := if w ≤ n then 0 else BitVec.ofNat w (a.toNat * 2 ^ n)
def shrU (a : BitVec w) (n : Nat) : BitVec w := if w ≤ n then 0 else BitVec.ofNat w (a.toNat / 2 ^ n)
def shrS (a : BitVec w) (n : Nat) : BitVec w :=
  if w ≤ n then (if a.toInt < 0 then BitVec.allOnes w else 0) else BitVec.ofInt w (a.toInt / 2 ^ n)
def rotL (a : Word) (n : Nat) : Word :=
  BitVec.ofNat 32 (a.toNat * 2 ^ (n % 32) + a.toNat / 2 ^ (32 - n % 32))
def rotR (a : Word) (n : Nat) : Word :=
  BitVec.ofNat 32 (a.toNat / 2 ^ (n % 32) + a.toNat * 2 ^ (32 - n % 32))

/-- R278. -/
def popcount (a : BitVec w) : Nat := (List.range w).foldl (fun n i => n + if a.getLsbD i then 1 else 0) 0
def leadingZeros (a : Word) : Nat := if a = 0#32 then 32 else 31 - a.toNat.log2
def trailingZeros (a : Word) : Nat :=
  match (List.range 32).find? fun i => a.getLsbD i with
  | some i => i
  | none => 32
def bitReverse (a : Word) : Word :=
  (List.range 32).foldl (fun r i => if a.getLsbD i then r ||| (1#32 <<< (31 - i)) else r) 0#32

/-- R279: a field of `len` bits from bit `pos`, cut at bit 31. -/
def fieldLen (pos len : Nat) : Nat := min (pos + len) 32 - pos
def fieldMask (pos len : Nat) : Word := (BitVec.ofNat 32 (2 ^ fieldLen pos len - 1)) <<< pos
def bfxU (a : Word) (pos len : Nat) : Word := (a >>> pos) &&& BitVec.ofNat 32 (2 ^ fieldLen pos len - 1)
def bfxS (a : Word) (pos len : Nat) : Word :=
  let n := fieldLen pos len
  if a.getLsbD (pos + n - 1) then bfxU a pos len ||| ~~~(BitVec.ofNat 32 (2 ^ n - 1)) else bfxU a pos len
def bfi (a b : Word) (pos len : Nat) : Word :=
  (a &&& ~~~(fieldMask pos len)) ||| ((b <<< pos) &&& fieldMask pos len)

/-- R280. -/
def tern (a b c : Word) (tbl : BitVec 8) : Word :=
  (List.range 32).foldl (fun r i =>
    if tbl.getLsbD ((if a.getLsbD i then 1 else 0) + (if b.getLsbD i then 2 else 0) + (if c.getLsbD i then 4 else 0))
    then r ||| (1#32 <<< i) else r) 0#32

/-- The extended index of an indexed `ptr.add` (R287): e 0 `.zx`, 1 `.sx`, 2 `.w64`. -/
def ptrIndex (g : Group) (i : Nat) (l : Lane) (e : BitVec 2) (b : BitVec 8) : DWord :=
  if e = 2#2 then src64 g i l b
  else if e = 1#2 then (src32 g i l b).signExtend 64
  else (src32 g i l b).setWidth 64

/-! ### The meanings -/

/-- `add.b32 d, a, b` (R273). -/
def execAddB32 (d : BitVec 7) (w : BitVec 1) (a b : BitVec 8) (s : State) : Out :=
  .next (s.bin32 d w a b fun x y => x + y)

/-- `add.b32 d, a, imm` (R273). -/
def execAddB32Imm (d : BitVec 7) (w : BitVec 1) (a i : BitVec 8) (s : State) : Out :=
  .next (s.un32 d w a fun x => x + i.signExtend 32)

/-- `sub.b32 d, a, b` (R273). -/
def execSubB32 (d : BitVec 7) (w : BitVec 1) (a b : BitVec 8) (s : State) : Out :=
  .next (s.bin32 d w a b fun x y => x - y)

/-- `sub.b32 d, a, imm` (R273). -/
def execSubB32Imm (d : BitVec 7) (w : BitVec 1) (a i : BitVec 8) (s : State) : Out :=
  .next (s.un32 d w a fun x => x - i.signExtend 32)

/-- `add.sat.i32` (R273). -/
def execAddSatI32 (d : BitVec 7) (w : BitVec 1) (a b : BitVec 8) (s : State) : Out :=
  .next (s.bin32 d w a b fun x y => satS 32 (x.toInt + y.toInt))

/-- `add.sat.n32` (R273). -/
def execAddSatN32 (d : BitVec 7) (w : BitVec 1) (a b : BitVec 8) (s : State) : Out :=
  .next (s.bin32 d w a b fun x y => satU 32 ((x.toNat : Int) + y.toNat))

/-- `sub.sat.i32` (R273). -/
def execSubSatI32 (d : BitVec 7) (w : BitVec 1) (a b : BitVec 8) (s : State) : Out :=
  .next (s.bin32 d w a b fun x y => satS 32 (x.toInt - y.toInt))

/-- `sub.sat.n32` (R273). -/
def execSubSatN32 (d : BitVec 7) (w : BitVec 1) (a b : BitVec 8) (s : State) : Out :=
  .next (s.bin32 d w a b fun x y => satU 32 ((x.toNat : Int) - y.toNat))

/-- `mul.lo.b32` (R274). -/
def execMulLoB32 (d : BitVec 7) (w : BitVec 1) (a b : BitVec 8) (s : State) : Out :=
  .next (s.bin32 d w a b fun x y => x * y)

/-- `mul.hi.i32` (R274). -/
def execMulHiI32 (d : BitVec 7) (w : BitVec 1) (a b : BitVec 8) (s : State) : Out :=
  .next (s.bin32 d w a b fun x y => (BitVec.ofInt 64 (x.toInt * y.toInt)).extractLsb' 32 32)

/-- `mul.hi.n32` (R274). -/
def execMulHiN32 (d : BitVec 7) (w : BitVec 1) (a b : BitVec 8) (s : State) : Out :=
  .next (s.bin32 d w a b fun x y => (BitVec.ofNat 64 (x.toNat * y.toNat)).extractLsb' 32 32)

/-- `mul.wide.i32` (R274). -/
def execMulWideI32 (d : BitVec 6) (w : BitVec 1) (a b : BitVec 8) (s : State) : Out :=
  .next (s.wide32 d w a b fun x y => BitVec.ofInt 64 (x.toInt * y.toInt))

/-- `mul.wide.n32` (R274). -/
def execMulWideN32 (d : BitVec 6) (w : BitVec 1) (a b : BitVec 8) (s : State) : Out :=
  .next (s.wide32 d w a b fun x y => BitVec.ofNat 64 (x.toNat * y.toNat))

/-- `div.i32` (R275). -/
def execDivI32 (d : BitVec 7) (w : BitVec 1) (a b : BitVec 8) (s : State) : Out :=
  .next (s.bin32 d w a b divS)

/-- `div.n32` (R275). -/
def execDivN32 (d : BitVec 7) (w : BitVec 1) (a b : BitVec 8) (s : State) : Out :=
  .next (s.bin32 d w a b divU)

/-- `rem.i32` (R275). -/
def execRemI32 (d : BitVec 7) (w : BitVec 1) (a b : BitVec 8) (s : State) : Out :=
  .next (s.bin32 d w a b remS)

/-- `rem.n32` (R275). -/
def execRemN32 (d : BitVec 7) (w : BitVec 1) (a b : BitVec 8) (s : State) : Out :=
  .next (s.bin32 d w a b remU)

/-- `min.i32` (R276). -/
def execMinI32 (d : BitVec 7) (w : BitVec 1) (a b : BitVec 8) (s : State) : Out :=
  .next (s.bin32 d w a b minS)

/-- `max.i32` (R276). -/
def execMaxI32 (d : BitVec 7) (w : BitVec 1) (a b : BitVec 8) (s : State) : Out :=
  .next (s.bin32 d w a b maxS)

/-- `min.n32` (R276). -/
def execMinN32 (d : BitVec 7) (w : BitVec 1) (a b : BitVec 8) (s : State) : Out :=
  .next (s.bin32 d w a b minU)

/-- `max.n32` (R276). -/
def execMaxN32 (d : BitVec 7) (w : BitVec 1) (a b : BitVec 8) (s : State) : Out :=
  .next (s.bin32 d w a b maxU)

/-- `shl.b32 d, a, b` (R277). -/
def execShlB32 (d : BitVec 7) (w : BitVec 1) (a b : BitVec 8) (s : State) : Out :=
  .next (s.bin32 d w a b fun x y => shlW x y.toNat)

/-- `shr.n32 d, a, b` (R277). -/
def execShrN32 (d : BitVec 7) (w : BitVec 1) (a b : BitVec 8) (s : State) : Out :=
  .next (s.bin32 d w a b fun x y => shrU x y.toNat)

/-- `shr.i32 d, a, b` (R277). -/
def execShrI32 (d : BitVec 7) (w : BitVec 1) (a b : BitVec 8) (s : State) : Out :=
  .next (s.bin32 d w a b fun x y => shrS x y.toNat)

/-- `rotl.b32 d, a, b` (R277). -/
def execRotlB32 (d : BitVec 7) (w : BitVec 1) (a b : BitVec 8) (s : State) : Out :=
  .next (s.bin32 d w a b fun x y => rotL x y.toNat)

/-- `rotr.b32 d, a, b` (R277). -/
def execRotrB32 (d : BitVec 7) (w : BitVec 1) (a b : BitVec 8) (s : State) : Out :=
  .next (s.bin32 d w a b fun x y => rotR x y.toNat)

/-- `shl.b32 d, a, n` (R277). -/
def execShlB32Imm (d : BitVec 7) (w : BitVec 1) (a : BitVec 8) (n : BitVec 5) (s : State) : Out :=
  .next (s.un32 d w a fun x => shlW x n.toNat)

/-- `shr.n32 d, a, n` (R277). -/
def execShrN32Imm (d : BitVec 7) (w : BitVec 1) (a : BitVec 8) (n : BitVec 5) (s : State) : Out :=
  .next (s.un32 d w a fun x => shrU x n.toNat)

/-- `shr.i32 d, a, n` (R277). -/
def execShrI32Imm (d : BitVec 7) (w : BitVec 1) (a : BitVec 8) (n : BitVec 5) (s : State) : Out :=
  .next (s.un32 d w a fun x => shrS x n.toNat)

/-- `rotl.b32 d, a, n` (R277). -/
def execRotlB32Imm (d : BitVec 7) (w : BitVec 1) (a : BitVec 8) (n : BitVec 5) (s : State) : Out :=
  .next (s.un32 d w a fun x => rotL x n.toNat)

/-- `rotr.b32 d, a, n` (R277). -/
def execRotrB32Imm (d : BitVec 7) (w : BitVec 1) (a : BitVec 8) (n : BitVec 5) (s : State) : Out :=
  .next (s.un32 d w a fun x => rotR x n.toNat)

/-- `popc.b32` (R278). -/
def execPopcB32 (d : BitVec 7) (w : BitVec 1) (a : BitVec 8) (s : State) : Out :=
  .next (s.un32 d w a fun x => BitVec.ofNat 32 (popcount x))

/-- `clz.b32` (R278). -/
def execClzB32 (d : BitVec 7) (w : BitVec 1) (a : BitVec 8) (s : State) : Out :=
  .next (s.un32 d w a fun x => BitVec.ofNat 32 (leadingZeros x))

/-- `ctz.b32` (R278). -/
def execCtzB32 (d : BitVec 7) (w : BitVec 1) (a : BitVec 8) (s : State) : Out :=
  .next (s.un32 d w a fun x => BitVec.ofNat 32 (trailingZeros x))

/-- `brev.b32` (R278). -/
def execBrevB32 (d : BitVec 7) (w : BitVec 1) (a : BitVec 8) (s : State) : Out :=
  .next (s.un32 d w a bitReverse)

/-- `bfx.n32`; the field holds the length minus 1 (R279). -/
def execBfxN32 (d : BitVec 7) (w : BitVec 1) (a : BitVec 8) (pos len : BitVec 5) (s : State) : Out :=
  .next (s.un32 d w a fun x => bfxU x pos.toNat (len.toNat + 1))

/-- `bfx.i32` (R279). -/
def execBfxI32 (d : BitVec 7) (w : BitVec 1) (a : BitVec 8) (pos len : BitVec 5) (s : State) : Out :=
  .next (s.un32 d w a fun x => bfxS x pos.toNat (len.toNat + 1))

/-- `bfi.b32` (R279). -/
def execBfiB32 (d : BitVec 7) (w : BitVec 1) (a b : BitVec 8) (pos len : BitVec 5) (s : State) : Out :=
  .next (s.bin32 d w a b fun x y => bfi x y pos.toNat (len.toNat + 1))

/-- `tern.b32` (R280). -/
def execTernB32 (d : BitVec 7) (w : BitVec 1) (a b c tbl : BitVec 8) (s : State) : Out :=
  .next (s.vec32 d.toNat w fun g i l => tern (src32 g i l a) (src32 g i l b) (src32 g i l c) tbl)

/-- `and.b32 d, a, b` (R280). -/
def execAndB32 (d : BitVec 7) (w : BitVec 1) (a b : BitVec 8) (s : State) : Out :=
  .next (s.bin32 d w a b fun x y => x &&& y)

/-- `or.b32 d, a, b` (R280). -/
def execOrB32 (d : BitVec 7) (w : BitVec 1) (a b : BitVec 8) (s : State) : Out :=
  .next (s.bin32 d w a b fun x y => x ||| y)

/-- `xor.b32 d, a, b` (R280). -/
def execXorB32 (d : BitVec 7) (w : BitVec 1) (a b : BitVec 8) (s : State) : Out :=
  .next (s.bin32 d w a b fun x y => x ^^^ y)

/-- `not.b32` (R280). -/
def execNotB32 (d : BitVec 7) (w : BitVec 1) (a : BitVec 8) (s : State) : Out :=
  .next (s.un32 d w a fun x => ~~~x)

/-- `and.b32 d, a, imm` (R280). -/
def execAndB32Imm (d : BitVec 7) (w : BitVec 1) (a i : BitVec 8) (s : State) : Out :=
  .next (s.un32 d w a fun x => x &&& i.signExtend 32)

/-- `or.b32 d, a, imm` (R280). -/
def execOrB32Imm (d : BitVec 7) (w : BitVec 1) (a i : BitVec 8) (s : State) : Out :=
  .next (s.un32 d w a fun x => x ||| i.signExtend 32)

/-- `xor.b32 d, a, imm` (R280). -/
def execXorB32Imm (d : BitVec 7) (w : BitVec 1) (a i : BitVec 8) (s : State) : Out :=
  .next (s.un32 d w a fun x => x ^^^ i.signExtend 32)

/-- `mov.b32 d, a` (R281). -/
def execMovB32 (d : BitVec 7) (w : BitVec 1) (a : BitVec 8) (s : State) : Out :=
  .next (s.un32 d w a fun x => x)

/-- `mov.b32 d, imm`; the type field concerns admission alone (R281). -/
def execMovB32Imm (d : BitVec 7) (w : BitVec 1) (_t : BitVec 8) (imm : BitVec 32) (s : State) : Out :=
  .next (s.vec32 d.toNat w fun _ _ _ => imm)

/-- `add.b64` (R284). -/
def execAddB64 (d : BitVec 6) (w : BitVec 1) (a b : BitVec 8) (s : State) : Out :=
  .next (s.bin64 d w a b fun x y => x + y)

/-- `sub.b64` (R284). -/
def execSubB64 (d : BitVec 6) (w : BitVec 1) (a b : BitVec 8) (s : State) : Out :=
  .next (s.bin64 d w a b fun x y => x - y)

/-- `mul.lo.b64` (R284). -/
def execMulLoB64 (d : BitVec 6) (w : BitVec 1) (a b : BitVec 8) (s : State) : Out :=
  .next (s.bin64 d w a b fun x y => x * y)

/-- `min.i64` (R284). -/
def execMinI64 (d : BitVec 6) (w : BitVec 1) (a b : BitVec 8) (s : State) : Out :=
  .next (s.bin64 d w a b minS)

/-- `max.i64` (R284). -/
def execMaxI64 (d : BitVec 6) (w : BitVec 1) (a b : BitVec 8) (s : State) : Out :=
  .next (s.bin64 d w a b maxS)

/-- `min.n64` (R284). -/
def execMinN64 (d : BitVec 6) (w : BitVec 1) (a b : BitVec 8) (s : State) : Out :=
  .next (s.bin64 d w a b minU)

/-- `max.n64` (R284). -/
def execMaxN64 (d : BitVec 6) (w : BitVec 1) (a b : BitVec 8) (s : State) : Out :=
  .next (s.bin64 d w a b maxU)

/-- `shl.b64` (R284). -/
def execShlB64 (d : BitVec 6) (w : BitVec 1) (a b : BitVec 8) (s : State) : Out :=
  .next (s.shift64 d w a b shlW)

/-- `shr.n64` (R284). -/
def execShrN64 (d : BitVec 6) (w : BitVec 1) (a b : BitVec 8) (s : State) : Out :=
  .next (s.shift64 d w a b shrU)

/-- `shr.i64` (R284). -/
def execShrI64 (d : BitVec 6) (w : BitVec 1) (a b : BitVec 8) (s : State) : Out :=
  .next (s.shift64 d w a b shrS)

/-- `mov.b64 d, imm` (R281). -/
def execMovB64Imm (d : BitVec 6) (w : BitVec 1) (imm : BitVec 32) (s : State) : Out :=
  .next (s.vec64 (2 * d.toNat) w fun _ _ _ => imm.signExtend 64)

/-- `smov.b64 sd, a` (R282, R192). -/
def execSmovB64 (sd : BitVec 6) (a : BitVec 8) (s : State) : Out :=
  .next (s.writeScalar sd.toNat fun g i l => src64 g i l a)

/-- `sel.b32` (R283). -/
def execSelB32 (d : BitVec 7) (w : BitVec 1) (a b : BitVec 8) (p : BitVec 3) (s : State) : Out :=
  .next (s.vec32 d.toNat w fun g i l => if l.pred p.toNat then src32 g i l a else src32 g i l b)

/-- `sel.b64` (R283). -/
def execSelB64 (d : BitVec 6) (w : BitVec 1) (a b : BitVec 8) (p : BitVec 3) (s : State) : Out :=
  .next (s.vec64 (2 * d.toNat) w fun g i l => if l.pred p.toNat then src64 g i l a else src64 g i l b)

/-- `setp.eq.b32` (R285). -/
def execSetpEqB32 (p : BitVec 3) (a b : BitVec 8) (s : State) : Out :=
  .next (s.cmp32 p a b fun x y => x == y)

/-- `setp.ne.b32` (R285). -/
def execSetpNeB32 (p : BitVec 3) (a b : BitVec 8) (s : State) : Out :=
  .next (s.cmp32 p a b fun x y => x != y)

/-- `setp.lt.i32` (R285). -/
def execSetpLtI32 (p : BitVec 3) (a b : BitVec 8) (s : State) : Out :=
  .next (s.cmp32 p a b ltS)

/-- `setp.le.i32` (R285). -/
def execSetpLeI32 (p : BitVec 3) (a b : BitVec 8) (s : State) : Out :=
  .next (s.cmp32 p a b leS)

/-- `setp.gt.i32` (R285). -/
def execSetpGtI32 (p : BitVec 3) (a b : BitVec 8) (s : State) : Out :=
  .next (s.cmp32 p a b (fun x y => ltS y x))

/-- `setp.ge.i32` (R285). -/
def execSetpGeI32 (p : BitVec 3) (a b : BitVec 8) (s : State) : Out :=
  .next (s.cmp32 p a b (fun x y => leS y x))

/-- `setp.lt.n32` (R285). -/
def execSetpLtN32 (p : BitVec 3) (a b : BitVec 8) (s : State) : Out :=
  .next (s.cmp32 p a b ltU)

/-- `setp.le.n32` (R285). -/
def execSetpLeN32 (p : BitVec 3) (a b : BitVec 8) (s : State) : Out :=
  .next (s.cmp32 p a b leU)

/-- `setp.gt.n32` (R285). -/
def execSetpGtN32 (p : BitVec 3) (a b : BitVec 8) (s : State) : Out :=
  .next (s.cmp32 p a b (fun x y => ltU y x))

/-- `setp.ge.n32` (R285). -/
def execSetpGeN32 (p : BitVec 3) (a b : BitVec 8) (s : State) : Out :=
  .next (s.cmp32 p a b (fun x y => leU y x))

/-- `setp.eq.b64` (R285). -/
def execSetpEqB64 (p : BitVec 3) (a b : BitVec 8) (s : State) : Out :=
  .next (s.cmp64 p a b fun x y => x == y)

/-- `setp.ne.b64` (R285). -/
def execSetpNeB64 (p : BitVec 3) (a b : BitVec 8) (s : State) : Out :=
  .next (s.cmp64 p a b fun x y => x != y)

/-- `setp.lt.i64` (R285). -/
def execSetpLtI64 (p : BitVec 3) (a b : BitVec 8) (s : State) : Out :=
  .next (s.cmp64 p a b ltS)

/-- `setp.le.i64` (R285). -/
def execSetpLeI64 (p : BitVec 3) (a b : BitVec 8) (s : State) : Out :=
  .next (s.cmp64 p a b leS)

/-- `setp.lt.n64` (R285). -/
def execSetpLtN64 (p : BitVec 3) (a b : BitVec 8) (s : State) : Out :=
  .next (s.cmp64 p a b ltU)

/-- `setp.le.n64` (R285). -/
def execSetpLeN64 (p : BitVec 3) (a b : BitVec 8) (s : State) : Out :=
  .next (s.cmp64 p a b leU)

/-- `setp.eq.b32` with IMM8 (R285). -/
def execSetpEqB32Imm (p : BitVec 3) (a i : BitVec 8) (s : State) : Out :=
  .next (s.cmpImm p a i fun x y => x == y)

/-- `setp.ne.b32` with IMM8 (R285). -/
def execSetpNeB32Imm (p : BitVec 3) (a i : BitVec 8) (s : State) : Out :=
  .next (s.cmpImm p a i fun x y => x != y)

/-- `setp.lt.i32` with IMM8 (R285). -/
def execSetpLtI32Imm (p : BitVec 3) (a i : BitVec 8) (s : State) : Out :=
  .next (s.cmpImm p a i ltS)

/-- `setp.le.i32` with IMM8 (R285). -/
def execSetpLeI32Imm (p : BitVec 3) (a i : BitVec 8) (s : State) : Out :=
  .next (s.cmpImm p a i leS)

/-- `setp.gt.i32` with IMM8 (R285). -/
def execSetpGtI32Imm (p : BitVec 3) (a i : BitVec 8) (s : State) : Out :=
  .next (s.cmpImm p a i (fun x y => ltS y x))

/-- `setp.ge.i32` with IMM8 (R285). -/
def execSetpGeI32Imm (p : BitVec 3) (a i : BitVec 8) (s : State) : Out :=
  .next (s.cmpImm p a i (fun x y => leS y x))

/-- `and.pred` (R286). -/
def execAndPred (p a b : BitVec 3) (s : State) : Out :=
  .next (s.vecPred p.toNat fun _ _ l => l.pred a.toNat && l.pred b.toNat)

/-- `or.pred` (R286). -/
def execOrPred (p a b : BitVec 3) (s : State) : Out :=
  .next (s.vecPred p.toNat fun _ _ l => l.pred a.toNat || l.pred b.toNat)

/-- `xor.pred` (R286). -/
def execXorPred (p a b : BitVec 3) (s : State) : Out :=
  .next (s.vecPred p.toNat fun _ _ l => l.pred a.toNat != l.pred b.toNat)

/-- `not.pred` (R286). -/
def execNotPred (p a : BitVec 3) (s : State) : Out :=
  .next (s.vecPred p.toNat fun _ _ l => !l.pred a.toNat)

/-- `ptr.add d, p, j, s .ext` (R287). -/
def execPtrAdd (d : BitVec 6) (w : BitVec 1) (a b : BitVec 8) (sc : BitVec 3) (e : BitVec 2) (s : State) : Out :=
  .next (s.vec64 (2 * d.toNat) w fun g i l => src64 g i l a + ptrIndex g i l e b <<< sc.toNat)

/-- `ptr.diff` (R288). -/
def execPtrDiff (d : BitVec 6) (w : BitVec 1) (a b : BitVec 8) (s : State) : Out :=
  .next (s.bin64 d w a b fun x y => x - y)

/-- `ptr.add d, p, k` (R287). -/
def execPtrAddImm (d : BitVec 6) (w : BitVec 1) (a : BitVec 8) (imm : BitVec 32) (s : State) : Out :=
  .next (s.vec64 (2 * d.toNat) w fun g i l => src64 g i l a + imm.signExtend 64)

end Sys2Proof.Machine
end

