-- ==== Sys2Proof/Machine/Vector.lean ====
section
/-! DEFINITION. Class 1, lane by lane: floating-point arithmetic, approximations, compares, conversions,
quantisation and packing (R302 to R313). No instruction of this file accesses memory, counts or traps
(R303). -/

namespace Sys2Proof.Machine

/-- Element of `n` bits from bit `lo` (R313). -/
def getField (x : Word) (lo n : Nat) : Word := (x >>> lo) &&& BitVec.ofNat 32 (2 ^ n - 1)
/-- A word with the element of `n` bits from bit `lo` replaced. -/
def putField (x y : Word) (lo n : Nat) : Word :=
  (x &&& ~~~(BitVec.ofNat 32 (2 ^ n - 1) <<< lo)) ||| ((y &&& BitVec.ofNat 32 (2 ^ n - 1)) <<< lo)

/-- `add.rnd.f32` (R305). -/
def execAddF32 (r : BitVec 2) (d : BitVec 7) (w : BitVec 1) (a b : BitVec 8) (s : State) : Out :=
  .next (s.bin32 d w a b (fadd (rndOf r)))

/-- `sub.rnd.f32` (R305). -/
def execSubF32 (r : BitVec 2) (d : BitVec 7) (w : BitVec 1) (a b : BitVec 8) (s : State) : Out :=
  .next (s.bin32 d w a b (fsub (rndOf r)))

/-- `mul.rnd.f32` (R305). -/
def execMulF32 (r : BitVec 2) (d : BitVec 7) (w : BitVec 1) (a b : BitVec 8) (s : State) : Out :=
  .next (s.bin32 d w a b (fmul (rndOf r)))

/-- `fma.rnd.f32`: the addend is D, read before it is written (R305, R190). -/
def execFmaF32 (r : BitVec 2) (d : BitVec 7) (w : BitVec 1) (a b : BitVec 8) (s : State) : Out :=
  .next (s.tri32 d w a b (ffma (rndOf r)))

/-- `add.rnd.f16x2` (R306). -/
def execAddF16x2 (r : BitVec 1) (d : BitVec 7) (w : BitVec 1) (a b : BitVec 8) (s : State) : Out :=
  .next (s.bin32 d w a b (padd f16 (rnd1 r)))

/-- `mul.rnd.f16x2` (R306). -/
def execMulF16x2 (r : BitVec 1) (d : BitVec 7) (w : BitVec 1) (a b : BitVec 8) (s : State) : Out :=
  .next (s.bin32 d w a b (pmul f16 (rnd1 r)))

/-- `fma.rnd.f16x2` (R306). -/
def execFmaF16x2 (r : BitVec 1) (d : BitVec 7) (w : BitVec 1) (a b : BitVec 8) (s : State) : Out :=
  .next (s.tri32 d w a b (pfma f16 (rnd1 r)))

/-- `add.rnd.bf16x2` (R306). -/
def execAddBf16x2 (r : BitVec 1) (d : BitVec 7) (w : BitVec 1) (a b : BitVec 8) (s : State) : Out :=
  .next (s.bin32 d w a b (padd bf16 (rnd1 r)))

/-- `mul.rnd.bf16x2` (R306). -/
def execMulBf16x2 (r : BitVec 1) (d : BitVec 7) (w : BitVec 1) (a b : BitVec 8) (s : State) : Out :=
  .next (s.bin32 d w a b (pmul bf16 (rnd1 r)))

/-- `fma.rnd.bf16x2` (R306). -/
def execFmaBf16x2 (r : BitVec 1) (d : BitVec 7) (w : BitVec 1) (a b : BitVec 8) (s : State) : Out :=
  .next (s.tri32 d w a b (pfma bf16 (rnd1 r)))

/-- `min.f32` (R307). -/
def execMinF32 (d : BitVec 7) (w : BitVec 1) (a b : BitVec 8) (s : State) : Out :=
  .next (s.bin32 d w a b (fminmax false))

/-- `max.f32` (R307). -/
def execMaxF32 (d : BitVec 7) (w : BitVec 1) (a b : BitVec 8) (s : State) : Out :=
  .next (s.bin32 d w a b (fminmax true))

/-- `abs.f32` (R307). -/
def execAbsF32 (d : BitVec 7) (w : BitVec 1) (a : BitVec 8) (s : State) : Out :=
  .next (s.un32 d w a fabs)

/-- `neg.f32` (R307). -/
def execNegF32 (d : BitVec 7) (w : BitVec 1) (a : BitVec 8) (s : State) : Out :=
  .next (s.un32 d w a fneg)

/-- `rcp.approx.f32` (R309). -/
def execRcpApproxF32 (d : BitVec 7) (w : BitVec 1) (a : BitVec 8) (s : State) : Out :=
  .next (s.un32 d w a approxRcp)

/-- `rsqrt.approx.f32` (R309). -/
def execRsqrtApproxF32 (d : BitVec 7) (w : BitVec 1) (a : BitVec 8) (s : State) : Out :=
  .next (s.un32 d w a approxRsqrt)

/-- `sqrt.approx.f32` (R309). -/
def execSqrtApproxF32 (d : BitVec 7) (w : BitVec 1) (a : BitVec 8) (s : State) : Out :=
  .next (s.un32 d w a approxSqrt)

/-- `exp2.approx.f32` (R309). -/
def execExp2ApproxF32 (d : BitVec 7) (w : BitVec 1) (a : BitVec 8) (s : State) : Out :=
  .next (s.un32 d w a approxExp2)

/-- `log2.approx.f32` (R309). -/
def execLog2ApproxF32 (d : BitVec 7) (w : BitVec 1) (a : BitVec 8) (s : State) : Out :=
  .next (s.un32 d w a approxLog2)

/-- `sin.approx.f32` (R309). -/
def execSinApproxF32 (d : BitVec 7) (w : BitVec 1) (a : BitVec 8) (s : State) : Out :=
  .next (s.un32 d w a approxSin)

/-- `cos.approx.f32` (R309). -/
def execCosApproxF32 (d : BitVec 7) (w : BitVec 1) (a : BitVec 8) (s : State) : Out :=
  .next (s.un32 d w a approxCos)

/-- `tanh.approx.f32` (R309). -/
def execTanhApproxF32 (d : BitVec 7) (w : BitVec 1) (a : BitVec 8) (s : State) : Out :=
  .next (s.un32 d w a approxTanh)

/-- `sqrt.rnd.f32` (R308). -/
def execSqrtF32 (r : BitVec 2) (d : BitVec 7) (w : BitVec 1) (a : BitVec 8) (s : State) : Out :=
  .next (s.un32 d w a (fsqrt (rndOf r)))

/-- `setp.eq.f32` (R310). -/
def execSetpEqF32 (p : BitVec 3) (a b : BitVec 8) (s : State) : Out :=
  .next (s.cmp32 p a b feq)

/-- `setp.ne.f32` (R310). -/
def execSetpNeF32 (p : BitVec 3) (a b : BitVec 8) (s : State) : Out :=
  .next (s.cmp32 p a b (fun x y => !feq x y))

/-- `setp.lt.f32` (R310). -/
def execSetpLtF32 (p : BitVec 3) (a b : BitVec 8) (s : State) : Out :=
  .next (s.cmp32 p a b flt)

/-- `setp.le.f32` (R310). -/
def execSetpLeF32 (p : BitVec 3) (a b : BitVec 8) (s : State) : Out :=
  .next (s.cmp32 p a b fle)

/-- `setp.gt.f32` (R310). -/
def execSetpGtF32 (p : BitVec 3) (a b : BitVec 8) (s : State) : Out :=
  .next (s.cmp32 p a b (fun x y => flt y x))

/-- `setp.ge.f32` (R310). -/
def execSetpGeF32 (p : BitVec 3) (a b : BitVec 8) (s : State) : Out :=
  .next (s.cmp32 p a b (fun x y => fle y x))

/-- `setp.nan.f32` (R310). -/
def execSetpNanF32 (p : BitVec 3) (a b : BitVec 8) (s : State) : Out :=
  .next (s.cmp32 p a b (fun x y => (xf x).isNaN || (xf y).isNaN))

/-- `cvt.rnd.f32.i32` (R311). -/
def execCvtF32I32 (r : BitVec 2) (d : BitVec 7) (w : BitVec 1) (a : BitVec 8) (s : State) : Out :=
  .next (s.un32 d w a fun x => toF32 (rndOf r) (.ofInt x.toInt))

/-- `cvt.rnd.f32.n32` (R311). -/
def execCvtF32N32 (r : BitVec 2) (d : BitVec 7) (w : BitVec 1) (a : BitVec 8) (s : State) : Out :=
  .next (s.un32 d w a fun x => toF32 (rndOf r) (.ofInt x.toNat))

/-- `cvt.rnd.i32.f32` (R311, R265). -/
def execCvtI32F32 (r : BitVec 2) (d : BitVec 7) (w : BitVec 1) (a : BitVec 8) (s : State) : Out :=
  .next (s.un32 d w a fun x => BitVec.ofInt 32 (roundSat (rndOf r) (-2147483648) 2147483647 (xf x)))

/-- `cvt.rnd.n32.f32` (R311, R265). -/
def execCvtN32F32 (r : BitVec 2) (d : BitVec 7) (w : BitVec 1) (a : BitVec 8) (s : State) : Out :=
  .next (s.un32 d w a fun x => BitVec.ofInt 32 (roundSat (rndOf r) 0 4294967295 (xf x)))

/-- `cvt.rnd.f16.f32` (R311). -/
def execCvtF16F32 (r : BitVec 1) (d : BitVec 7) (w : BitVec 1) (a : BitVec 8) (s : State) : Out :=
  .next (s.un32 d w a fun x => BitVec.ofNat 32 (f16.round (rnd1 r) (xf x)))

/-- `cvt.rnd.bf16.f32` (R311). -/
def execCvtBf16F32 (r : BitVec 1) (d : BitVec 7) (w : BitVec 1) (a : BitVec 8) (s : State) : Out :=
  .next (s.un32 d w a fun x => BitVec.ofNat 32 (bf16.round (rnd1 r) (xf x)))

/-- `cvt.f32.f16`: exact (R311). -/
def execCvtF32F16 (d : BitVec 7) (w : BitVec 1) (a : BitVec 8) (s : State) : Out :=
  .next (s.un32 d w a fun x => toF32 .ne (f16.decode (half x 0)))

/-- `cvt.f32.bf16`: exact (R311). -/
def execCvtF32Bf16 (d : BitVec 7) (w : BitVec 1) (a : BitVec 8) (s : State) : Out :=
  .next (s.un32 d w a fun x => toF32 .ne (bf16.decode (half x 0)))

/-- `cvt.rn.sat.f8a.f32` (R311). -/
def execCvtSatF8aF32 (d : BitVec 7) (w : BitVec 1) (a : BitVec 8) (s : State) : Out :=
  .next (s.un32 d w a fun x => BitVec.ofNat 32 (f8a.round .ne (f8a.sat (xf x))))

/-- `cvt.rn.nan.f8a.f32` (R311). -/
def execCvtNanF8aF32 (d : BitVec 7) (w : BitVec 1) (a : BitVec 8) (s : State) : Out :=
  .next (s.un32 d w a fun x => BitVec.ofNat 32 (f8a.round .ne (xf x)))

/-- `cvt.rn.sat.f8b.f32` (R311). -/
def execCvtSatF8bF32 (d : BitVec 7) (w : BitVec 1) (a : BitVec 8) (s : State) : Out :=
  .next (s.un32 d w a fun x => BitVec.ofNat 32 (f8b.round .ne (f8b.sat (xf x))))

/-- `cvt.rn.nan.f8b.f32` (R311). -/
def execCvtNanF8bF32 (d : BitVec 7) (w : BitVec 1) (a : BitVec 8) (s : State) : Out :=
  .next (s.un32 d w a fun x => BitVec.ofNat 32 (f8b.round .ne (xf x)))

/-- `cvt.rn.sat.f4.f32` (R311). -/
def execCvtSatF4F32 (d : BitVec 7) (w : BitVec 1) (a : BitVec 8) (s : State) : Out :=
  .next (s.un32 d w a fun x => BitVec.ofNat 32 (encodeF4 (xf x)))

/-- `cvt.f32.f8a`: exact (R311). -/
def execCvtF32F8a (d : BitVec 7) (w : BitVec 1) (a : BitVec 8) (s : State) : Out :=
  .next (s.un32 d w a fun x => toF32 .ne (f8a.decode x.toNat))

/-- `cvt.f32.f8b`: exact (R311). -/
def execCvtF32F8b (d : BitVec 7) (w : BitVec 1) (a : BitVec 8) (s : State) : Out :=
  .next (s.un32 d w a fun x => toF32 .ne (f8b.decode x.toNat))

/-- `cvt.f32.f4 d, a, b`: b holds the extra value (R311). -/
def execCvtF32F4 (d : BitVec 7) (w : BitVec 1) (a b : BitVec 8) (s : State) : Out :=
  .next (s.bin32 d w a b fun x y => toF32 .ne (decodeF4 x.toNat (half y 0)))

/-- `cvt.sat.i8.i32` (R311). -/
def execCvtSatI8I32 (d : BitVec 7) (w : BitVec 1) (a : BitVec 8) (s : State) : Out :=
  .next (s.un32 d w a fun x => (satS 8 x.toInt).signExtend 32)

/-- `cvt.i32.i8` (R311). -/
def execCvtI32I8 (d : BitVec 7) (w : BitVec 1) (a : BitVec 8) (s : State) : Out :=
  .next (s.un32 d w a fun x => (x.setWidth 8).signExtend 32)

/-- `quant.rn.q8.f32` (R312). -/
def execQuantQ8F32 (d : BitVec 7) (w : BitVec 1) (a b : BitVec 8) (s : State) : Out :=
  .next (s.bin32 d w a b fun x y => BitVec.ofNat 32 (quantise (xf x) (f16.decode (half y 0)) (fldN y 16 8) 8))

/-- `quant.rn.q4.f32` (R312). -/
def execQuantQ4F32 (d : BitVec 7) (w : BitVec 1) (a b : BitVec 8) (s : State) : Out :=
  .next (s.bin32 d w a b fun x y => BitVec.ofNat 32 (quantise (xf x) (f16.decode (half y 0)) (fldN y 16 4) 4))

/-- `dequant.f32.q8` (R312). -/
def execDequantF32Q8 (d : BitVec 7) (w : BitVec 1) (a b : BitVec 8) (s : State) : Out :=
  .next (s.bin32 d w a b fun x y => dequantise (fldN x 0 8) (f16.decode (half y 0)) (fldN y 16 8))

/-- `dequant.f32.q4` (R312). -/
def execDequantF32Q4 (d : BitVec 7) (w : BitVec 1) (a b : BitVec 8) (s : State) : Out :=
  .next (s.bin32 d w a b fun x y => dequantise (fldN x 0 4) (f16.decode (half y 0)) (fldN y 16 4))

/-- `pack.b16` (R313). -/
def execPackB16 (d : BitVec 7) (w : BitVec 1) (a b : BitVec 8) (s : State) : Out :=
  .next (s.bin32 d w a b fun x y => fld y 0 16 ++ fld x 0 16)

/-- `pack.b8`: one byte of D (R313). -/
def execPackB8 (d : BitVec 7) (w : BitVec 1) (a : BitVec 8) (p : BitVec 2) (s : State) : Out :=
  .next (s.vec32 d.toNat w fun g i l => putField (l.reg d.toNat) (src32 g i l a) (8 * p.toNat) 8)

/-- `pack.b4`: one nibble of D (R313). -/
def execPackB4 (d : BitVec 7) (w : BitVec 1) (a : BitVec 8) (p : BitVec 3) (s : State) : Out :=
  .next (s.vec32 d.toNat w fun g i l => putField (l.reg d.toNat) (src32 g i l a) (4 * p.toNat) 4)

/-- `unpack.b16` (R313). -/
def execUnpackB16 (d : BitVec 7) (w : BitVec 1) (a : BitVec 8) (p : BitVec 1) (s : State) : Out :=
  .next (s.un32 d w a fun x => getField x (16 * p.toNat) 16)

/-- `unpack.b8` (R313). -/
def execUnpackB8 (d : BitVec 7) (w : BitVec 1) (a : BitVec 8) (p : BitVec 2) (s : State) : Out :=
  .next (s.un32 d w a fun x => getField x (8 * p.toNat) 8)

/-- `unpack.b4` (R313). -/
def execUnpackB4 (d : BitVec 7) (w : BitVec 1) (a : BitVec 8) (p : BitVec 3) (s : State) : Out :=
  .next (s.un32 d w a fun x => getField x (4 * p.toNat) 4)

end Sys2Proof.Machine
end

