-- ==== Sys2Proof/Machine/Epilogue.lean ====
section
/-! DEFINITION. The epilogue unit of the matrix engine: the instructions of an epilogue program (R320) and its run
on one row of an accumulator tile (R381, R382). -/

namespace Sys2Proof.Machine

/-- The meaning of an instruction of an epilogue: those of R320; no other stands in one (ST-038). -/
def epilogueInstr (i : Instr) (s : State) : Out :=
  match i with
  | .addB32 d w a b => execAddB32 d w a b s
  | .addB32Imm d w a i => execAddB32Imm d w a i s
  | .subB32 d w a b => execSubB32 d w a b s
  | .subB32Imm d w a i => execSubB32Imm d w a i s
  | .addSatI32 d w a b => execAddSatI32 d w a b s
  | .addSatN32 d w a b => execAddSatN32 d w a b s
  | .subSatI32 d w a b => execSubSatI32 d w a b s
  | .subSatN32 d w a b => execSubSatN32 d w a b s
  | .mulLoB32 d w a b => execMulLoB32 d w a b s
  | .mulHiI32 d w a b => execMulHiI32 d w a b s
  | .mulHiN32 d w a b => execMulHiN32 d w a b s
  | .mulWideI32 d w a b => execMulWideI32 d w a b s
  | .mulWideN32 d w a b => execMulWideN32 d w a b s
  | .divI32 d w a b => execDivI32 d w a b s
  | .divN32 d w a b => execDivN32 d w a b s
  | .remI32 d w a b => execRemI32 d w a b s
  | .remN32 d w a b => execRemN32 d w a b s
  | .minI32 d w a b => execMinI32 d w a b s
  | .maxI32 d w a b => execMaxI32 d w a b s
  | .minN32 d w a b => execMinN32 d w a b s
  | .maxN32 d w a b => execMaxN32 d w a b s
  | .shlB32 d w a b => execShlB32 d w a b s
  | .shrN32 d w a b => execShrN32 d w a b s
  | .shrI32 d w a b => execShrI32 d w a b s
  | .rotlB32 d w a b => execRotlB32 d w a b s
  | .rotrB32 d w a b => execRotrB32 d w a b s
  | .shlB32Imm d w a n => execShlB32Imm d w a n s
  | .shrN32Imm d w a n => execShrN32Imm d w a n s
  | .shrI32Imm d w a n => execShrI32Imm d w a n s
  | .rotlB32Imm d w a n => execRotlB32Imm d w a n s
  | .rotrB32Imm d w a n => execRotrB32Imm d w a n s
  | .popcB32 d w a => execPopcB32 d w a s
  | .clzB32 d w a => execClzB32 d w a s
  | .ctzB32 d w a => execCtzB32 d w a s
  | .brevB32 d w a => execBrevB32 d w a s
  | .bfxN32 d w a pos len => execBfxN32 d w a pos len s
  | .bfxI32 d w a pos len => execBfxI32 d w a pos len s
  | .bfiB32 d w a b pos len => execBfiB32 d w a b pos len s
  | .ternB32 d w a b c tbl => execTernB32 d w a b c tbl s
  | .andB32 d w a b => execAndB32 d w a b s
  | .orB32 d w a b => execOrB32 d w a b s
  | .xorB32 d w a b => execXorB32 d w a b s
  | .notB32 d w a => execNotB32 d w a s
  | .andB32Imm d w a i => execAndB32Imm d w a i s
  | .orB32Imm d w a i => execOrB32Imm d w a i s
  | .xorB32Imm d w a i => execXorB32Imm d w a i s
  | .movB32 d w a => execMovB32 d w a s
  | .movB32Imm d w t imm => execMovB32Imm d w t imm s
  | .selB32 d w a b p => execSelB32 d w a b p s
  | .setpEqB32 p a b => execSetpEqB32 p a b s
  | .setpNeB32 p a b => execSetpNeB32 p a b s
  | .setpLtI32 p a b => execSetpLtI32 p a b s
  | .setpLeI32 p a b => execSetpLeI32 p a b s
  | .setpGtI32 p a b => execSetpGtI32 p a b s
  | .setpGeI32 p a b => execSetpGeI32 p a b s
  | .setpLtN32 p a b => execSetpLtN32 p a b s
  | .setpLeN32 p a b => execSetpLeN32 p a b s
  | .setpGtN32 p a b => execSetpGtN32 p a b s
  | .setpGeN32 p a b => execSetpGeN32 p a b s
  | .setpEqB32Imm p a i => execSetpEqB32Imm p a i s
  | .setpNeB32Imm p a i => execSetpNeB32Imm p a i s
  | .setpLtI32Imm p a i => execSetpLtI32Imm p a i s
  | .setpLeI32Imm p a i => execSetpLeI32Imm p a i s
  | .setpGtI32Imm p a i => execSetpGtI32Imm p a i s
  | .setpGeI32Imm p a i => execSetpGeI32Imm p a i s
  | .andPred p a b => execAndPred p a b s
  | .orPred p a b => execOrPred p a b s
  | .xorPred p a b => execXorPred p a b s
  | .notPred p a => execNotPred p a s
  | .addF32 r d w a b => execAddF32 r d w a b s
  | .subF32 r d w a b => execSubF32 r d w a b s
  | .mulF32 r d w a b => execMulF32 r d w a b s
  | .fmaF32 r d w a b => execFmaF32 r d w a b s
  | .addF16x2 r d w a b => execAddF16x2 r d w a b s
  | .mulF16x2 r d w a b => execMulF16x2 r d w a b s
  | .fmaF16x2 r d w a b => execFmaF16x2 r d w a b s
  | .addBf16x2 r d w a b => execAddBf16x2 r d w a b s
  | .mulBf16x2 r d w a b => execMulBf16x2 r d w a b s
  | .fmaBf16x2 r d w a b => execFmaBf16x2 r d w a b s
  | .minF32 d w a b => execMinF32 d w a b s
  | .maxF32 d w a b => execMaxF32 d w a b s
  | .absF32 d w a => execAbsF32 d w a s
  | .negF32 d w a => execNegF32 d w a s
  | .rcpApproxF32 d w a => execRcpApproxF32 d w a s
  | .rsqrtApproxF32 d w a => execRsqrtApproxF32 d w a s
  | .sqrtApproxF32 d w a => execSqrtApproxF32 d w a s
  | .exp2ApproxF32 d w a => execExp2ApproxF32 d w a s
  | .log2ApproxF32 d w a => execLog2ApproxF32 d w a s
  | .sinApproxF32 d w a => execSinApproxF32 d w a s
  | .cosApproxF32 d w a => execCosApproxF32 d w a s
  | .tanhApproxF32 d w a => execTanhApproxF32 d w a s
  | .sqrtF32 r d w a => execSqrtF32 r d w a s
  | .setpEqF32 p a b => execSetpEqF32 p a b s
  | .setpNeF32 p a b => execSetpNeF32 p a b s
  | .setpLtF32 p a b => execSetpLtF32 p a b s
  | .setpLeF32 p a b => execSetpLeF32 p a b s
  | .setpGtF32 p a b => execSetpGtF32 p a b s
  | .setpGeF32 p a b => execSetpGeF32 p a b s
  | .setpNanF32 p a b => execSetpNanF32 p a b s
  | .cvtF32I32 r d w a => execCvtF32I32 r d w a s
  | .cvtF32N32 r d w a => execCvtF32N32 r d w a s
  | .cvtI32F32 r d w a => execCvtI32F32 r d w a s
  | .cvtN32F32 r d w a => execCvtN32F32 r d w a s
  | .cvtF16F32 r d w a => execCvtF16F32 r d w a s
  | .cvtBf16F32 r d w a => execCvtBf16F32 r d w a s
  | .cvtF32F16 d w a => execCvtF32F16 d w a s
  | .cvtF32Bf16 d w a => execCvtF32Bf16 d w a s
  | .cvtSatF8aF32 d w a => execCvtSatF8aF32 d w a s
  | .cvtNanF8aF32 d w a => execCvtNanF8aF32 d w a s
  | .cvtSatF8bF32 d w a => execCvtSatF8bF32 d w a s
  | .cvtNanF8bF32 d w a => execCvtNanF8bF32 d w a s
  | .cvtSatF4F32 d w a => execCvtSatF4F32 d w a s
  | .cvtF32F8a d w a => execCvtF32F8a d w a s
  | .cvtF32F8b d w a => execCvtF32F8b d w a s
  | .cvtF32F4 d w a b => execCvtF32F4 d w a b s
  | .cvtSatI8I32 d w a => execCvtSatI8I32 d w a s
  | .cvtI32I8 d w a => execCvtI32I8 d w a s
  | .quantQ8F32 d w a b => execQuantQ8F32 d w a b s
  | .quantQ4F32 d w a b => execQuantQ4F32 d w a b s
  | .dequantF32Q8 d w a b => execDequantF32Q8 d w a b s
  | .dequantF32Q4 d w a b => execDequantF32Q4 d w a b s
  | .packB16 d w a b => execPackB16 d w a b s
  | .packB8 d w a p => execPackB8 d w a p s
  | .packB4 d w a p => execPackB4 d w a p s
  | .unpackB16 d w a p => execUnpackB16 d w a p s
  | .unpackB8 d w a p => execUnpackB8 d w a p s
  | .unpackB4 d w a p => execUnpackB4 d w a p s
  | _ => .next s

/-- The number of the group that stands for the epilogue unit while it runs. -/
def epilogueGid (s : State) : Nat := s.sched.nextGid

/-- The lanes of a row, one for each column: the epilogue image (R381). -/
def epilogueLanes (row : Nat) (elems : List Word) (param : Option (BitVec 16384)) : List Lane :=
  (List.range 32).map fun j =>
    let l := ((Lane.zero.setReg 0 ((elems[j]?).getD 0)).setReg 1 (BitVec.ofNat 32 row)).setReg 2 (BitVec.ofNat 32 j)
    match param with
    | none => l
    | some d => (List.range 16).foldl (fun (l : Lane) r => l.setReg (3 + r) (d.extractLsb' (8 * (128 * r + 4 * j)) 32)) l

/-- The instructions of a clause in order, at most `fuel`. -/
noncomputable def epilogueWords (cls : Nat) (s : State) : Nat → List Word → State
  | 0, _ => s
  | _ + 1, [] => s
  | n + 1, w :: ws =>
    match decode cls (w :: ws) with
    | .error _ => s
    | .ok (i, rest) =>
      match epilogueInstr i s with
      | .next s => epilogueWords cls s n rest
      | .fault _ => s
      | .refused _ => s

/-- One clause: the guard is taken and the latches are cleared (R183, R191). -/
noncomputable def epilogueClause (gid : Nat) (s : State) (c : Word × List Word) : State :=
  let s := s.updGroup gid fun g => { g with lanes := g.lanes.map fun l =>
    { l with guard := hdrGuard c.1 l, lat := Vector.replicate 4 0 } }
  epilogueWords (hdrClass c.1) s c.2.length c.2

/-- One row: the epilogue's clauses on 32 lanes, and `v0` of each. -/
noncomputable def State.epilogueRow (s : State) (clauses : List (Word × List Word)) (param : Option (BitVec 16384))
    (row : Nat) (elems : List Word) : List Word :=
  let gid := epilogueGid s
  let g : Group := { Group.placed gid with width := 32, lanes := epilogueLanes row elems param }
  let p : Pick := { core := 0, slot := 0, port := 0, hdr := 0, cls := 0, words := [], pos := 0, yields := false,
                    members := [(gid, BitVec.ofNat 64 (2 ^ 32 - 1))], wrote := [] }
  let t : State := { s with groups := [g], cur := some p, ports := [] }
  match (clauses.foldl (epilogueClause gid) t).group? gid with
  | some g => g.lanes.map fun l => l.reg 0
  | none => elems

end Sys2Proof.Machine
end

