-- ==== Sys2Proof/Machine/Coherence.lean ====
section
/-! DEFINITION. The chain protocol at the home and at the caching slices (R97 to R104), the host as a sharer
(R105 to R107), the halves of host-window lines (R108, R109), and host accesses through BAR 2 (R473). -/

namespace Sys2Proof.Machine

/-- A message carries its sender's current incarnation; another is discarded (R120). -/
def State.incOk (s : State) (node : Nat) (inc : BitVec 8) : Bool := alookup s.plat.incs node 0 == inc

/-- A declaration of the agent is in progress: chain requests that name it are held (R118). -/
def State.declaring (s : State) (agent : Nat) : Bool := s.plat.declarations.any fun d => d.agent == agent

/-- A chain request that names an agent whose declaration is in progress. -/
def State.holds (s : State) (src : ChainPtr) (k : HeldKind) : Bool :=
  let named := fun (p : ChainPtr) => ptrKind p != 0 && s.declaring (ptrNode p)
  named src || (match k with
    | .read _ => false
    | .own _ => false
    | .unhead p => named p
    | .setfwd p => named p
    | .setback p => named p)

/-- Holds a chain request until RESUME (R118). -/
def State.hold (s : State) (h : Held) : State := { s with plat := { s.plat with held := s.plat.held ++ [h] } }

/-- Changes the home's tag of a line, for a message whose sender is current. -/
def State.withTag (s : State) (line : Nat) (src : ChainPtr) (inc : BitVec 8) (f : State → HomeTag → State) : State :=
  if !s.incOk (ptrNode src) inc then s
  else match s.tag? line with
    | some t => f s t
    | none => s

def State.atHome (s : State) (line : Nat) (src : ChainPtr) (inc : BitVec 8) (f : State → HomeTag → State) : Out :=
  .next (s.withTag line src inc f)

/-! ### Chain requests at the home (R98, R99) -/

/-- A READ or OWN arrives at the home of its line; the carve-out's lines are refused (R27). -/
def State.chainRequest (s : State) (line : Nat) (src : ChainPtr) (inc : BitVec 8) (mig own : Bool) : State :=
  if !s.incOk (ptrNode src) inc then s
  else if fldN s.regs.domCtrl 1 1 = 0 ∨ s.inCarve (128 * line) then s.send (.nack line (ptrNode src) none)
  else
    let w := if own then Waiter.own src else .read src
    let k := if own then HeldKind.own mig else .read mig
    if s.holds src k then s.hold ⟨line, src, inc, k⟩
    else
      let s := if mig then s.countMig line (ptrNode src) else s
      match s.forwardOf line with
      | some (node, dst) => if node = 0x1000 then s.arrive dst w false 0 else s.send (.forward dst node src own)
      | none => s.arrive line w false 0

def execRead (line : Nat) (src : BitVec 37) (inc : BitVec 8) (mig : Bool) (s : State) : Out :=
  .next (s.chainRequest line src inc mig false)

def execOwn (line : Nat) (src : BitVec 37) (inc : BitVec 8) (mig : Bool) (s : State) : Out :=
  .next (s.chainRequest line src inc mig true)

/-- UNHEAD(F): the head leaves the chain; any other entry is not the head. -/
def State.unheadAt (s : State) (line : Nat) (src : ChainPtr) (inc : BitVec 8) (fwd : ChainPtr) : State :=
  if s.incOk (ptrNode src) inc && s.holds src (.unhead fwd) then s.hold ⟨line, src, inc, .unhead fwd⟩
  else s.withTag line src inc fun s t =>
    if t.hst ≠ hstSH then s
    else if t.head = src then
      (s.updTag line fun t => { t with head := fwd, hst := if fwd = nullPtr then hstU else hstSH }).fromHome line src .ack
    else s.fromHome line src .notHead

def execUnhead (line : Nat) (src : BitVec 37) (inc : BitVec 8) (fwd : BitVec 37) (s : State) : Out :=
  .next (s.unheadAt line src inc fwd)

/-- DONE: the writer has purged the chain and holds the line exclusively. -/
def execDone (line : Nat) (src : BitVec 37) (inc : BitVec 8) (s : State) : Out :=
  s.atHome line src inc fun s t =>
    if t.hst = hstPG ∧ t.homeWalk = false ∧ ptrNode t.head = ptrNode src then
      (s.updTag line fun t => { t with hst := hstEX, head := src }).pumpAll line
    else s

/-- The exclusive holder's data reach the home, with their poison (R121); a page that is sealed refuses them (R52). -/
def State.holderData (s : State) (line : Nat) (dirty poison : Bool) (d : LineData) : State :=
  if !dirty then (if poison then s.setPoison line true else s)
  else if s.refuses line then s.log (.refusedWrite line)
  else (s.writeHome line (BitVec.allOnes 128) d).setPoison line poison

/-- The exclusive holder has given the line up. -/
def State.holderGone (s : State) (line : Nat) : State :=
  (s.updTag line fun t => { t with hst := hstU, head := nullPtr }).pumpAll line

def execWb (line : Nat) (src : BitVec 37) (inc : BitVec 8) (dirty : Bool) (data : HeldData) (s : State) : Out :=
  s.atHome line src inc fun s t =>
    if (t.hst = hstEX ∨ t.hst = hstRC) ∧ ptrNode t.head = ptrNode src then (s.holderData line dirty data.poison data.bits).holderGone line
    else s

/-- A copy of a PURGE answer gives the walk's position (R98). -/
def execPurgeAnswerCopy (line : Nat) (src : BitVec 37) (inc : BitVec 8) (next : BitVec 37) (s : State) : Out :=
  s.atHome line src inc fun s t =>
    if t.hst = hstPG then s.updTag line fun t => { t with walkPos := next } else s

def execFetchAnswer (line : Nat) (src : BitVec 37) (inc : BitVec 8) (dirty : Bool) (data : HeldData) (s : State) : Out :=
  s.atHome line src inc fun s t =>
    if t.hst = hstRC ∧ ptrNode t.head = ptrNode src then
      ((s.holderData line dirty data.poison data.bits).updTag line fun t => { t with hst := hstSH }).pumpAll line
    else s

def execRecallAnswer (line : Nat) (src : BitVec 37) (inc : BitVec 8) (dirty : Bool) (data : HeldData) (s : State) : Out :=
  s.atHome line src inc fun s t =>
    if t.hst = hstRC ∧ ptrNode t.head = ptrNode src then (s.holderData line dirty data.poison data.bits).holderGone line else s

/-! ### Caching entries (R101 to R103): `line` carries the home's node above it -/

/-- An entry becomes I: it leaves, or asks anew for what waits in it. -/
def State.cacheInvalid (s : State) (key : Nat) : State :=
  match s.cacheTag? key with
  | none => s
  | some c =>
    if c.queue.isEmpty then s.dropTag key
    else (s.updCache key fun c => { c with cst := cstI, fwd := nullPtr, back := nullPtr, acks := 0, wantOwn := false,
                                           heldPurge := none }).pumpCacheAll key

/-- An entry answers a PURGE with its forward neighbour, to the walker and in copy to the home. -/
def State.answerPurge (s : State) (key : Nat) (walker fwd : ChainPtr) : State :=
  (s.toEntry key walker (.purgeAnswer fwd)).toHome key (.purgeCopy fwd)

/-- Serves the reads at the head of an entry's queue with the bytes that have come (R101). -/
def State.deliverReads (s : State) (key : Nat) : Nat → State
  | 0 => s
  | n + 1 =>
    match s.cacheTag? key with
    | none => s
    | some c =>
      match c.queue with
      | [] => s
      | w :: rest =>
        if (s.needOf w).write then s
        else ((s.updCache key fun c => { c with queue := rest }).performCache c w).deliverReads key n

/-- Changes a caching entry for a message whose sender is current; STALE when there is none to change. -/
def State.withCache (s : State) (key node : Nat) (src : ChainPtr) (inc : BitVec 8) (f : State → CacheTag → State) : State :=
  if !s.incOk node inc then s
  else match s.cacheTag? key with
    | some c => if c.cst = cstI then s.toEntry key src .stale else f s c
    | none => s.toEntry key src .stale

def State.atCache (s : State) (key node : Nat) (src : ChainPtr) (inc : BitVec 8) (f : State → CacheTag → State) : Out :=
  .next (s.withCache key node src inc f)

def execFetch (line : Nat) (inc : BitVec 8) (s : State) : Out :=
  s.atCache line (homeNode line) (homePtr line) inc fun s c =>
    if (c.cst = cstE ∨ c.cst = cstM) ∧ s.running line then s.updCache line fun c => { c with asked := some false }
    else if c.cst = cstE ∨ c.cst = cstM then
      ((s.toHome line (.fetchAnswer (c.cst == cstM) c.poison c.data)).updCache line fun c =>
        { c with cst := cstS, fwd := nullPtr, back := homePtr line }).pumpCacheAll line
    else s

def execRecall (line : Nat) (inc : BitVec 8) (s : State) : Out :=
  s.atCache line (homeNode line) (homePtr line) inc fun s c =>
    if (c.cst = cstE ∨ c.cst = cstM) ∧ s.running line then s.updCache line fun c => { c with asked := some true }
    else if c.cst = cstE ∨ c.cst = cstM then
      (s.toHome line (.recallAnswer (c.cst == cstM) c.poison c.data)).cacheInvalid line
    else s

def execData (line : Nat) (inc : BitVec 8) (oldHead : BitVec 37) (uncached poison : Bool) (data : BitVec 1024) (s : State) :
    Out :=
  s.atCache line (homeNode line) (homePtr line) inc fun s c =>
    if c.cst ≠ cstRPEND then s
    else
      let s := (s.updCache line fun c => { c with data := data, poison := poison, backoff := 0 }).deliverReads line (c.queue.length + 1)
      if uncached then s.cacheInvalid line
      else if oldHead = nullPtr then
        (s.updCache line fun c => { c with fwd := nullPtr, back := homePtr line, cst := cstS }).pumpCacheAll line
      else
        (s.updCache line fun c => { c with fwd := oldHead, back := homePtr line, cst := cstRATT }).toEntry line oldHead
          (.setback (s.selfPtr line))

def execGrant (line : Nat) (inc : BitVec 8) (oldHead : BitVec 37) (walkOwn poison : Bool) (data : BitVec 1024) (s : State) :
    Out :=
  s.atCache line (homeNode line) (homePtr line) inc fun s c =>
    if c.cst ≠ cstWPEND then s
    else
      let next := if walkOwn then c.fwd else oldHead
      let s := s.updCache line fun c =>
        { c with data := data, poison := poison, fwd := nullPtr, back := homePtr line, backoff := 0 }
      if next = nullPtr then
        let s := if walkOwn then s.toHome line .done else s
        (s.updCache line fun c => { c with cst := cstE }).pumpCacheAll line
      else (s.updCache line fun c => { c with cst := cstWALK, target := next }).toEntry line next .purge

/-- PURGE: an entry gives up its copy and names the next (R103). -/
def execPurge (line : Nat) (inc : BitVec 8) (walker : BitVec 37) (s : State) : Out :=
  s.atCache line (ptrNode walker) walker inc fun s c =>
    if c.cst = cstS ∨ c.cst = cstUNLINK then (s.answerPurge line walker c.fwd).cacheInvalid line
    else if c.cst = cstRATT then s.updCache line fun c => { c with heldPurge := some walker }
    else if c.cst = cstWPEND then (s.answerPurge line walker c.fwd).updCache line fun c => { c with fwd := nullPtr }
    else s

/-- The walk of an orphaned entry goes on, or is over; after the last the scan is done (R118, R119). -/
def State.orphanOn (s : State) (o : Orphan) (next : ChainPtr) : State :=
  let set := fun (l : List Orphan) => { s with plat := { s.plat with orphans := l } }
  if next = nullPtr then
    let left := s.plat.orphans.filter fun x => x.key != o.key
    if left.any fun x => x.agent == o.agent then set left else (set left).send (.scanDone o.agent)
  else
    (set (s.plat.orphans.map fun x => if x.key = o.key then { x with target := next } else x)).toEntry o.key next .purge

/-- A step of a walk: the next entry is purged, or the walk is over (R98, R101). -/
def State.walkOn (s : State) (key : Nat) (next : ChainPtr) : State :=
  match keyNode key with
  | none =>
    match s.tag? key with
    | none => s
    | some t =>
      if t.hst ≠ hstPG ∨ t.homeWalk = false then s
      else if next = nullPtr then
        (s.updTag key fun t => { t with hst := hstU, head := nullPtr, homeWalk := false, walkPos := nullPtr }).pumpAll key
      else (s.updTag key fun t => { t with walkPos := next }).fromHome key next .purge
  | some _ =>
    match s.plat.orphans.find? fun o => o.key == key with
    | some o => s.orphanOn o next
    | none =>
    match s.cacheTag? key with
    | none => s
    | some c =>
      if c.cst ≠ cstWALK then s
      else if next = nullPtr then
        ((s.toHome key .done).updCache key fun c => { c with cst := cstE }).pumpCacheAll key
      else (s.updCache key fun c => { c with target := next }).toEntry key next .purge

def execPurgeAnswer (line : Nat) (src : BitVec 37) (inc : BitVec 8) (next : BitVec 37) (s : State) : Out :=
  .next (if s.incOk (ptrNode src) inc then s.walkOn line next else s)

/-- An entry in UNLINK accepts a neighbour's request when its own node is the higher (R102). -/
def State.yields (s : State) (src : ChainPtr) : Bool := decide (ptrNode src < s.thisNode)

/-- SETFWD comes from an unlinking forward neighbour. -/
def State.setfwdAt (s : State) (line : Nat) (src : ChainPtr) (inc : BitVec 8) (p : ChainPtr) : State :=
  if s.incOk (ptrNode src) inc && s.holds src (.setfwd p) then s.hold ⟨line, src, inc, .setfwd p⟩
  else s.withCache line (ptrNode src) src inc fun s c =>
    if c.cst = cstUNLINK then
      if !s.yields src then s.toEntry line src .retry
      else
        let s := (s.updCache line fun c => { c with fwd := p }).toEntry line src .ack
        if p = nullPtr then
          let s := s.updCache line fun c => { c with acks := c.acks - 1 }
          if c.acks = 1 then s.cacheInvalid line else s
        else s.toEntry line p (.setback c.back)
    else if c.cst = cstS ∨ c.cst = cstWPEND ∨ c.cst = cstRATT then
      (s.updCache line fun c => { c with fwd := p }).toEntry line src .ack
    else s.toEntry line src .stale

def execSetfwd (line : Nat) (src : BitVec 37) (inc : BitVec 8) (p : BitVec 37) (s : State) : Out :=
  .next (s.setfwdAt line src inc p)

/-- SETBACK comes from a new head, which names itself, or from an unlinking back neighbour. -/
def State.setbackAt (s : State) (line : Nat) (src : ChainPtr) (inc : BitVec 8) (p : ChainPtr) : State :=
  if s.incOk (ptrNode src) inc && s.holds src (.setback p) then s.hold ⟨line, src, inc, .setback p⟩
  else s.withCache line (ptrNode src) src inc fun s c =>
    if c.cst = cstUNLINK then
      if p ≠ src ∧ s.yields src = false then s.toEntry line src .retry
      else
        let s := (s.updCache line fun c => { c with back := p }).toEntry line src .ack
        if ptrKind p = 2 then s.toHome line (.unhead c.fwd) else s.toEntry line p (.setfwd c.fwd)
    else if c.cst = cstS ∨ c.cst = cstWPEND then
      ((s.updCache line fun c => { c with back := p }).toEntry line src .ack).pumpCacheAll line
    else s.toEntry line src .stale

def execSetback (line : Nat) (src : BitVec 37) (inc : BitVec 8) (p : BitVec 37) (s : State) : Out :=
  .next (s.setbackAt line src inc p)

/-- The answer that an entry's own request has succeeded, or that the neighbour is gone. -/
def State.unlinked (s : State) (key : Nat) (c : CacheTag) (gone : Bool) : State :=
  if c.cst = cstRATT then
    let fwd := if gone then nullPtr else c.fwd
    match c.heldPurge with
    | some walker => (s.answerPurge key walker fwd).cacheInvalid key
    | none => (s.updCache key fun c => { c with cst := cstS, fwd := fwd }).pumpCacheAll key
  else if c.cst = cstUNLINK then
    if c.acks ≤ 1 then s.cacheInvalid key else s.updCache key fun c => { c with acks := c.acks - 1 }
  else s

def execAck (line : Nat) (src : BitVec 37) (inc : BitVec 8) (s : State) : Out :=
  .next (if !s.incOk (ptrNode src) inc then s
    else match s.cacheTag? line with
      | some c => s.unlinked line c false
      | none => s)

/-- NOT_HEAD: the entry waits for the SETBACK of the new head, and then asks there (R101). -/
def execNotHead (line : Nat) (inc : BitVec 8) (s : State) : Out := s.atCache line (homeNode line) (homePtr line) inc fun s _ => s

/-- STALE: the addressed neighbour is gone (R97). -/
def execStale (line : Nat) (src : BitVec 37) (inc : BitVec 8) (s : State) : Out :=
  .next (if !s.incOk (ptrNode src) inc then s
    else match s.cacheTag? line with
      | some c => if c.cst = cstWALK || (s.plat.orphans.any fun o => o.key == line) then s.walkOn line nullPtr
                  else s.unlinked line c true
      | none => s.walkOn line nullPtr)

/-- RETRY: of the home, the request is sent again after a wait that doubles; of a neighbour, its own request comes
first (R99, R102). -/
def execRetry (line : Nat) (src : BitVec 37) (inc : BitVec 8) (s : State) : Out :=
  s.atCache line (ptrNode src) src inc fun s c =>
    if c.cst = cstRPEND ∨ c.cst = cstWPEND then
      s.updCache line fun c => { c with backoff := if c.backoff = 0 then 64 else min 8192 (2 * c.backoff) }
    else s

/-- The MIG bit of the request that a caching entry serves next. -/
def State.headMig (s : State) (c : CacheTag) : Bool :=
  match c.queue with
  | w :: _ => s.migOf w
  | [] => false

def execRetryResend (line : Nat) (s : State) : Out :=
  .next (match s.cacheTag? line with
    | none => s
    | some c =>
      if c.backoff = 0 then s
      else if c.cst = cstRPEND then s.toHome line (.read (s.headMig c))
      else if c.cst = cstWPEND then s.toHome line (.own (s.headMig c))
      else s)

/-! ### The host (R105 to R107) -/

/-- The page of a host request counts it, when the request brings MIG = 1 (R110, log 116). -/
def State.countHost (s : State) (line : Nat) (mig : Bool) : State := if mig then s.countMig line 0x1000 else s

/-- A host request arrives at the home; one that names host-window or unmapped addresses does not reach it. -/
def State.hostRequest (s : State) (line half kind : Nat) (mig : Bool) (x : BitVec 512) : Out :=
  .next (if isHbmLine line && decide (half < 2) then (s.countHost line mig).arrive line (.host kind half x) false 0 else s)

def execHostReadShared (line : Nat) (half : HostHalf) (s : State) : Out := s.hostRequest line half.half 0 half.mig 0
def execHostReadExclusive (line : Nat) (half : HostHalf) (s : State) : Out := s.hostRequest line half.half 1 half.mig 0
def execHostWriteHalf (line : Nat) (half : HostHalf) (data : BitVec 512) (s : State) : Out := s.hostRequest line half.half 2 half.mig data
def execHostReadNoCopy (line : Nat) (half : HostHalf) (s : State) : Out := s.hostRequest line half.half 3 half.mig 0

/-- A write-back or eviction notice takes effect at once, also on a line whose other requests wait for it; only a
chain operation in progress, or the line's having moved, holds it back (R98, R105, R114). -/
def State.hostRelease (s : State) (line half kind : Nat) (mig : Bool) (x : BitVec 512) : Out :=
  let busy := (s.forwardOf line).isSome || (match s.tag? line with
    | some t => t.hst == hstPG || t.hst == hstRC
    | none => false)
  if busy then s.hostRequest line half kind mig x
  else .next (if isHbmLine line && decide (half < 2) then (s.countHost line mig).performHost line kind half x else s)

def execHostWriteback (line : Nat) (half : HostHalf) (data : BitVec 512) (s : State) : Out := s.hostRelease line half.half 4 half.mig data
def execHostEvictNotice (line half : Nat) (s : State) : Out := s.hostRelease line half 5 false 0

/-- The host answers a snoop: its modified bytes, if any, are taken first (R106). A half that a crossing write-back has
made I stays so, and the snoop is answered all the same. -/
def State.snoopAnswered (s : State) (line half : Nat) (dirty : Bool) (x : BitVec 512) (after : BitVec 2) : State :=
  match s.tag? line with
  | none => s
  | some t =>
    if t.pending &&& (1#2 <<< half) = 0#2 ∨ isHbmLine line = false then s
    else
      let gone := t.hostHalf half == 0#2
      let s := if gone || !dirty then s
        else if s.refusesWrite line then s.log (.refusedWrite line)
        else s.writeHome line (halfMask half) (fullHalf x half)
      (s.updTag line fun t =>
        { t.setHostHalf half (if gone then 0 else after) with pending := t.pending &&& ~~~(1#2 <<< half) }).pumpAll line

def execBisnpinvResponse (line half : Nat) (dirty : Bool) (data : BitVec 512) (s : State) : Out :=
  .next (s.snoopAnswered line half dirty data 0)
def execBisnpdataResponse (line half : Nat) (dirty : Bool) (data : BitVec 512) (s : State) : Out :=
  .next (s.snoopAnswered line half dirty data 1)

/-! ### Halves of host-window lines (R108, R109) -/

/-- Data or ownership of a half comes from the host. -/
def State.halfCame (s : State) (line half : Nat) (own : Bool) (x : BitVec 512) : State :=
  match s.tag? line with
  | none => s
  | some t =>
    if t.pending &&& (1#2 <<< half) = 0#2 ∨ isHostLine line = false then s
    else
      let fill := t.bridgeHalf half == 0#2
      let s := if fill then { s with mem := writeMasked s.mem line (halfMask half) (fullHalf x half) 128 } else s
      let st := if own then 2#2 else if fill then 1#2 else t.bridgeHalf half
      (s.updTag line fun t => { t.setBridgeHalf half st with pending := t.pending &&& ~~~(1#2 <<< half) }).pumpAll line

def execRdsharedData (line half : Nat) (data : BitVec 512) (s : State) : Out := .next (s.halfCame line half false data)
def execRdownGrant (line half : Nat) (data : BitVec 512) (s : State) : Out := .next (s.halfCame line half true data)

/-- A host snoop on a half that the device holds. -/
def State.hostSnoop (s : State) (line half kind : Nat) : Out :=
  .next (if isHostLine line && decide (half < 2) && (s.tag? line).isSome then s.arrive line (.host kind half 0) false 0 else s)

def execSnpdata (line half : Nat) (s : State) : Out := s.hostSnoop line half 6
def execSnpinv (line half : Nat) (s : State) : Out := s.hostSnoop line half 7
def execSnpcur (line half : Nat) (s : State) : Out := s.hostSnoop line half 8

/-! ### The device's own reads and writes of HBM, each within one line -/

/-- Bytes of memory may be read now; copies that others hold modified are asked for (R98, R106). -/
def State.devReadable (s : State) (pa n : Nat) : State × Bool :=
  s.homeReady (pa / 128) ⟨false, 1, true, byteMask (pa % 128) n⟩

/-- Writes bytes at their home, when they may be written now; a refused write is logged (R52). -/
def State.devWrite (s : State) (pa n : Nat) (x : BitVec w) : State × Bool :=
  let line := pa / 128
  let mask := byteMask (pa % 128) n
  if s.refusesWrite line then (s.log (.refusedWrite line), true)
  else
    match s.homeReady line ⟨true, 2, true, mask⟩ with
    | (s, false) => (s, false)
    | (s, true) => (s.writeHome line mask ((x.setWidth 1024) <<< (8 * (pa % 128))), true)

/-! ### BAR 2 (R27, R52, R473): 64-byte accesses of HBM at the offset -/

def execBar2Read (off : Nat) (s : State) : Out :=
  .next (if isHbmLine (off / 128) then s.arrive (off / 128) (.host 9 (off / 64 % 2) 0) false 0
    else s.send (.bar2Data (off / 64) (BitVec.allOnes 512)))

def execBar2Write (off : Nat) (data : BitVec 512) (s : State) : Out :=
  .next (if isHbmLine (off / 128) then s.arrive (off / 128) (.host 10 (off / 64 % 2) data) false 0 else s)

end Sys2Proof.Machine
end

