-- ==== Sys2Proof/Machine/Control.lean ====
section
/-! DEFINITION. Class 0: control transfer, reconvergence, the loop, and the checks of bounds and alignment
(R289 to R299, R301). -/

namespace Sys2Proof.Machine

/-- A change of every guard-true lane of the pick, given the pick. -/
def State.transfer (s : State) (f : Pick → Group → Nat → Lane → Lane) : State :=
  match s.cur with
  | none => s
  | some p => s.mapPick fun g i l => if l.guard then f p g i l else l

/-- The clause header at a signed word offset from the pick's own (R187). -/
def Pick.relative (p : Pick) (o : BitVec n) : DWord := p.hdr + (o.signExtend 64) * 4#64

/-- `bra` (R289): `n` is BNEG. -/
def execBra (p : BitVec 3) (n : BitVec 1) (o : BitVec 20) (s : State) : Out :=
  .next (s.transfer fun k _ _ l =>
    if l.pred p.toNat != (n == 1#1) then { l with target := some (k.relative o) } else l)

/-- `jmp t` (R291). -/
def execJmp (a : BitVec 8) (s : State) : Out :=
  .next (s.transfer fun _ g i l => { l with target := some (src64 g i l a) })

/-- `ret t`: the effect of `jmp` (R291). -/
def execRet (a : BitVec 8) (s : State) : Out :=
  .next (s.transfer fun _ g i l => { l with target := some (src64 g i l a) })

/-- `call link, target`: the link pair receives the next clause's address and does not enter the latches
(R290). -/
def execCall (link : BitVec 6) (o : BitVec 17) (s : State) : Out :=
  .next (s.transfer fun k _ _ l =>
    { (l.setPair (2 * link.toNat) k.nextClause) with target := some (k.relative o) })

/-- `call.ind link, t`: the target is read before the link is written (R291). -/
def execCallInd (link : BitVec 6) (a : BitVec 8) (s : State) : Out :=
  .next (s.transfer fun k g i l =>
    { (l.setPair (2 * link.toNat) k.nextClause) with target := some (src64 g i l a) })

/-- `conv`: every lane of the pick waits, whatever its guard, and passes with its latches cleared (R169,
R293). `Group.settleConv` releases them. -/
def execConv (s : State) : Out :=
  .next (s.holdAwaiting.forPick fun s gid m =>
    (s.updGroup gid fun g => g.mapLanes m fun _ l => { l with lat := Vector.replicate 4 0 }).waitLanes gid m 1 .conv)

/-- Lanes of a group end: they stand past their last instruction and leave the pick (R294). -/
def State.exitLanes (s : State) (gid : Nat) (m : BitVec 64) : State :=
  (s.updGroup gid fun g => g.mapLanes m fun _ l =>
    { l with status := .exited, resume := none, target := none, pend := [], acq := [] }).leave gid m

/-- The guard-true lanes of a mask. -/
def Group.guarded (g : Group) (m : BitVec 64) : BitVec 64 := g.maskOf fun i l => m.getLsbD i && l.guard

/-- `exit` ends each lane whose guard is true (R294). -/
def execExit (s : State) : Out :=
  .next (s.holdAwaiting.forPick fun s gid m =>
    match s.group? gid with
    | none => s
    | some g => s.exitLanes gid (g.guarded m))

/-- The pass count: a scalar's low 32 bits, or a constant (R295). -/
def passCount (g : Group) (i : Nat) (l : Lane) (cnt : BitVec 8) : Nat := (src32 g i l cnt).toNat

/-- The passes that a lane makes: none when its guard is false (R295). -/
def Group.passes (g : Group) (cnt : BitVec 8) (i : Nat) (l : Lane) : Nat := if l.guard then passCount g i l cnt else 0

/-- Lanes that make no pass continue at once after the body, whose end its headers give (R295, log 18). -/
def State.skipBody (s : State) (p : Pick) (g : Group) (m : BitVec 64) (ncl : Nat) : State :=
  if m = 0#64 then s
  else
    match s.fetchRun g.core g.guest p.nextClause [] ncl with
    | (s, .error e) => s.fetchFails g.gid m e
    | (s, .ok (_, dest)) =>
      s.updGroup g.gid fun g => g.mapLanes m fun _ l => { l with target := some dest, pass := 0, loop := none }

/-- `loop`: each lane enters the body in pass 0, or continues after it when it makes no pass (R295, R296). -/
def execLoop (ncl : BitVec 4) (cnt : BitVec 8) (incs : List LoopInc) (s : State) : Out :=
  .next (s.forPick fun s gid m =>
    match s.cur, s.group? gid with
    | some p, some g =>
      let s := s.updGroup gid fun g => g.mapLanes m fun i l =>
        { l with target := some p.nextClause, pass := 0,
                 loop := some { start := p.nextClause, ncl := ncl.toNat, idx := 0, count := g.passes cnt i l, incs := incs } }
      s.skipBody p g (g.maskOf fun i l => m.getLsbD i && g.passes cnt i l == 0) ncl.toNat
    | _, _ => s)

/-- The vector registers that a check reads through a field: one, or a pair (R446). -/
def checkRegs (wide : Bool) (a : BitVec 8) : List Nat :=
  if a.toNat < 0x80 then (if wide then [a.toNat, a.toNat + 1] else [a.toNat]) else []

/-- `chkb a, b`: 0 ≤ x < y as 64-bit signed values, or `BOUNDS_CHECK` with x (R298, R301). -/
def execChkb (x : BitVec 1) (a b : BitVec 8) (s : State) : Out :=
  .next (s.trapPick none (fun g i l =>
    let u := srcCheck64 g i l x a
    let v := srcCheck64 g i l x b
    if 0 ≤ u.toInt ∧ u.toInt < v.toInt then none else some (causeOf cBoundsCheck 0, u))
    (checkRegs (x == 1#1) a ++ checkRegs (x == 1#1) b))

/-- `chkaln a, e`: the low `e` bits are 0, or `ALIGN_CHECK` with the operand (R299, R301). -/
def execChkaln (a : BitVec 8) (e : BitVec 3) (s : State) : Out :=
  .next (s.trapPick none (fun g i l =>
    let u := srcAlign64 g i l a
    if u.toNat % 2 ^ e.toNat = 0 then none else some (causeOf cAlignCheck 0, u))
    (checkRegs false a))

end Sys2Proof.Machine
end

