-- ==== Sys2Proof/Machine/Engine.lean ====
section
/-! DEFINITION. Engine operations (R147 to R152, R341 to R348, R482): copy, gather and collective, their range locks,
their lines, their completion, and `eng.wait`. -/

namespace Sys2Proof.Machine

/-! ### Registering (R147, R148) -/

/-- A range-lock entry. -/
def mkRange (dst stash : Bool) (eng core guest opid lines base : Nat) : BitVec 128 :=
  1#1 ++ bit dst ++ bit stash ++ BitVec.ofNat 2 eng ++ BitVec.ofNat 2 core ++ BitVec.ofNat 12 guest ++ 0#1 ++
    BitVec.ofNat 8 opid ++ BitVec.ofNat 24 (lines - 1) ++ 0#21 ++ BitVec.ofNat 55 base

/-- The entries of a run of lines from a byte address: one for each 16,777,216 lines. -/
def rangeRun (dst stash : Bool) (eng core guest opid base lines : Nat) : List (BitVec 128) :=
  (List.range ((lines + 2 ^ 24 - 1) / 2 ^ 24)).map fun k =>
    mkRange dst stash eng core guest opid (min (2 ^ 24) (lines - 2 ^ 24 * k)) (base + 128 * 2 ^ 24 * k)

/-- ENGINE codes of an entry. -/
def EngKind.code : EngKind → Nat
  | .copy => 0
  | .gather => 1
  | .coll => 2
  | .drainMem => 3
  | .drainColl => 3
  | .stream => 3

/-- The entries of a quad's table that register an operation. -/
def Quad.entriesOf (q : Quad) (opid : Nat) : List (BitVec 128) :=
  (q.ranges.filter fun e => rangeValid e.2 && rangeOpid e.2 == opid).map fun e => e.2

/-- Registers entries in free places of the table. -/
def Quad.register (q : Quad) (es : List (BitVec 128)) : Quad :=
  es.foldl (fun q e =>
    { q with ranges := aset q.ranges ((firstFree (q.ranges.map fun r => r.1) 128).getD 0) e }) q

/-- Releases the entries of an operation (R151). -/
def Quad.unregister (q : Quad) (opid : Nat) : Quad :=
  { q with ranges := q.ranges.filter fun e => !(rangeValid e.2 && rangeOpid e.2 == opid) }

/-- A free operation identifier of a quad. -/
def State.freeOpid (s : State) (quad : Nat) : Option Nat :=
  firstFree ((s.engOps.filter fun o => o.quad == quad).map fun o => o.opid) 256

def State.engOp? (s : State) (id : Nat) : Option EngOp := s.engOps.find? fun o => o.id == id
def State.updEng (s : State) (id : Nat) (f : EngOp → EngOp) : State :=
  { s with engOps := s.engOps.map fun o => if o.id = id then f o else o }

/-! ### The engine error word (R348) -/

/-- An operation of the group has completed with an error. -/
def Group.engineError (g : Group) (opid line cause : Nat) : Group :=
  let w := g.engErr
  let count := min 255 (fldN w 0 8 + 1)
  let first := fldN w 8 8 == 0
  let line := if first then min line 0xFFFFFF else fldN w 24 24
  let opid := if first then opid else fldN w 16 8
  let cause := if first then cause else fldN w 8 8
  { g with engErr := 0#16 ++ BitVec.ofNat 24 line ++ BitVec.ofNat 8 opid ++ BitVec.ofNat 8 cause ++ BitVec.ofNat 8 count }

/-- Causes of the word that no translation gives. -/
def engRefused : Nat := 4
def engPoison : Nat := 5
def engNodeDead : Nat := 6
def engIndex : Nat := 7
def engMismatch : Nat := 8
def engShort : Nat := 9
def engInvalid : Nat := 10
def engStream : Nat := 11
def engStash : Nat := 12

/-! ### Issue (R148, R150, R341) -/

/-- An operation with nothing in it. -/
def EngOp.zero : EngOp :=
  { id := 0, kind := .copy, quad := 0, gid := 0, core := 0, guest := 0, opid := 0, scope := 0, ret := 0, dst := 0,
    dstStash := false, src := 0, srcStash := false, lines := 0, next := 0, table := 0, tlen := 0, esize := 0, ctrl := 0,
    rlen := 0, ranks := [], rows := [], total := 0, rowBytes := 128, stride := 128, captured := [], after := [],
    started := false, ready := false, cause := 0, errLine := 0, paused := false }

/-- The stores that the release of an engine operation orders: the group's requests, and the entries of its core's
coalescing buffer that its lanes know (R150). -/
def State.releaseSet (s : State) (g : Group) : List (Nat × Nat) :=
  ((s.reqs.filter fun r => r.gid == g.gid && !r.done).map fun r => (0, r.id)) ++
    ((s.core g.core).cbuf.filter fun e => e.known.any fun k => k.1 == g.gid && k.2.2 != 0#128).map fun e => (1, e.id)

/-- The stores of a release set have performed at their homes. -/
def State.released (s : State) (core : Nat) (after : List (Nat × Nat)) : Bool :=
  after.all fun a =>
    if a.1 = 0 then (match s.req? a.2 with
      | some r => r.done
      | none => !s.buffered core a.2)
    else ((s.core core).entryOf? a.2).isNone

/-- An engine operation is issued: it registers its ranges and counts on c2, waits at issue for an identifier, for
entries or for its counter, or stops at once on a bad operand (R148, R182, R341). -/
def State.issueEngine (s : State) (g : Group) (m : BitVec 64) (n : Nat) (warn : BitVec 4) (bad : Nat) (o : EngOp)
    (ranges : Nat → List (BitVec 128)) : State :=
  let quad := quadOf g.core
  match s.freeOpid quad with
  | none => s.holdLanes g.gid m
  | some opid =>
    let es := if bad = 0 then ranges opid else []
    if 63 ≤ g.c2 ∨ 128 < (s.quad quad).ranges.length + es.length then s.holdLanes g.gid m
    else
      let (s, id) := s.newId
      if bad ≠ 0 then (s.updGroup g.gid fun g => g.engineError opid 0 bad).warnOp g.gid id m n warn
      else
        let o := { o with id := id, opid := opid, quad := quad, gid := g.gid, core := g.core, guest := g.guest,
                          after := s.releaseSet g }
        let s := s.updQuad quad fun q => q.register es
        let s := { s with engOps := s.engOps ++ [o] }
        (s.updGroup g.gid fun g => { g with q2 := g.q2 ++ [id] }).warnOp g.gid id m n warn

/-- A pointer operand with its low bits ignored. -/
def linePtr (x : DWord) : DWord := x &&& ~~~(0x7F#64)

/-- A stash operand that R341 refuses: unaligned, outside the quota, or over a mapped line. -/
def State.badStash (s : State) (g : Group) (off : DWord) (lines : Nat) : Bool :=
  let q := s.quota g
  let first := q.1 + off.toNat / 128
  off.toNat % 128 != 0 || decide (q.2 < off.toNat / 128 + lines) ||
    (s.core g.core).maps.any fun e => mapValid e.2 && overlaps (mapSoff e.2) (mapCount e.2) first lines

/-- The entries of a stash or global range of an operation. -/
def State.rangeOf (s : State) (g : Group) (dst stash : Bool) (k : EngKind) (ptr : DWord) (lines opid : Nat) :
    List (BitVec 128) :=
  if stash then rangeRun dst true k.code (g.core % 4) g.guest opid (128 * (s.quota g).1 + ptr.toNat) lines
  else rangeRun dst false k.code 0 g.guest opid (ptr.toNat % 2 ^ 55) lines

/-- Length of an operation in lines (R341). -/
def engLines (x : XM) : Nat := x.off.toNat + 1

/-- `copy dst, src` (R342). -/
def execCopy (a b : BitVec 8) (x : XM) (s : State) : Out :=
  .next (s.once fun s g i l m =>
    let ds := x.mode.getLsbD 0
    let ss := x.mode.getLsbD 1
    let d := srcUniform g i l a
    let r := srcUniform g i l b
    let d := if ds then d else linePtr d
    let r := if ss then r else linePtr r
    let n := engLines x
    let f := engineFallbacks x.scope x.order
    let bad := if (ds && s.badStash g d n) || (ss && s.badStash g r n) then engStash else 0
    s.issueEngine g m 2 f.2 bad
      { EngOp.zero with kind := .copy, scope := f.1, ret := x.ret, dst := d, dstStash := ds, src := r, srcStash := ss, lines := n }
      fun opid => s.rangeOf g false ss .copy r n opid ++ s.rangeOf g true ds .copy d n opid)

/-- The number of a scalar that an operand field names. -/
def scalarNo (a : BitVec 8) : Nat := a.toNat - 0xC0

/-- Element size of a gather: MODE[1:0] gives 4, 8, 16 or 128 bytes (R343). -/
def gatherSize (m : BitVec 2) : Nat := if m = 0#2 then 4 else if m = 1#2 then 8 else if m = 2#2 then 16 else 128

/-- Lines of the hull of a run of bytes. -/
def hullLines (va n : Nat) : Nat := if n = 0 then 0 else (va + n - 1) / 128 - va / 128 + 1

/-- `gather dst, sj` (R343). -/
def execGather (a b : BitVec 8) (x : XM) (s : State) : Out :=
  .next (s.once fun s g i l m =>
    let ds := x.mode.getLsbD 2
    let z := gatherSize (x.mode.setWidth 2)
    let d := srcUniform g i l a
    let d := if ds then d else linePtr d
    let j := scalarNo b
    let idx := g.scalar i j
    let n := engLines x
    let f := engineFallbacks x.scope x.order
    let bad := if ds && s.badStash g d n then engStash else 0
    s.issueEngine g m 2 f.2 bad
      { EngOp.zero with kind := .gather, scope := f.1, ret := x.ret, dst := d, dstStash := ds, src := idx, lines := n,
                        table := g.scalar i (j + 1) &&& ~~~(BitVec.ofNat 64 (z - 1)), tlen := g.scalar i (j + 2), esize := z }
      fun opid => s.rangeOf g false false .gather (linePtr idx) (hullLines idx.toNat (4 * (128 * n / z))) opid ++
        s.rangeOf g true ds .gather d n opid)

/-! ### Collective sets and control words (R345, R346, R482) -/

def collXval (c : DWord) : Nat := fldN c 48 16
def collSet (c : DWord) : Nat := fldN c 36 12
def collKind (c : DWord) : Nat := fldN c 32 4
def collFmt (c : DWord) : Nat := fldN c 28 4
def collRed (c : DWord) : Nat := fldN c 26 2
def collDbf (c : DWord) : Bool := c.getLsbD 25
def collRoot (c : DWord) : Nat := fldN c 12 13

/-- A rank array, read from memory once at issue. -/
def State.rankArray (s : State) (addr n : Nat) : List (Nat × Nat) :=
  (List.range n).map fun r =>
    let w : Word := readLE s.mem (addr + 4 * r) 32 4
    (fldN w 8 12, fldN w 0 8)

/-- The ranks of a collective set, or none when the set is not valid. -/
def State.collRanks (s : State) (set : Nat) : List (Nat × Nat) :=
  let e : BitVec 128 := readLE s.mem (65536 * fldN s.regs.collBase 16 32 + 16 * set) 128 16
  if e.getLsbD 13 then s.rankArray (fldN e 64 48) (fldN e 0 13 + 1) else []

/-- A line of a set's entry or rank array at whose home the reading must wait (R72). -/
def State.collWaits (s : State) (set : Nat) : Option Nat :=
  let addr := 65536 * fldN s.regs.collBase 16 32 + 16 * set
  let e : BitVec 128 := readLE s.mem addr 128 16
  let first := fldN e 64 48 / 128
  let array := if e.getLsbD 13 then (List.range ((fldN e 64 48 + 4 * fldN e 0 13 + 3) / 128 - first + 1)).map fun k => first + k
    else []
  (addr / 128 :: array).find? fun line => !s.homeFree line false

/-- A control word that R345 calls invalid, or a root that is no rank. -/
def badCollWord (c : DWord) (ranks : Nat) : Bool :=
  decide (3 < collKind c) || decide (8 < collFmt c) || collRed c == 3 || fldN c 0 12 != 0 ||
    (collKind c == 3 && decide (ranks ≤ collRoot c))

/-- Issues a collective with a control word (R345, R346); it waits at issue for the lines that it reads of its set. -/
def State.issueColl (s : State) (g : Group) (m : BitVec 64) (n : Nat) (warn : BitVec 4) (o : EngOp)
    (ranges : Nat → List (BitVec 128)) : State :=
  match s.collWaits (collSet o.ctrl) with
  | some line => ((s.homeReady line (walkNeed false)).1).holdLanes g.gid m
  | none =>
    let ranks := s.collRanks (collSet o.ctrl)
    let me := (s.thisNode, quadOf g.core)
    let bad := if badCollWord o.ctrl ranks.length || !ranks.contains me then engInvalid else 0
    s.issueEngine g m n warn bad { o with ranks := ranks } ranges

/-- `coll recv, sj` (R345). -/
def execColl (a b : BitVec 8) (x : XM) (s : State) : Out :=
  .next (s.once fun s g i _ m =>
    let recv := linePtr (g.scalar i (scalarNo a))
    let send := linePtr (g.scalar i (scalarNo b))
    let rlen := g.scalar i (scalarNo a + 1)
    let n := engLines x
    let f := engineFallbacks x.scope x.order
    s.issueColl g m 2 f.2
      { EngOp.zero with kind := .coll, scope := f.1, ret := x.ret, dst := recv, src := send, lines := n, rlen := rlen,
                        ctrl := g.scalar i (scalarNo b + 1) }
      fun opid => s.rangeOf g false false .coll send n opid ++
        s.rangeOf g true false .coll recv (min (2 ^ 48) ((rlen.toNat + 127) / 128)) opid)

/-! ### ENGINE_START (R150) -/

/-- Two entries conflict: they overlap, and one is a destination. -/
def rangesConflict (e f : BitVec 128) : Bool :=
  rangeStash e == rangeStash f && (if rangeStash e then rangeCore e == rangeCore f else rangeGuest e == rangeGuest f) &&
    (rangeDst e || rangeDst f) && overlaps (rangeBase e / 128) (rangeLines e) (rangeBase f / 128) (rangeLines f)

/-- An earlier operation of the quad holds an entry in the operation's way. -/
def State.engineBlocked (s : State) (o : EngOp) : Bool :=
  let q := s.quad o.quad
  s.engOps.any fun p => p.quad == o.quad && decide (p.id < o.id) &&
    (q.entriesOf p.opid).any fun e => (q.entriesOf o.opid).any fun f => rangesConflict e f

def execEngineStart (op : Nat) (s : State) : Out :=
  .next (match s.engOp? op with
    | none => s
    | some o =>
      if o.started || o.paused || !s.released o.core o.after || s.engineBlocked o then s
      else s.updEng op fun o => { o with started := true })

/-! ### Lines at their homes -/

/-- What an engine gets of a line. -/
inductive Got where
  | data (d : LineData)
  /-- the line must be brought into another state first (log 24) -/
  | wait
  /-- the operation stops with a cause of R348 -/
  | stop (cause : Nat)
  deriving DecidableEq, Repr

/-- What an access of an engine brings to the home: MIG of its leaf, its retention, and the sticky class of its context
(R63, R64, R110). -/
structure EngAttr where
  mig : Bool
  ret : BitVec 2
  cls : Nat
  deriving DecidableEq, Repr

/-- An engine needs a remote `sys` line in its caching slice: true when the slice holds it as the access needs (R92,
R101). -/
def State.cacheReady (s : State) (key : Nat) (write : Bool) (at' : EngAttr) : State × Bool :=
  match s.cacheTag? key with
  | none =>
    match s.allocate key at'.ret at'.cls true with
    | (s, .here) => (s.mapHome fun h => { h with caches := CacheTag.empty key :: h.caches }, false)
    | (s, _) => (s, false)
  | some c =>
    if !c.queue.isEmpty then (s, false)
    else if c.cst = cstE ∨ c.cst = cstM ∨ (c.cst = cstS ∧ write = false) then ((s.allocate key at'.ret at'.cls true).1, true)
    else if c.cst = cstS then
      if ptrKind c.back = 2 then ((s.updCache key fun c => { c with cst := cstWPEND }).toHome key (.own at'.mig), false)
      else (s.startUnlink c true, false)
    else if c.cst = cstI then
      if write then ((s.updCache key fun c => { c with cst := cstWPEND }).toHome key (.own at'.mig), false)
      else ((s.updCache key fun c => { c with cst := cstRPEND }).toHome key (.read at'.mig), false)
    else (s, false)

/-- Reads a line at a home of this module. -/
def State.readHome (s : State) (line : Nat) (at' : EngAttr) : State × Got :=
  match s.homeEngine line ⟨false, 1, true, BitVec.allOnes 128⟩ at'.ret at'.cls with
  | (s, false) => (s, .wait)
  | (s, true) =>
    let s := if at'.mig then s.countMig line s.thisNode else s
    if s.poisoned line || s.unreachable line then (s, .stop engPoison) else (s, .data (readLine s.mem line))

/-- Reads a line of another module, whose answer comes with the event (R92). -/
def State.readRemote (s : State) (key : Nat) (coh : BitVec 2) (at' : EngAttr) (ans : List LineAnswer) :
    State × Got × List LineAnswer :=
  if s.plat.dead.contains (homeNode key) then (s, .stop engNodeDead, ans)
  else if coh = 2#2 then
    match s.cacheReady key false at' with
    | (s, false) => (s, .wait, ans)
    | (s, true) =>
      match s.cacheTag? key with
      | some c => (s, if c.poison then .stop engPoison else .data c.data, ans)
      | none => (s, .wait, ans)
  else
    match ans with
    | [] => (s, .wait, [])
    | (0, d) :: rest => (s, .data d, rest)
    | (1, _) :: rest => (s, .stop engPoison, rest)
    | (_, _) :: rest => (s, .stop cXlatePerm, rest)

/-- An engine reads the line of a virtual address (R38, R89, R122). -/
def State.engRead (s : State) (o : EngOp) (va : DWord) (ans : List LineAnswer) : State × Got × List LineAnswer :=
  match s.translate none o.quad o.guest va .load with
  | (s, .error e) => (s, if e.waits then .wait else .stop e.code, ans)
  | (s, .ok t) =>
    let key := t.key va
    let at' : EngAttr := ⟨t.mig, t.ret, s.clsOf o.gid⟩
    let s := s.touchHost o.gid key
    match keyNode key with
    | some _ => s.readRemote key t.coh at' ans
    | none =>
      match s.forwardOf key with
      | none => let r := s.readHome key at'; (r.1, r.2, ans)
      | some (node, dst) =>
        if node = 0x1000 then let r := s.readHome dst at'; (r.1, r.2, ans)
        else s.readRemote (remoteKey node dst) 0 at' ans

/-- Writes bytes of a line at a home of this module. What it writes of a host-window line goes on to the host (R108,
log 121). -/
def State.writeAtHome (s : State) (line : Nat) (at' : EngAttr) (mask : BitVec 128) (d : LineData) : State × Got :=
  if s.refuses line then (s.log (.refusedWrite line), .stop engRefused)
  else
    match s.homeEngine line ⟨true, 2, true, mask⟩ at'.ret at'.cls with
    | (s, false) => (s, .wait)
    | (s, true) =>
      let s := if at'.mig then s.countMig line s.thisNode else s
      ((s.writeHome line mask d).flushHalves line, .data d)

/-- Writes bytes of a line of another module. -/
def State.writeRemote (s : State) (key : Nat) (coh : BitVec 2) (at' : EngAttr) (mask : BitVec 128) (d : LineData)
    (ans : List LineAnswer) : State × Got × List LineAnswer :=
  if s.plat.dead.contains (homeNode key) then (s.log (.droppedWrite key), .stop engNodeDead, ans)
  else if coh = 2#2 then
    match s.cacheReady key true at' with
    | (s, false) => (s, .wait, ans)
    | (s, true) =>
      (s.updCache key fun c => { c with data := mergeBytes c.data d mask 128, cst := cstM,
                                        poison := c.poison && mask != BitVec.allOnes 128 }, .data d, ans)
  else
    match ans with
    | (2, _) :: rest => (s.log (.refusedWrite key), .stop engRefused, rest)
    | _ :: rest => (s.send (.remoteWrite (homeNode key) (keyLine key) at'.mig mask d), .data d, rest)
    | [] => (s, .wait, [])

/-- An engine writes bytes of the line of a virtual address. -/
def State.engWrite (s : State) (o : EngOp) (va : DWord) (mask : BitVec 128) (d : LineData) (ans : List LineAnswer) :
    State × Got × List LineAnswer :=
  match s.translate none o.quad o.guest va .store with
  | (s, .error e) => (s, if e.waits then .wait else .stop e.code, ans)
  | (s, .ok t) =>
    let key := t.key va
    let at' : EngAttr := ⟨t.mig, retOf o.ret t.ret, s.clsOf o.gid⟩
    let s := s.touchHost o.gid key
    match keyNode key with
    | some _ => s.writeRemote key t.coh at' mask d ans
    | none =>
      match s.forwardOf key with
      | none => let r := s.writeAtHome key at' mask d; (r.1, r.2, ans)
      | some (node, dst) =>
        if node = 0x1000 then let r := s.writeAtHome dst at' mask d; (r.1, r.2, ans)
        else s.writeRemote (remoteKey node dst) 0 at' mask d ans

/-! ### ENGINE_LINE_PERFORM: copy and gather -/

/-- The stash line of an operation's stash operand. -/
def State.engStashLine (s : State) (o : EngOp) (off : DWord) (k : Nat) : Nat :=
  match s.group? o.gid with
  | some g => (s.quota g).1 + off.toNat / 128 + k
  | none => 0

/-- Reads source line `k` of a copy or collective. -/
def State.engSource (s : State) (o : EngOp) (k : Nat) (ans : List LineAnswer) : State × Got × List LineAnswer :=
  if o.srcStash then (s, .data (s.sline o.core (s.engStashLine o o.src k)).data, ans)
  else s.engRead o (o.src + BitVec.ofNat 64 (128 * k)) ans

/-- Writes destination line `k` of an operation. -/
def State.engDest (s : State) (o : EngOp) (k : Nat) (mask : BitVec 128) (d : LineData) (ans : List LineAnswer) :
    State × Got × List LineAnswer :=
  if o.dstStash then
    let line := s.engStashLine o o.dst k
    let l := s.sline o.core line
    (s.setSline o.core line { l with data := d }, .data d, ans)
  else s.engWrite o (o.dst + BitVec.ofNat 64 (128 * k)) mask d ans

/-- The operation stops at a line (R348). -/
def EngOp.fail (o : EngOp) (cause line : Nat) : EngOp := { o with cause := cause, errLine := line }

/-- After a write of a line, or of a part of it. -/
def State.engWrote (s : State) (o : EngOp) (line : Nat) (g : Got) : State :=
  match g with
  | .data _ => s.updEng o.id fun o => { o with next := o.next + 1 }
  | .wait => s
  | .stop c => s.updEng o.id fun o => o.fail c line

/-- One line of a copy: every source line is read before a destination line is written, so that overlapping ranges
receive the values from before the operation (R342); after an error in reading, the lines before it are written. -/
def State.copyLine (s : State) (o : EngOp) (ans : List LineAnswer) : State :=
  if o.cause = 0 ∧ o.captured.length < o.lines then
    match s.engSource o o.captured.length ans with
    | (s, .data d, _) => s.updEng o.id fun o => { o with captured := o.captured ++ [d] }
    | (s, .wait, _) => s
    | (s, .stop c, _) => s.updEng o.id fun o => o.fail c o.captured.length
  else if o.next < o.captured.length ∧ (o.cause = 0 ∨ o.next < o.errLine) then
    let r := s.engDest o o.next (BitVec.allOnes 128) ((o.captured[o.next]?).getD 0) ans
    r.1.engWrote o o.next r.2.1
  else s

/-- The index of an element of a gather: 4 bytes of the index array. -/
def State.gatherIndex (s : State) (o : EngOp) (e : Nat) (ans : List LineAnswer) : State × Got × List LineAnswer :=
  let va := o.src + BitVec.ofNat 64 (4 * e)
  let at' := va.toNat % 128
  match s.engRead o va ans with
  | (s, .data d, ans) =>
    if at' + 4 ≤ 128 then (s, .data (d >>> (8 * at')), ans)
    else
      match s.engRead o (va + 4#64) ans with
      | (s, .data d2, ans) => (s, .data ((d >>> (8 * at')) ||| (d2 <<< (8 * (128 - at')))), ans)
      | r => r
  | r => r

/-- The elements of one destination line, `n` of them from element `e`, into their places (R343). -/
def State.gatherElems (s : State) (o : EngOp) (e : Nat) (acc : LineData) (ans : List LineAnswer) :
    Nat → State × Got × List LineAnswer
  | 0 => (s, .data acc, ans)
  | n + 1 =>
    match s.gatherIndex o e ans with
    | (s, .data d, ans) =>
      let k := (d.setWidth 32).toNat
      if o.tlen.toNat < k * o.esize + o.esize then (s, .stop engIndex, ans)
      else
        let va := o.table + BitVec.ofNat 64 (k * o.esize)
        match s.engRead o va ans with
        | (s, .data t, ans) =>
          let x := (t >>> (8 * (va.toNat % 128))) &&& BitVec.ofNat 1024 (2 ^ (8 * o.esize) - 1)
          s.gatherElems o (e + 1) (acc ||| (x <<< (8 * (o.esize * e % 128)))) ans n
        | r => r
    | r => r

/-- One line of a gather. A line that must wait is read anew, and what it has read so far does not count (R110). -/
def State.gatherLine (s : State) (o : EngOp) (ans : List LineAnswer) : State :=
  if o.cause ≠ 0 ∨ o.lines ≤ o.next then s
  else
    let n := 128 / o.esize
    match s.gatherElems o (n * o.next) 0 ans n with
    | (s, .data d, ans) =>
      let r := s.engDest o o.next (BitVec.allOnes 128) d ans
      r.1.engWrote o o.next r.2.1
    | (r, .wait, _) => { r with dies := s.dies }
    | (s, g, _) => s.engWrote o o.next g

/-! ### Collectives (R346, R347) -/

/-- Width of an element of a source format. -/
def collWidth (f : Nat) : Nat :=
  if f = 0 ∨ f = 8 then 32 else if f = 1 then 16 else if f = 4 ∨ f = 7 then 4 else 8

/-- The format is quantised: its codes are followed by parameter words. -/
def collQuant (f : Nat) : Bool := f == 6 || f == 7

/-- Elements of a send buffer of `L` lines. For quantised formats, as many blocks of 32 as fit with their parameter
words. -/
def collElems (f L : Nat) : Nat :=
  if f = 6 then 32 * (32 * (L / 9) + 4 * (L % 9 - 1))
  else if f = 7 then 32 * (32 * (L / 5) + 8 * (L % 5 - 1))
  else L * (1024 / collWidth f)

/-- Bits of a buffer of lines. -/
def bufBits (ls : List LineData) (w i : Nat) : BitVec w := ((ls[i * w / 1024]?).getD 0).extractLsb' (i * w % 1024) w

/-- The exact value of an element of a rank's buffer; integers as exact integers. -/
def collValue (f : Nat) (xval : Nat) (ls : List LineData) (E e : Nat) : Exact :=
  let code : Nat := (bufBits ls (collWidth f) e).toNat
  let par : Word := bufBits ls 32 (32 * ((E * collWidth f + 1023) / 1024) + e / 32)
  match f with
  | 0 => f32.decode code
  | 1 => bf16.decode code
  | 2 => f8a.decode code
  | 3 => f8b.decode code
  | 4 => decodeF4 code xval
  | 5 => .ofInt (BitVec.ofNat 8 code).toInt
  | 6 => dequantExact code (f16.decode (fldN par 0 16)) (fldN par 16 8)
  | 7 => dequantExact code (f16.decode (fldN par 0 16)) (fldN par 16 4)
  | _ => .ofInt (BitVec.ofNat 32 code).toInt

/-- A zero without its sign. -/
def Exact.plusZero (x : Exact) : Exact := if x.isZero then .fin false 0 0 else x

/-- The reduced format is `bf16`, or 32 bits wide (R346). -/
def collNarrow (c : DWord) : Bool := collFmt c == 1 || (collDbf c && (collFmt c == 2 || collFmt c == 3 || collFmt c == 4 || collQuant (collFmt c)))
def collIsInt (c : DWord) : Bool := collFmt c == 5 || collFmt c == 8

/-- A sum with one rounding after each addition, in ascending rank. -/
def sumRounding (F : Fmt) : List Exact → Exact
  | [] => .fin false 0 0
  | x :: xs => xs.foldl (fun a y => F.decode (F.round .ne (a.add false y))) x

/-- An integer that an exact value is. -/
def exactInt (x : Exact) : Int := x.toInteger.getD 0

/-- The reduction of one element over the ranks, in ascending rank (R347). -/
def reduceElem (c : DWord) (vs : List Exact) : BitVec 32 :=
  if collIsInt c then
    let is := vs.map exactInt
    match collRed c, is with
    | _, [] => 0
    | 0, is => BitVec.ofInt 32 (is.foldl (· + ·) 0)
    | 1, i :: is => BitVec.ofInt 32 (is.foldl max i)
    | _, i :: is => BitVec.ofInt 32 (is.foldl min i)
  else
    let F := if collNarrow c then bf16 else f32
    match collRed c, vs with
    | _, [] => 0
    | 0, vs =>
      if collFmt c = 0 then toF32 .ne (sumRounding f32 vs)
      else if collFmt c = 1 then BitVec.ofNat 32 (bf16.round .ne (sumRounding bf16 vs))
      else BitVec.ofNat 32 (F.round .ne (vs.foldl (Exact.add false) (.fin false 0 0)).plusZero)
    | k, v :: vs =>
      let w := vs.foldl (fun a y => fminmax (k == 1) a (toF32 .ne y)) (toF32 .ne v)
      BitVec.ofNat 32 (F.round .ne (xf w))

/-- A rank's part in a collective. -/
structure RankData where
  ctrl : DWord
  lines : Nat
  data : List LineData
  deriving DecidableEq, Repr

/-- Width of a reduced element. -/
def reducedWidth (c : DWord) : Nat := if collNarrow c then 16 else 32

/-- Line `j` of the reduced result. -/
def reducedLine (c : DWord) (rs : List RankData) (E j : Nat) : LineData :=
  let w := reducedWidth c
  let n := 1024 / w
  (List.range n).foldl (fun (d : LineData) k =>
    let e := n * j + k
    if e < E then
      let v := reduceElem c (rs.map fun r => collValue (collFmt c) (collXval r.ctrl) r.data E e)
      d ||| ((v.setWidth 1024) <<< (w * k))
    else d) 0

/-- What a rank receives: its lines, and their bytes in all (R346). -/
def collResult (c : DWord) (L : Nat) (rs : List RankData) (rank : Nat) : List LineData × Nat :=
  let E := collElems (collFmt c) L
  let bytes := E * reducedWidth c / 8
  let all := (bytes + 127) / 128
  match collKind c with
  | 0 => ((List.range all).map (reducedLine c rs E), bytes)
  | 1 =>
    let mine := (List.range all).filter fun j => j % rs.length == rank
    (mine.map (reducedLine c rs E), 128 * mine.length - (if mine.contains (all - 1) then 128 * all - bytes else 0))
  | 2 => (rs.flatMap fun r => r.data, 128 * L * rs.length)
  | _ => (((rs[collRoot c]?).map fun r => r.data).getD [], 128 * L)

/-- An operation takes part in a collective of a set. -/
def EngOp.inColl (o : EngOp) (set : Nat) : Bool := (o.kind == .coll || o.kind == .drainColl) && collSet o.ctrl == set

/-- The operation of a quad of this module that takes part next in a set. -/
def State.rankOp (s : State) (set quad : Nat) : Option EngOp :=
  s.engOps.find? fun o => o.inColl set && o.quad == quad && !o.ready

/-- What a rank has brought: none while it has not issued or not sent every line. -/
def State.rankData (s : State) (set : Nat) (peers : List CollPeer) (r : Nat) (at' : Nat × Nat) : Option RankData :=
  if at'.1 = s.thisNode then
    match s.rankOp set at'.2 with
    | some o => if o.started && !o.paused && (o.captured.length == o.lines || o.cause != 0) then some ⟨o.ctrl, o.lines, o.captured⟩ else none
    | none => none
  else
    match peers.find? fun p => p.rank == r with
    | some p => some ⟨p.ctrl, p.lines, p.data⟩
    | none => none

/-- Every rank of a collective on this module stops. -/
def State.stopRanks (s : State) (set : Nat) (quads : List Nat) (cause : Nat) : State :=
  quads.foldl (fun s q =>
    match s.rankOp set q with
    | some o => s.updEng o.id fun o => { o.fail (if o.cause = 0 then cause else o.cause) o.next with ready := true }
    | none => s) s

/-- The ranks of a set agree on what R346 names. -/
def ranksAgree (rs : List RankData) : Bool :=
  match rs with
  | [] => true
  | r :: rs => rs.all fun q => q.lines == r.lines && fldN q.ctrl 12 36 == fldN r.ctrl 12 36

/-- THE COLLECTIVE: when every rank has issued and sent its lines, the ranks of this module receive their results
(R346). A rank that stopped while it sent stops the others with its cause. -/
def State.combine (s : State) (o : EngOp) (peers : List CollPeer) : State :=
  let set := collSet o.ctrl
  let here := (o.ranks.filter fun r => r.1 == s.thisNode).map fun r => r.2
  if o.ranks.any fun r => s.plat.dead.contains r.1 then s.stopRanks set here engNodeDead
  else
    let got := (o.ranks.zipIdx).map fun e => s.rankData set peers e.2 e.1
    if got.any Option.isNone then s
    else
      let rs := got.filterMap id
      match (here.filterMap (s.rankOp set)).find? fun p => p.cause != 0 with
      | some p => s.stopRanks set here p.cause
      | none =>
        if !ranksAgree rs then s.stopRanks set here engMismatch
        else
          (o.ranks.zipIdx).foldl (fun s e =>
            if e.1.1 = s.thisNode then
              match s.rankOp set e.1.2 with
              | none => s
              | some p =>
                let (rows, total) := collResult p.ctrl p.lines rs e.2
                s.updEng p.id fun p =>
                  if p.rlen.toNat < total then { p.fail engShort 0 with ready := true }
                  else { p with ready := true, rows := rows, total := total }
            else s) s

/-- One line of a collective: a line sent, the reduction, or a line received. -/
def State.collLine (s : State) (o : EngOp) (ans : List LineAnswer) (peers : List CollPeer) : State :=
  if o.ready then
    if o.cause ≠ 0 then s
    else
      match o.rows[o.next]? with
      | none => s
      | some d =>
        let r := s.engDest o o.next (byteMask 0 (min 128 (o.total - 128 * o.next))) d ans
        r.1.engWrote o o.next r.2.1
  else if o.captured.length < o.lines ∧ o.cause = 0 then
    match s.engSource o o.captured.length ans with
    | (s, .data d, _) => s.updEng o.id fun o => { o with captured := o.captured ++ [d] }
    | (s, .wait, _) => s
    | (s, .stop c, _) => s.updEng o.id fun o => { o.fail c o.captured.length with next := o.captured.length }
  else s.combine o peers

/-! ### Rows of a drain to memory (R378) -/

/-- The stretches of a row within lines: address, bytes, and the first byte of the row. -/
def rowSpans (va : DWord) (n : Nat) : List (DWord × Nat × Nat) :=
  let k := min n (128 - va.toNat % 128)
  if k = n then [(va, n, 0)] else [(va, k, 0), (va + BitVec.ofNat 64 k, n - k, k)]

/-- The stretches of the rows of a drain in their order, each with its row. -/
def EngOp.rowParts (o : EngOp) : List (Nat × DWord × Nat × Nat) :=
  (List.range o.rows.length).flatMap fun k =>
    (rowSpans (o.dst + BitVec.ofNat 64 (o.stride * k)) o.rowBytes).map fun sp => (k, sp)

/-- One stretch of a row of a drain to memory, once the engine has drained the tile. -/
def State.drainRow (s : State) (o : EngOp) (ans : List LineAnswer) : State :=
  if o.ready = false ∨ o.cause ≠ 0 then s
  else
    match o.rowParts[o.next]? with
    | none => s
    | some (k, va, n, off) =>
      let at' := va.toNat % 128
      let d : LineData := (o.rows[k]?).getD 0
      let r := s.engWrite o va (byteMask at' n) ((d >>> (8 * off)) <<< (8 * at')) ans
      r.1.engWrote o k r.2.1

/-- ENGINE_LINE_PERFORM: one line of an operation that has started performs, or the operation stops there (R151, R348).
`answers` and `peers` are what other modules answer and bring. -/
def execEngineLinePerform (op : Nat) (answers : List LineAnswer) (peers : List CollPeer) (s : State) : Out :=
  .next (match s.engOp? op with
    | none => s
    | some o =>
      if !o.started || o.paused then s
      else
        match o.kind with
        | .copy => s.copyLine o answers
        | .gather => s.gatherLine o answers
        | .coll => s.collLine o answers peers
        | .drainMem => s.drainRow o answers
        | .drainColl => if o.captured.length = o.lines then s.collLine o answers peers else s
        | .stream => s)

/-! ### Completion (R151, R348) -/

/-- Every line of an operation is written, or it has stopped. -/
def EngOp.finished (o : EngOp) : Bool :=
  match o.kind with
  | .copy => if o.cause = 0 then decide (o.lines ≤ o.next) else decide (o.errLine ≤ o.next)
  | .gather => o.cause != 0 || decide (o.lines ≤ o.next)
  | .coll => o.ready && (o.cause != 0 || decide (o.rows.length ≤ o.next))
  | .drainMem => o.ready && (o.cause != 0 || decide (o.rowParts.length ≤ o.next))
  | .drainColl => o.ready && (o.cause != 0 || decide (o.rows.length ≤ o.next))
  | .stream => false

/-- An operation completes: its entries are released, its counter counts down, its error is reported, and the group
observes what it has done as an acquire (R151, R348). -/
def State.endEngine (s : State) (o : EngOp) : State :=
  let s := s.updQuad o.quad fun q => q.unregister o.opid
  let s := { s with engOps := s.engOps.filter fun p => p.id != o.id }
  let s := s.acquireEffect o.gid (BitVec.allOnes 64) o.scope fun _ => false
  s.updGroup o.gid fun g =>
    let g := { g with q2 := dropOne o.id g.q2 }
    if o.cause = 0 then g else g.engineError o.opid o.errLine o.cause

/-- ENGINE_COMPLETE. -/
def execEngineComplete (op : Nat) (s : State) : Out :=
  .next (match s.engOp? op with
    | none => s
    | some o => if o.started && o.finished then s.endEngine o else s)

/-- The count of `eng.wait`: bits 5 to 0 of a scalar, or a constant (R348). -/
def waitCount (g : Group) (i : Nat) (l : Lane) (a : BitVec 8) : Nat := (src32 g i l a).toNat % 64

/-- Engine operations of a group that are not complete. -/
def State.incomplete (s : State) (gid : Nat) : Nat := (s.engOps.filter fun o => o.gid == gid).length

/-- `eng.wait sd, k` (R348): the guard-true lanes wait; `settleEngines` releases them. -/
def execEngWait (sd : BitVec 6) (a : BitVec 8) (s : State) : Out :=
  .next (s.once fun s g i l m =>
    s.waitLanes g.gid (g.guarded m) 1 (.engine (waitCount g i l a) sd.toNat))

/-- What a lane waits for at `eng.wait`. -/
def Lane.engineWait (l : Lane) : Option (Nat × Nat) :=
  match l.status with
  | .waiting (.engine k r) => some (k, r)
  | _ => none

/-- Lanes whose `eng.wait` is met go on, with the group's error word, which is then clear (R348). -/
def Group.settleEngines (g : Group) (left : Nat) : Group :=
  (g.lanes.zipIdx).foldl (fun (g : Group) e =>
    match (g.lanes[e.2]?).bind Lane.engineWait with
    | some (k, r) =>
      if left ≤ k then
        let w := g.waitersOn (.engine k r)
        let g := g.setScalar e.2 r g.engErr
        ({ g with engErr := 0 } : Group).mapLanes w fun _ l => l.goOn
      else g
    | none => g) g

def State.settleEngines (s : State) : State :=
  { s with groups := s.groups.map fun g => g.settleEngines (s.incomplete g.gid) }

end Sys2Proof.Machine
end

