-- ==== Sys2Proof/Machine/Tile.lean ====
section
/-! DEFINITION. Tiles (R84, R351 to R367, R383): format tags, handles and their slots, handle rings and role boxes, and
the posted operations that read and write slots. -/

namespace Sys2Proof.Machine

/-! ### Formats and tags (R351, R352) -/

/-- Format codes. -/
def tF32 : Nat := 0
def tI32 : Nat := 1
def tF16 : Nat := 2
def tBf16 : Nat := 3
def tF8a : Nat := 4
def tF8b : Nat := 5
def tI8 : Nat := 6
def tQ8 : Nat := 7
def tF4 : Nat := 8
def tQ4 : Nat := 9

def tileRows (f : Nat) : Nat := if f < 2 then 16 else 32
def tileK (f : Nat) : Nat := if f < 4 then 32 else if f < 8 then 64 else 128
def tileRowBytes (f : Nat) : Nat := if f < 2 then 128 else 64
/-- Bits of an element. -/
def tileWidth (f : Nat) : Nat := if f < 2 then 32 else if f < 4 then 16 else if f < 8 then 8 else 4
def tileQuant (f : Nat) : Bool := f == tQ8 || f == tQ4

def tagFmt (t : DWord) : Nat := fldN t 0 4
def tagXval (t : DWord) : Nat := fldN t 48 16
def tagZh (t : DWord) : BitVec 16 := fld t 32 16
def tagSh (t : DWord) : BitVec 16 := fld t 16 16
def tagGb (t : DWord) : Nat := fldN t 11 5
def tagZv (t : DWord) : Bool := t.getLsbD 10
def tagSv (t : DWord) : Bool := t.getLsbD 9
/-- Group size G. -/
def tagG (t : DWord) : Nat := 32 * 2 ^ fldN t 7 2

/-- A tag with another format code. -/
def tagWithFmt (t : DWord) (f : BitVec 4) : DWord := (t &&& ~~~(0xF#64)) ||| f.setWidth 64

/-! ### Slots and the scoreboard (R355, R367) -/

def State.slot (s : State) (core k : Nat) : TileSlot := alookup (s.core core).tiles k TileSlot.zero
def State.updSlot (s : State) (at' : Nat × Nat) (f : TileSlot → TileSlot) : State :=
  s.updCore at'.1 fun c => { c with tiles := aset c.tiles at'.2 (f (alookup c.tiles at'.2 TileSlot.zero)) }

/-- A retiring slot that no posted operation uses is zeroed and free (R84, R355). -/
def TileSlot.settle (t : TileSlot) : TileSlot :=
  if t.state == .retiring && t.readers.isEmpty && t.writers.isEmpty then TileSlot.zero else t

/-- A released slot is free, or retiring while posted operations use it (R355). -/
def TileSlot.release (t : TileSlot) : TileSlot := ({ t with state := .retiring } : TileSlot).settle

/-- Posts an operation on the slots that it reads and writes. -/
def State.post (s : State) (op : Nat) (reads writes : List (Nat × Nat)) : State :=
  let s := reads.eraseDups.foldl (fun s a => s.updSlot a fun t => { t with readers := t.readers ++ [op] }) s
  writes.eraseDups.foldl (fun s a => s.updSlot a fun t => { t with writers := t.writers ++ [op] }) s

/-- An operation has finished with its slots. -/
def State.unpost (s : State) (op : Nat) (slots : List (Nat × Nat)) : State :=
  slots.eraseDups.foldl (fun s a =>
    s.updSlot a fun t => ({ t with readers := t.readers.filter fun i => i != op, writers := t.writers.filter fun i => i != op } : TileSlot).settle) s

/-- Every earlier operation that writes the slots an operation reads, or reads or writes the slots it writes, has
finished (R367). -/
def State.slotsReady (s : State) (op : Nat) (reads writes : List (Nat × Nat)) : Bool :=
  (reads.all fun a => (s.slot a.1 a.2).writers.all fun i => decide (op ≤ i)) &&
    writes.all fun a => ((s.slot a.1 a.2).writers.all fun i => decide (op ≤ i)) &&
      (s.slot a.1 a.2).readers.all fun i => decide (op ≤ i)

/-! ### Handles (R353, R354) -/

def hGen (h : BitVec 16) : BitVec 8 := fld h 8 8
def hLh (h : BitVec 16) : Nat := fldN h 0 8

def renGen (e : DWord) : BitVec 8 := fld e 56 8
def renState (e : DWord) : BitVec 2 := fld e 54 2
def renBlanket (e : DWord) : Bool := e.getLsbD 53
def renCore (e : DWord) : Nat := fldN e 51 2
def renSlot (e : DWord) (c : Nat) : Nat := fldN e (8 * c) 8

def rsFree : BitVec 2 := 0
def rsHeld : BitVec 2 := 1
def rsTransit : BitVec 2 := 2

def mkRen (gen : BitVec 8) (st : BitVec 2) (blanket : Bool) (core : Nat) (slots : BitVec 32) : DWord :=
  gen ++ st ++ bit blanket ++ BitVec.ofNat 2 core ++ 0#19 ++ slots

/-- An entry in another state. -/
def renWith (e : DWord) (st : BitVec 2) : DWord :=
  mkRen (renGen e) st (renBlanket e) (renCore e) (fld e 0 32)

/-- The rename-table entry of a logical handle. -/
def Team.entry (t : Team) (lh : Nat) : DWord := (t.rename[lh]?).getD 0

/-- The rename-table entry of a current handle value (R354). -/
def Team.current (t : Team) (h : BitVec 16) : Option DWord :=
  let e := t.entry (hLh h)
  if hLh h < t.handles ∧ (renState e = rsHeld ∨ renState e = rsTransit) ∧ renGen e = hGen h then some e else none

def Team.quadBase (t : Team) : Nat := 4 * (t.core / 4)

/-- The slots that an entry names: one, or one on each core of the quad. -/
def Team.slotsOf (t : Team) (e : DWord) : List (Nat × Nat) :=
  if renBlanket e then [0, 1, 2, 3].map fun c => (t.quadBase + c, renSlot e c)
  else [(t.quadBase + renCore e, renSlot e 0)]

def State.setRename (s : State) (t : Team) (lh : Nat) (e : DWord) : State :=
  s.updTeam t.launch t.team fun t =>
    { t with rename := (List.range t.handles).map fun i => if i = lh then e else t.entry i }

/-- A current handle is released (R355). -/
def State.releaseHandle (s : State) (t : Team) (h : BitVec 16) : State :=
  let e := t.entry (hLh h)
  let s := s.setRename t (hLh h) (mkRen (renGen e + 1) rsFree false 0 0)
  (t.slotsOf e).foldl (fun s a => s.updSlot a TileSlot.release) s

/-- A cause of R384 with the value for TRAP.VA. -/
abbrev TileErr := DWord × DWord

def stale (h : BitVec 16) : TileErr := (causeOf cTileStale 0, h.setWidth 64)
def badFmt (h : BitVec 16) : TileErr := (causeOf cTileFmt 0, h.setWidth 64)

/-- The one slot that a handle from a tag names, when its tile has a format (R366, R371). -/
def State.sideTile (s : State) (t : Team) (h : BitVec 16) (f : Nat) : Except TileErr (Nat × Nat × DWord) :=
  match t.current h with
  | none => .error (stale h)
  | some e =>
    match t.slotsOf e with
    | [a] => if tagFmt (s.slot a.1 a.2).tag = f then .ok (a.1, a.2, (s.slot a.1 a.2).tag) else .error (badFmt h)
    | _ => .error (badFmt h)

/-- The largest quantisation group of a tile of a tag. -/
def lastGroup (tag : DWord) : Nat := (tileK (tagFmt tag) - 1) / tagG tag

/-- CAPTURES a tile's tag for an operation that decodes it, with the scale and zero-point tiles that it names (R354,
R364, R371). `h` is the handle that the failure of the tile itself names. -/
def State.capture (s : State) (t : Team) (h : BitVec 16) (a : Nat × Nat) : Except TileErr OpTile :=
  let tag := (s.slot a.1 a.2).tag
  if !tileQuant (tagFmt tag) then .ok { core := a.1, slot := a.2, tag := tag, scale := none, zero := none }
  else if !tagSv tag || decide (31 < tagGb tag + lastGroup tag) then .error (badFmt h)
  else
    match s.sideTile t (tagSh tag) tF16 with
    | .error e => .error e
    | .ok sc =>
      if tagZv tag then
        match s.sideTile t (tagZh tag) tQ8 with
        | .error e => .error e
        | .ok z => .ok { core := a.1, slot := a.2, tag := tag, scale := some sc, zero := some z }
      else .ok { core := a.1, slot := a.2, tag := tag, scale := some sc, zero := none }

/-- Slots that an operation on a captured tile reads: its scale and zero-point tiles. -/
def OpTile.sides (o : OpTile) : List (Nat × Nat) :=
  (match o.scale with
    | some x => [(x.1, x.2.1)]
    | none => []) ++
  (match o.zero with
    | some x => [(x.1, x.2.1)]
    | none => [])

def OpTile.at' (o : OpTile) : Nat × Nat := (o.core, o.slot)

/-! ### Elements of a tile -/

/-- The code of an element. -/
def tileCode (d : BitVec 16384) (f row k : Nat) : Nat :=
  fldN d (8 * tileRowBytes f * row + tileWidth f * k) (tileWidth f)

/-- Scale and zero point of element k of a row (R352, R260). -/
def State.scaleOf (s : State) (o : OpTile) (row k : Nat) : Exact × Nat :=
  let g := tagGb o.tag + k / tagG o.tag
  (match o.scale with
    | some x => f16.decode (tileCode (s.slot x.1 x.2.1).data tF16 row g)
    | none => .fin false 0 0,
   match o.zero with
    | some x => tileCode (s.slot x.1 x.2.1).data tQ8 row g % (if tagFmt o.tag = tQ4 then 16 else 256)
    | none => 0)

/-- The exact value of a code of a format (R256 to R260). -/
def State.decodeCode (s : State) (o : OpTile) (row k code : Nat) : Exact :=
  match tagFmt o.tag with
  | 0 => f32.decode code
  | 1 => .ofInt (BitVec.ofNat 32 code).toInt
  | 2 => f16.decode code
  | 3 => bf16.decode code
  | 4 => f8a.decode code
  | 5 => f8b.decode code
  | 6 => .ofInt (BitVec.ofNat 8 code).toInt
  | 8 => decodeF4 code (tagXval o.tag)
  | _ => dequantExact code (s.scaleOf o row k).1 (s.scaleOf o row k).2

/-- The exact value of an element of a tile. -/
def State.tileValue (s : State) (o : OpTile) (row k : Nat) : Exact :=
  s.decodeCode o row k (tileCode (s.slot o.core o.slot).data (tagFmt o.tag) row k)

/-- `RoundNE(SatTo(x, F), F)`, or `RoundNE(x, F)` under `.nan` (R364). -/
def Fmt.convert (F : Fmt) (nan : Bool) (x : Exact) : Nat := F.round .ne (if nan then x else F.sat x)

/-- The code of an exact value in a format (R364). -/
def State.encodeCode (s : State) (o : OpTile) (nan : Bool) (row k : Nat) (x : Exact) : Nat :=
  match tagFmt o.tag with
  | 0 => f32.convert nan x
  | 1 => (BitVec.ofInt 32 (roundSat .ne (-2 ^ 31) (2 ^ 31 - 1) x)).toNat
  | 2 => f16.convert nan x
  | 3 => bf16.convert nan x
  | 4 => f8a.convert nan x
  | 5 => f8b.convert nan x
  | 6 => (BitVec.ofInt 8 (roundSat .ne (-128) 127 x)).toNat
  | 7 => quantise x (s.scaleOf o row k).1 (s.scaleOf o row k).2 8
  | 8 => encodeF4 x
  | _ => quantise x (s.scaleOf o row k).1 (s.scaleOf o row k).2 4

/-- A tile's bytes with one element replaced. -/
def putCode (d : BitVec 16384) (f row k code : Nat) : BitVec 16384 :=
  let lo := 8 * tileRowBytes f * row + tileWidth f * k
  let w := tileWidth f
  (d &&& ~~~((BitVec.ofNat 16384 (2 ^ w - 1)) <<< lo)) ||| ((BitVec.ofNat 16384 (code % 2 ^ w)) <<< lo)

/-! ### Performing a class 3 instruction (R356, R384) -/

/-- The guard-true lanes of the pick trap; the instruction has no effect (R384). -/
def State.trapAll (s : State) (g : Group) (m : BitVec 64) (e : TileErr) : State :=
  s.trapLanes g.gid none (trapsOf (g.guarded m) g.lanes.length e.1 e.2)

/-- A class 3 instruction of a pick, with the team of its group. -/
def State.tileOnce (s : State) (f : State → Group → Team → Nat → Lane → BitVec 64 → State) : State :=
  s.once fun s g i l m =>
    match s.team? g.launch g.team with
    | some t => f s g t i l m
    | none => s

/-- Lanes wait in a ring or box operation, which they perform again when it can go on (R360, R361). -/
def Pick.ringWait (p : Pick) (l : Lane) : Lane := { p.hold l with status := .waiting .ring }

def State.ringWait (s : State) (gid : Nat) (m : BitVec 64) : State :=
  match s.cur with
  | none => s
  | some p => (s.updGroup gid fun g => g.mapLanes m fun _ l => p.ringWait l).leave gid m

/-- RING_WAIT_RESUME: the lanes of a group that wait at a ring or box perform their operation again. -/
def execRingWaitResume (gid : Nat) (s : State) : Out := .next (s.release gid .ring)

/-- `talloc` (R358). Of the free slots it takes the lowest. -/
def execTalloc (d : BitVec 5) (t : BitVec 4) (f : BitVec 1) (s : State) : Out :=
  .next (s.tileOnce fun s g tm i _ m =>
    let full : TileErr := (causeOf cTileFull 0, noVA cTileFull)
    let cores := if f = 1#1 then [0, 1, 2, 3].map fun c => tm.quadBase + c else [g.core]
    let own := fun c => (tm.slots.filter fun a => a.1 == c).map fun a => a.2
    let pick := cores.map fun c => (own c).find? fun k => (s.slot c k).state == .free
    let hopeless := cores.any fun c => (own c).all fun k => (s.slot c k).state == .live
    match (List.range tm.handles).find? fun n => renState (tm.entry n) == rsFree with
    | none => s.trapAll g m full
    | some lh =>
      if hopeless then s.trapAll g m full
      else if pick.any Option.isNone then s.holdLanes g.gid m
      else
        let slots := pick.filterMap id
        let tag := tagWithFmt 0 t
        let s := (cores.zip slots).foldl (fun s a => s.updSlot a fun _ => { TileSlot.zero with state := .live, tag := tag }) s
        let word := (slots.zipIdx).foldl (fun (w : BitVec 32) e => w ||| (BitVec.ofNat 32 e.1 <<< (8 * e.2))) 0
        let gen := renGen (tm.entry lh)
        let s := s.setRename tm lh (mkRen gen rsHeld (f == 1#1) (if f = 1#1 then 0 else g.core % 4) word)
        s.writeHandle g.gid i d.toNat (gen ++ BitVec.ofNat 8 lh))

/-- A handle that must be current and held (R359). -/
def Team.held (t : Team) (h : BitVec 16) : Bool :=
  match t.current h with
  | some e => renState e == rsHeld
  | none => false

/-- `tfree ha` (R359). -/
def execTfree (a : BitVec 5) (s : State) : Out :=
  .next (s.tileOnce fun s g t i _ m =>
    let h := g.handle i a.toNat
    if t.held h then s.releaseHandle t h else s.trapAll g m (stale h))

/-! ### Rings and boxes (R360 to R362) -/

/-- PUT and TAKE of a ring line, and the handles between them. -/
def ringPut (d : LineData) : BitVec 16 := fld d 0 16
def ringTake (d : LineData) : BitVec 16 := fld d 16 16
def ringCount (d : LineData) : Nat := (ringPut d - ringTake d).toNat

/-- Replaces the 16 bits at a byte of a line. -/
def putHalf (d : LineData) (byte : Nat) (x : BitVec 16) : LineData :=
  setLineByte (setLineByte d byte (x.setWidth 8)) (byte + 1) (x.extractLsb' 8 8)

/-- The line after a give, and the value and line after a take. -/
def ringGive (d : LineData) (h : BitVec 16) : LineData :=
  putHalf (putHalf d (4 + 2 * ((ringPut d).toNat % 62)) h) 0 (ringPut d + 1)
def ringTaken (d : LineData) : BitVec 16 × LineData :=
  (d.extractLsb' (8 * (4 + 2 * ((ringTake d).toNat % 62))) 16, putHalf d 2 (ringTake d + 1))

/-- Stash line of a ring of a team. -/
def Team.ringLine (t : Team) (core k : Nat) : Nat := t.stashAt core + k

/-- A ring line that raises `TILE_RING`: mapped, or with a difference above 62. -/
def State.badRing (s : State) (core line : Nat) : Bool :=
  ((s.core core).mapOf? line).isSome || decide (62 < ringCount (s.sline core line).data)

def tileRing : TileErr := (causeOf cTileRing 0, noVA cTileRing)

/-- `tgive ha, ring k` (R360). -/
def execTgiveRing (a : BitVec 5) (k : BitVec 8) (s : State) : Out :=
  .next (s.tileOnce fun s g t i _ m =>
    let h := g.handle i a.toNat
    let line := t.ringLine g.core k.toNat
    let l := s.sline g.core line
    if !t.held h then s.trapAll g m (stale h)
    else if s.badRing g.core line then s.trapAll g m tileRing
    else if ringCount l.data = 62 then s.ringWait g.gid m
    else (s.setSline g.core line { l with data := ringGive l.data h }).setRename t (hLh h) (renWith (t.entry (hLh h)) rsTransit))

/-- `tgive ha, role q` (R361). -/
def execTgiveRole (a : BitVec 5) (q : BitVec 2) (s : State) : Out :=
  .next (s.tileOnce fun s g t i _ m =>
    let h := g.handle i a.toNat
    let box := (t.boxes[q.toNat]?).getD []
    if !t.held h then s.trapAll g m (stale h)
    else if 16 ≤ box.length then s.ringWait g.gid m
    else
      (s.updTeam t.launch t.team fun t =>
        { t with boxes := (List.range 4).map fun r =>
            let b := (t.boxes[r]?).getD []
            if r = q.toNat then b ++ [{ handle := h, takeable := false }] else b }).setRename t (hLh h) (renWith (t.entry (hLh h)) rsTransit))

/-- The format of the tile that an entry names: of its first slot. -/
def State.entryFmt (s : State) (t : Team) (e : DWord) : Nat :=
  match t.slotsOf e with
  | a :: _ => tagFmt (s.slot a.1 a.2).tag
  | [] => 15

/-- A value that a take has removed: current, in transit and of the format, or a trap (R362). -/
def State.accept (s : State) (g : Group) (t : Team) (i : Nat) (m : BitVec 64) (d : BitVec 5) (f : BitVec 4) (h : BitVec 16) :
    State :=
  match t.current h with
  | none => s.trapAll g m (stale h)
  | some e =>
    if renState e ≠ rsTransit then s.trapAll g m (stale h)
    else if s.entryFmt t e ≠ f.toNat then s.trapAll g m (badFmt h)
    else (s.setRename t (hLh h) (renWith e rsHeld)).writeHandle g.gid i d.toNat h

/-- `ttake hd, ring k` (R360, R362). -/
def execTtakeRing (d : BitVec 5) (t : BitVec 4) (k : BitVec 8) (s : State) : Out :=
  .next (s.tileOnce fun s g tm i _ m =>
    let line := tm.ringLine g.core k.toNat
    let l := s.sline g.core line
    if s.badRing g.core line then s.trapAll g m tileRing
    else if ringCount l.data = 0 then s.ringWait g.gid m
    else (s.setSline g.core line { l with data := (ringTaken l.data).2 }).accept g tm i m d t (ringTaken l.data).1)

/-- Removes the oldest takeable entry of a box. -/
def takeEntry : List BoxEntry → Option (BitVec 16 × List BoxEntry)
  | [] => none
  | b :: bs =>
    if b.takeable then some (b.handle, bs)
    else match takeEntry bs with
      | some (h, rest) => some (h, b :: rest)
      | none => none

/-- `ttake hd, role` (R361, R362). -/
def execTtakeRole (d : BitVec 5) (t : BitVec 4) (s : State) : Out :=
  .next (s.tileOnce fun s g tm i _ m =>
    match takeEntry ((tm.boxes[g.role]?).getD []) with
    | none => s.ringWait g.gid m
    | some (h, rest) =>
      (s.updTeam tm.launch tm.team fun t =>
        { t with boxes := t.boxes.mapIdx fun r b => if r = g.role then rest else b }).accept g tm i m d t h)

/-! ### Tile loads and stores (R363) -/

/-- A stretch of at most 16 bytes of a tile's rows: its place in the tile, its address, and its translation. -/
structure TilePiece where
  off : Nat
  va : DWord
  len : Nat
  trans : Trans
  deriving DecidableEq, Repr

/-- The pieces of a stretch of a row. -/
def spanPieces (row rb : Nat) (sp : Span) : List TilePiece :=
  (List.range ((sp.len + 15) / 16)).map fun k =>
    { off := row * rb + sp.off + 16 * k, va := sp.va + BitVec.ofNat 64 (16 * k), len := min 16 (sp.len - 16 * k), trans := sp.trans }

/-- The checks of every row, in order: the pieces, or the cause and address of the lowest failing row; or none, when a walk
must wait. -/
def State.checkRows (s : State) (g : Group) (ea : DWord) (stride rb : Nat) (k : AccKind) (row : Nat) (acc : List TilePiece) :
    Nat → State × Except (Option TileErr) (List TilePiece)
  | 0 => (s, .ok acc)
  | n + 1 =>
    let va := ea + BitVec.ofNat 64 (row * stride)
    match s.checkAccess g va rb k with
    | (s, .error .wait) => (s, .error none)
    | (s, .error (.trap c)) => (s, .error (some (c, va)))
    | (s, .ok sp) => s.checkRows g ea stride rb k (row + 1) (acc ++ sp.flatMap (spanPieces row rb)) n

/-- The lanes that perform a tile access, as they stand at it (R193). -/
def Group.performing (g : Group) (p : Pick) (m : BitVec 64) : List (Nat × Lane) :=
  ((g.lanes.zipIdx).filter fun e => (g.guarded m).getLsbD e.2).map fun e => (e.2, e.1.goTo (p.placeHere e.1))

/-- The requests of the pieces: one for each line, in the order of the rows. -/
def State.tileReqs (s : State) (g : Group) (x : XM) (held : List (Nat × Lane)) (i : Nat) (load : Bool) (ps : List TilePiece) :
    List Req :=
  (ps.map fun q =>
    let f := fallbacks (if load then .load false else .store true) (some q.trans.coh) x.scope x.order
    let attr := { q.trans.attr with ret := retOf x.ret q.trans.ret }
    { Req.zero with
        gid := g.gid, core := g.core, guest := g.guest, kind := if load then .load else .store, line := q.trans.key q.va,
        size := 16, attr := attr, scope := f.scope, order := f.order, fmt := .words,
        seq := s.sequencer f.scope f.order attr.coh, warn := f.warn, held := held,
        parts := [{ lane := i, va := q.va, pa := q.trans.pa q.va, off := 0, len := q.len, data := 0,
                    data2 := BitVec.ofNat 128 q.off, dst := none, value := 0, trap := 0, ticket := 0 }] }).foldl
    (fun rs r => addPart false { r with held := if rs.isEmpty then r.held else [] } rs) []

/-- The handle operand of a tile access: the slot that it uses on the issuing group's core. -/
def State.tileSlotOf (_s : State) (t : Team) (g : Group) (h : BitVec 16) : Option (Nat × Nat) :=
  match t.current h with
  | none => none
  | some e => (t.slotsOf e).find? fun a => !renBlanket e || a.1 == g.core

/-- The requests of a tile load are issued; the lane waits with later accesses for an acquire. -/
def State.addTileReqs (s : State) (g : Group) (i op : Nat) (rs : List Req) : State :=
  let (s, _) := s.issueReqs g op rs
  let acq := (s.reqs.filter fun r => r.gid == g.gid && r.op == op && !r.done && isAcquire r.order).map fun r => r.id
  s.updGroup g.gid fun g => g.mapLanes (1#64 <<< i) fun _ l => { l with acq := l.acq ++ acq }

/-- Whether a tile access waits at issue: for its counter (R182), for an earlier acquire (R136), for an earlier store of its
lane to a line that it stores to (R139), and for entries of the coalescing buffer (R60) or of the outstanding-request
table (R86). -/
def State.tileHeld (s : State) (g : Group) (i : Nat) (l : Lane) (store : Bool) (rs : List Req) : Bool :=
  decide (63 ≤ if store then g.c1 else g.c3) || !l.acq.isEmpty ||
    (if store then (rs.any fun r => (s.unperformed g.gid i).any fun q => q.meets r) || decide (64 < s.bufferUsed g.core + rs.length)
      else !s.entriesFor g rs)

/-- A tile access of a pick (R363). The rows of a store enter the coalescing buffer as other stores do (R59, R326). -/
def State.tileAccess (s : State) (load : Bool) (h : BitVec 5) (a b : BitVec 8) (x : XM) : State :=
  s.tileOnce fun s g t i l m =>
    let hv := g.handle i h.toNat
    match s.cur, s.tileSlotOf t g hv with
    | some p, some at' =>
      let f := if load then x.mode.toNat else tagFmt (s.slot at'.1 at'.2).tag
      let rb := tileRowBytes f
      let t0 := src64 g i l b
      let stride := if t0 = 0 then rb else t0.toNat
      let ea := src64 g i l a + x.off.signExtend 64
      if stride < rb then s.trapAll g m (causeOf cTileArg 0, t0)
      else if !l.acq.isEmpty then s.holdLanes g.gid m
      else
        match s.checkRows g ea stride rb (if load then .load else .store) 0 [] (tileRows f) with
        | (s, .error none) => s.holdLanes g.gid m
        | (s, .error (some e)) => s.trapAll g m e
        | (s, .ok ps) =>
          let rs := s.tileReqs g x (g.performing p m) i load ps
          if s.tileHeld g i l (!load) rs then s.holdLanes g.gid m
          else
            let (s, op) := s.newId
            let s := if load then
                let s := s.updSlot at' fun t => { t with tag := tagWithFmt t.tag (x.mode.setWidth 4) }
                let s := (s.post op [] [at']).addTileReqs g i op rs
                s.updGroup g.gid fun g => { g with q3 := g.q3 ++ [op] }
              else
                let s := s.post op [at'] []
                let rs := rs.map fun r => let r := s.precede g { r with op := op }; { r with after := op :: r.after }
                let s := (s.addReqs rs).1
                s.updGroup g.gid fun g => { g with q1 := g.q1 ++ [{ op := op, left := rs.length }] }
            let o : OpTile := { core := at'.1, slot := at'.2, tag := (s.slot at'.1 at'.2).tag, scale := none, zero := none }
            let job : TileOp := { op := op, gid := g.gid, kind := if load then .load else .store,
                                  src := if load then none else some o, dst := none, writes := if load then [at'] else [] }
            ({ s with tileOps := s.tileOps ++ [job] } : State).warnOp g.gid op m 2 (warnOf rs)
    | _, none => s.trapAll g m (stale hv)
    | none, some _ => s

def execTld (h : BitVec 5) (a b : BitVec 8) (x : XM) (s : State) : Out := .next (s.tileAccess true h a b x)
def execTst (h : BitVec 5) (a b : BitVec 8) (x : XM) (s : State) : Out := .next (s.tileAccess false h a b x)

/-! ### Conversions and spreads (R364, R365) -/

/-- A posted operation on c3. -/
def State.postTile (s : State) (g : Group) (m : BitVec 64) (job : TileOp) : State :=
  if 63 ≤ g.c3 then s.holdLanes g.gid m
  else
    let (s, op) := s.newId
    let reads := (match job.src with
      | some o => o.at' :: o.sides
      | none => []) ++ (match job.dst with
      | some o => o.sides
      | none => [])
    let s := s.post op reads job.writes
    let s := { s with tileOps := s.tileOps ++ [{ job with op := op, gid := g.gid }] }
    s.updGroup g.gid fun g => { g with q3 := g.q3 ++ [op] }

/-- The one slot of an ordinary handle. -/
def Team.ordinary (t : Team) (h : BitVec 16) : Except TileErr (Nat × Nat) :=
  match t.current h with
  | none => .error (stale h)
  | some e => match t.slotsOf e with
    | [a] => .ok a
    | _ => .error (badFmt h)

/-- `tcvt hd, ha, s` (R364). -/
def execTcvt (d a : BitVec 5) (r_ : BitVec 3) (f : BitVec 1) (s : State) : Out :=
  .next (s.tileOnce fun s g t i _ m =>
    let ha := g.handle i a.toNat
    let hd := g.handle i d.toNat
    match t.ordinary ha, t.ordinary hd with
    | .error e, _ => s.trapAll g m e
    | .ok _, .error e => s.trapAll g m e
    | .ok sa, .ok sd =>
      match s.capture t ha sa, s.capture t hd sd with
      | .error e, _ => s.trapAll g m e
      | .ok _, .error e => s.trapAll g m e
      | .ok oa, .ok od =>
        s.postTile g m { op := 0, gid := 0, kind := .convert r_.toNat (f == 1#1), src := some oa, dst := some od, writes := [sd] })

/-- `tspread hd, ha, q` (R365): the tag is copied at issue, the bytes when the operation performs. -/
def execTspread (d a : BitVec 5) (q : BitVec 2) (f : BitVec 1) (s : State) : Out :=
  .next (s.tileOnce fun s g t i _ m =>
    let ha := g.handle i a.toNat
    let hd := g.handle i d.toNat
    match t.ordinary ha, t.current hd with
    | .error e, _ => s.trapAll g m e
    | .ok _, none => s.trapAll g m (stale hd)
    | .ok sa, some e =>
      if !renBlanket e then s.trapAll g m (badFmt hd)
      else if 63 ≤ g.c3 then s.holdLanes g.gid m
      else
        let all := t.slotsOf e
        let ws := if f = 1#1 then all else (all[q.toNat]?).toList
        let tag := (s.slot sa.1 sa.2).tag
        let s := s.postTile g m { op := 0, gid := 0, kind := .spread, dst := none, writes := ws,
                                  src := some { core := sa.1, slot := sa.2, tag := tag, scale := none, zero := none } }
        ws.foldl (fun s a => s.updSlot a fun t => { t with tag := tag }) s)

/-! ### Tags (R366) -/

/-- Sets the tag of every slot that a handle names. -/
def State.setTags' (s : State) (t : Team) (e : DWord) (f : DWord → DWord) : State :=
  (t.slotsOf e).foldl (fun s a => s.updSlot a fun x => { x with tag := f x.tag }) s

/-- `ttag hd, hs, hz, gs, gb`. -/
def execTtag (h a b : BitVec 5) (gs : BitVec 2) (zv : BitVec 1) (gb : BitVec 5) (s : State) : Out :=
  .next (s.tileOnce fun s g t i _ m =>
    let hd := g.handle i h.toNat
    let hs := g.handle i a.toNat
    let hz : BitVec 16 := if zv = 1#1 then g.handle i b.toNat else 0
    match t.current hd with
    | none => s.trapAll g m (stale hd)
    | some e =>
      if (t.current hs).isNone then s.trapAll g m (stale hs)
      else if zv = 1#1 ∧ (t.current hz).isNone then s.trapAll g m (stale hz)
      else s.setTags' t e fun tag =>
        fld tag 48 16 ++ hz ++ hs ++ gb ++ zv ++ 1#1 ++ gs ++ 0#3 ++ fld tag 0 4)

/-- `ttag hd, xval`. -/
def execTtagXval (h : BitVec 5) (xval : BitVec 16) (s : State) : Out :=
  .next (s.tileOnce fun s g t i _ m =>
    let hd := g.handle i h.toNat
    match t.current hd with
    | none => s.trapAll g m (stale hd)
    | some e => s.setTags' t e fun tag => xval ++ fld tag 0 48)

/-! ### TILE_OP_COMPLETE (R367, R383) -/

/-- The bytes that a load's requests have brought, in their places. -/
def loadedTile (rs : List Req) : BitVec 16384 :=
  rs.foldl (fun (d : BitVec 16384) r => r.parts.foldl (fun (d : BitVec 16384) p =>
    let lo := 8 * p.data2.toNat
    d ||| (((p.value &&& maskBits p.len).setWidth 16384) <<< lo)) d) 0

/-- The bytes of a tile that a store's part writes. -/
def Part.fromTile (p : Part) (d : BitVec 16384) : Part :=
  { p with data := ((d >>> (8 * p.data2.toNat)).setWidth 128) &&& maskBits p.len }

/-- The elements of a conversion, `n` of them: each is read, converted and put in its place (R364). -/
def State.convertElems (s : State) (src dst : OpTile) (slice : Nat) (nan : Bool) (d : BitVec 16384) : Nat → BitVec 16384
  | 0 => d
  | n + 1 =>
    let d := s.convertElems src dst slice nan d n
    let fs := tagFmt src.tag
    let fd := tagFmt dst.tag
    let toLarge := decide (tileRows fs * tileK fs < tileRows fd * tileK fd)
    let (fl, fm) := if toLarge then (fd, fs) else (fs, fd)
    let cb := tileK fl / tileK fm
    let r := n / tileK fm
    let c := n % tileK fm
    let rl := slice / cb * tileRows fm + r
    let cl := slice % cb * tileK fm + c
    let (sr, sc, dr, dc) := if toLarge then (r, c, rl, cl) else (rl, cl, r, c)
    putCode d fd dr dc (s.encodeCode dst nan dr dc (s.tileValue src sr sc))

/-- Elements that a conversion moves: those of the smaller tile. -/
def convertCount (fs fd : Nat) : Nat := min (tileRows fs * tileK fs) (tileRows fd * tileK fd)

/-- A tile operation leaves: its slots' counts fall, and its counter counts down. -/
def State.endTile (s : State) (o : TileOp) : State :=
  let reads := (match o.src with
    | some x => x.at' :: x.sides
    | none => []) ++ (match o.dst with
    | some x => x.sides
    | none => [])
  let s := { s with tileOps := s.tileOps.filter fun p => p.op != o.op }
  let s := s.unpost o.op (reads ++ o.writes)
  s.updGroup o.gid fun g => { g with q3 := dropOne o.op g.q3 }

/-- Writes bytes into the slots of an operation. -/
def State.writeSlots (s : State) (o : TileOp) (f : BitVec 16384 → BitVec 16384) : State :=
  o.writes.foldl (fun s a => s.updSlot a fun t => { t with data := f t.data }) s

/-- The requests of a load have returned. -/
def State.loadReturned (s : State) (o : TileOp) : Bool := (s.opReqs o.gid o.op).all fun r => r.done

/-- The first row that a load's answers refuse: its cause and its address (R363). `rb` is the row's size in bytes. -/
def badRow (rs : List Req) (rb : Nat) : Option TileErr :=
  let bad := rs.flatMap fun r => r.parts.filter fun p => p.trap != 0#64
  match bad.find? fun p => bad.all fun q => decide (p.data2.toNat ≤ q.data2.toNat) with
  | some p => some (p.trap, p.va - BitVec.ofNat 64 (p.data2.toNat % rb))
  | none => none

/-- A load whose row is refused: every performing lane traps with that row's cause and address, and the slot stays (R363,
R384). -/
def State.loadFails (s : State) (o : TileOp) (rs : List Req) (e : TileErr) : State :=
  s.trapBack o.gid rs ((rs.flatMap fun r => r.held).map fun h => { lane := h.1, cause := e.1, va := e.2 })

def execTileOpComplete (op : Nat) (s : State) : Out :=
  .next (match s.tileOps.find? fun o => o.op == op with
    | none => s
    | some o =>
      let reads := (match o.src with
        | some x => x.at' :: x.sides
        | none => []) ++ (match o.dst with
        | some x => x.sides
        | none => [])
      if !s.slotsReady op reads o.writes then s
      else
        match o.kind with
        | .load =>
          if !s.loadReturned o then s
          else
            let rs := s.opReqs o.gid op
            let rb := match o.writes with
              | a :: _ => tileRowBytes (tagFmt (s.slot a.1 a.2).tag)
              | [] => 128
            let s := match badRow rs rb with
              | some e => s.loadFails o rs e
              | none => s.writeSlots o fun _ => loadedTile rs
            (s.dropOp o.gid op).endTile o
        | .store =>
          let d := match o.src with
            | some x => (s.slot x.core x.slot).data
            | none => 0
          let fill := fun (r : Req) =>
            if r.gid = o.gid ∧ r.op = op then { r with parts := r.parts.map fun p => p.fromTile d } else r
          ({ s with reqs := s.reqs.map fill } : State).endTile o
        | .convert slice nan =>
          match o.src, o.dst with
          | some x, some y =>
            let d := s.convertElems x y slice nan (s.slot y.core y.slot).data (convertCount (tagFmt x.tag) (tagFmt y.tag))
            (s.writeSlots o fun _ => d).endTile o
          | _, _ => s.endTile o
        | .spread =>
          match o.src with
          | some x => (s.writeSlots o fun _ => (s.slot x.core x.slot).data).endTile o
          | none => s.endTile o)

end Sys2Proof.Machine
end

