-- ==== Sys2Proof/Machine/Matrix.lean ====
section
/-! DEFINITION. The matrix engine (R267, R368 to R384, R441): accumulators, passes, the reservation table, ownership,
streams, drains and epilogue bindings. -/

namespace Sys2Proof.Machine

/-! ### Accumulator tiles (R368) -/

def State.accTile (s : State) (quad n : Nat) : AccTile := alookup (s.quad quad).acc n AccTile.zero
def State.updAcc (s : State) (quad n : Nat) (f : AccTile → AccTile) : State :=
  s.updQuad quad fun q => { q with acc := aset q.acc n (f (alookup q.acc n AccTile.zero)) }

def AccTile.elem (t : AccTile) (i j : Nat) : Word := (t.elems[32 * i + j]?).getD 0
/-- Row `i`, one element for each column. -/
def AccTile.row (t : AccTile) (i : Nat) : List Word := (List.range 32).map (t.elem i)

/-- The accumulator tiles that an entry names. -/
def ResvEntry.accs (e : ResvEntry) : List Nat :=
  if e.kind == .blanket then [e.acc, e.acc + 1, e.acc + 2, e.acc + 3] else [e.acc]

/-- A posting sets the kind of a tile (R368). -/
def State.setKind (s : State) (quad : Nat) (ns : List Nat) (isInt : Bool) : State :=
  ns.foldl (fun s n => s.updAcc quad n fun t => { t with isInt := isInt }) s

/-! ### The checks of a pass (R354, R368, R369, R371) -/

/-- A failed check of a posting: its cause, and whether the B operand failed. -/
structure PassErr where
  err : TileErr
  onB : Bool
  deriving DecidableEq, Repr

def accRange : TileErr := (causeOf cAccRange 0, noVA cAccRange)
def accKind : TileErr := (causeOf cAccKind 0, noVA cAccKind)
def mxState : TileErr := (causeOf cMxState 0, noVA cMxState)

/-- The accumulator kind of a pair of formats: true for `i32`; none where R369 lists no such pass. -/
def pairKind (fa fb : Nat) : Option Bool :=
  if fa = tI8 ∧ fb = tI8 then some true
  else if [tF16, tBf16, tF8a, tF8b, tF4].contains fa && [tF16, tBf16, tF8a, tF8b, tF4, tQ8, tQ4].contains fb then some false
  else none

/-- K, and the first element of A and of B for a slice (R369, R370). -/
def passK (fa fb : Nat) : Nat := min (tileK fa) (tileK fb)
def passOff (f k slice : Nat) : Nat := if k < tileK f then slice * k else 0
def sliceOk (fa fb slice : Nat) : Bool :=
  passOff fa (passK fa fb) slice < tileK fa && passOff fb (passK fa fb) slice < tileK fb

/-- What a pass that passes its checks reads: the A tile, the B tile or its four quarters, and its kind. -/
structure PassPlan where
  a : OpTile
  b : List OpTile
  isInt : Bool
  deriving DecidableEq, Repr

/-- Captures the tags of a list of slots of one handle. -/
def State.captureAll (s : State) (t : Team) (h : BitVec 16) : List (Nat × Nat) → Except TileErr (List OpTile)
  | [] => .ok []
  | a :: rest =>
    match s.capture t h a with
    | .error e => .error e
    | .ok o =>
      match s.captureAll t h rest with
      | .error e => .error e
      | .ok os => .ok (o :: os)

/-- THE CHECKS OF A POSTING, in order: currency, the quota, the formats, and the kind. -/
def State.planPass (s : State) (t : Team) (ha hb : BitVec 16) (n slice : Nat) (ovr blanket : Bool) : Except PassErr PassPlan :=
  match t.current ha, t.current hb with
  | none, _ => .error ⟨stale ha, false⟩
  | some _, none => .error ⟨stale hb, true⟩
  | some ea, some eb =>
    let width := if blanket then 4 else 1
    if t.accCount < n + width then .error ⟨accRange, false⟩
    else if renBlanket ea then .error ⟨badFmt ha, false⟩
    else if renBlanket eb != blanket then .error ⟨badFmt hb, true⟩
    else
      match t.slotsOf ea with
      | [] => .error ⟨badFmt ha, false⟩
      | sa :: _ =>
        let tag := (s.slot sa.1 sa.2).tag
        match s.captureAll t hb (t.slotsOf eb) with
        | .error e => .error ⟨e, true⟩
        | .ok bs =>
          match bs with
          | [] => .error ⟨badFmt hb, true⟩
          | b0 :: _ =>
            let fa := tagFmt tag
            let fb := tagFmt b0.tag
            if bs.any fun o => o.tag != b0.tag then .error ⟨badFmt hb, true⟩
            else
              match pairKind fa fb with
              | none => .error ⟨badFmt hb, true⟩
              | some isInt =>
                if !sliceOk fa fb slice then .error ⟨badFmt hb, true⟩
                else if !ovr && (List.range width).any fun k =>
                    (s.accTile (t.core / 4) (t.accBase + n + k)).isInt != isInt then .error ⟨accKind, false⟩
                else .ok { a := { core := sa.1, slot := sa.2, tag := tag, scale := none, zero := none }, b := bs, isInt := isInt }

/-! ### The reservation table (R372, R373) -/

/-- An entry with nothing in it. -/
def ResvEntry.zero : ResvEntry :=
  { id := 0, kind := .pass, launch := 0, team := 0, gid := 0, acc := 0, rows := [], b := [], slice := 0, ovr := false,
    isInt := false, counts := [], level := 0, waited := 0, dispatched := false, dst := none, half := 0, fmt := 0,
    epi := none, param := none, zeroAfter := false, engOp := 0 }

/-- Slots that an entry reads other than its A operands. -/
def ResvEntry.sideReads (e : ResvEntry) : List (Nat × Nat) :=
  e.b.flatMap (fun o => o.at' :: o.sides) ++ (match e.param with
    | some o => [o.at']
    | none => [])

def ResvEntry.aReads (e : ResvEntry) : List (Nat × Nat) := e.rows.map fun r => r.2.2.at'
def ResvEntry.dstSlots (e : ResvEntry) : List (Nat × Nat) :=
  match e.dst with
  | some o => [o.at']
  | none => []

/-- The level of a new entry of a launch (R441). -/
def State.resvLevel (s : State) (launch : Nat) : Nat :=
  match s.launch? launch with
  | some l => 3 - l.prio
  | none => 3

/-- Posts a new entry: none when the table of 64 entries is full (R372). -/
def State.postEntry (s : State) (quad : Nat) (e : ResvEntry) : Option State :=
  if 64 ≤ (s.quad quad).resv.length then none
  else
    let (s, id) := s.newId
    let e := { e with id := id, level := s.resvLevel e.launch, rows := e.rows.map fun r => (r.1, id, r.2.2) }
    let s := s.post id (e.aReads ++ e.sideReads) e.dstSlots
    let s := s.updQuad quad fun q => { q with resv := q.resv ++ [e] }
    some (s.updGroup e.gid fun g => g.count 0x06 1)

/-- Two entries have one key (R372). -/
def ResvEntry.sameKey (e f : ResvEntry) : Bool :=
  e.kind == .pass && e.launch == f.launch && e.team == f.team && e.acc == f.acc && e.slice == f.slice && e.ovr == f.ovr &&
    e.isInt == f.isInt && e.b == f.b

/-- The youngest entry that names an accumulator tile. -/
def Quad.youngest (q : Quad) (acc : Nat) : Option ResvEntry := (q.resv.filter fun e => e.accs.contains acc).getLast?

/-- A fold would make a slot that the entry already reads wait for a write that is ordered after that read (R367, log 32). -/
def State.foldBlocked (s : State) (e : ResvEntry) (reads : List (Nat × Nat)) : Bool :=
  reads.any fun a => (e.aReads ++ e.sideReads).contains a && (s.slot a.1 a.2).writers.any fun w => decide (e.id < w)

/-- A quarter-pass folds into the youngest entry on its tile, or forms an entry of its own (R373). -/
def State.postQuarter (s : State) (quad : Nat) (e : ResvEntry) (row : Nat) (a : OpTile) : Option State :=
  let fresh := s.postEntry quad { e with rows := [(row, 0, a)] }
  match (s.quad quad).youngest e.acc with
  | none => fresh
  | some y =>
    if y.sameKey e && !y.dispatched && !(y.rows.any fun r => r.1 == row) && !s.foldBlocked y (a.at' :: e.sideReads) then
      let (s, id) := s.newId
      let s := s.post id [a.at'] []
      let put := fun (x : ResvEntry) =>
        if x.id = y.id then { x with rows := x.rows ++ [(row, id, a)], counts := (x.counts ++ e.counts).eraseDups } else x
      some (s.updQuad quad fun q => { q with resv := q.resv.map put })
    else fresh

def State.postQuarters (s : State) (quad : Nat) (e : ResvEntry) (a : OpTile) : List Nat → Option State
  | [] => some s
  | r :: rs =>
    match s.postQuarter quad e r a with
    | none => none
    | some s => s.postQuarters quad e a rs

/-- A posting of a group on c3: held while the counter or the table has no room (R182, R372). -/
def State.postCounted (s : State) (g : Group) (m : BitVec 64) (post : State → Nat → Option State) : State :=
  if 63 ≤ g.c3 then s.holdLanes g.gid m
  else
    let (t, op) := s.newId
    match post t op with
    | none => s.holdLanes g.gid m
    | some t => t.updGroup g.gid fun g => { g with q3 := g.q3 ++ [op] }

/-- The entry of a pass. -/
def passEntry (g : Group) (t : Team) (op : Nat) (pl : PassPlan) (kind : ResvKind) (n slice : Nat) (ovr : Bool) : ResvEntry :=
  { ResvEntry.zero with
      kind := kind, launch := t.launch, team := t.team, gid := g.gid, acc := t.accBase + n,
      rows := [0, 1, 2, 3].map fun r => (r, 0, pl.a), b := pl.b, slice := slice, ovr := ovr, isInt := pl.isInt,
      counts := [(g.gid, op)] }

/-- Posts the entry of a whole pass or a blanket pass, whose kind stands from now on when it overwrites. -/
def State.postPass (s : State) (g : Group) (t : Team) (op : Nat) (pl : PassPlan) (kind : ResvKind) (n slice : Nat) (ovr : Bool) :
    Option State :=
  let e := passEntry g t op pl kind n slice ovr
  let s := if ovr then s.setKind (t.core / 4) e.accs pl.isInt else s
  s.postEntry (t.core / 4) e

/-- A pass of a group: the checks, and then the posting. -/
def State.passInstr (s : State) (a b : BitVec 5) (n : BitVec 8) (f : BitVec 1) (slice : BitVec 2) (blanket : Bool)
    (post : Group → Team → BitVec 64 → PassPlan → State → Nat → Option State) : State :=
  s.tileOnce fun s g t i _ m =>
    match s.planPass t (g.handle i a.toNat) (g.handle i b.toNat) n.toNat slice.toNat (f == 1#1) blanket with
    | .error e => s.trapAll g m e.err
    | .ok pl => s.postCounted g m (post g t m pl)

/-- `mx.pass` (R371). -/
def execMxPass (r_ : BitVec 2) (a b : BitVec 5) (n : BitVec 8) (f : BitVec 1) (s : State) : Out :=
  .next (s.passInstr a b n f r_ false fun g t _ pl s op => s.postPass g t op pl .pass n.toNat r_.toNat (f == 1#1))

/-- `mx.bpass` (R371). -/
def execMxBpass (r_ : BitVec 2) (a b : BitVec 5) (n : BitVec 8) (f : BitVec 1) (s : State) : Out :=
  .next (s.passInstr a b n f r_ true fun g t _ pl s op => s.postPass g t op pl .blanket n.toNat r_.toNat (f == 1#1))

/-- The row quarters of the quarter-passes: one for each lane quarter with a guard-true lane in the pick (R371). -/
def rowQuarters (g : Group) (m : BitVec 64) (base : Nat) : List Nat :=
  let w := g.guarded m
  ((List.range 8).filter fun u => fldN w (8 * u) 8 != 0).map fun u => (u + base) % 4

/-- `mx.qpass` (R371, R373). -/
def execMxQpass (q r_ : BitVec 2) (a b : BitVec 5) (n : BitVec 8) (f : BitVec 1) (s : State) : Out :=
  .next (s.passInstr a b n f r_ false fun g t m pl s op =>
    let e := passEntry g t op pl .pass n.toNat r_.toNat (f == 1#1)
    let s := if f = 1#1 then s.setKind (t.core / 4) e.accs pl.isInt else s
    s.postQuarters (t.core / 4) e pl.a (rowQuarters g m q.toNat))

/-- The entry of `mx.zero`, whose kind stands from now on (R368, R371). -/
def State.postZero (s : State) (g : Group) (t : Team) (op n : Nat) (isInt : Bool) : Option State :=
  (s.setKind (t.core / 4) [t.accBase + n] isInt).postEntry (t.core / 4)
    { ResvEntry.zero with kind := .zero, launch := t.launch, team := t.team, gid := g.gid, acc := t.accBase + n,
                          isInt := isInt, counts := [(g.gid, op)] }

/-- `mx.zero` (R371). -/
def execMxZero (n : BitVec 8) (f : BitVec 1) (s : State) : Out :=
  .next (s.tileOnce fun s g t _ _ m =>
    if t.accCount ≤ n.toNat then s.trapAll g m accRange
    else s.postCounted g m fun s op => s.postZero g t op n.toNat (f == 1#1))

/-! ### Ownership (R374) -/

/-- The group's place in the order of joining (R374, R457). -/
def State.joinOwners (s : State) (gid : Nat) : State :=
  let n := s.sched.nextSeq
  ({ s with sched := { s.sched with nextSeq := n + 1 } } : State).updGroup gid fun g => { g with joined := n }

/-- A restored owner that has not regained its engine stands in the owner queue, with no lane in `mx.acq` (R459, log 37). -/
def State.regains (s : State) (g : Group) : Bool :=
  (s.quad (quadOf g.core)).ownerQ.contains g.gid && g.waitersOn .owner == 0#64

/-- `mx.acq`. -/
def execMxAcq (s : State) : Out :=
  .next (s.tileOnce fun s g t _ _ m =>
    let quad := t.core / 4
    let q := s.quad quad
    if q.owner = some g.gid ∨ s.regains g then s.trapAll g m mxState
    else if q.owner.isNone && q.stream.isNone && q.ownerQ.isEmpty then (s.joinOwners g.gid).updQuad quad fun q => { q with owner := some g.gid }
    else if q.ownerQ.contains g.gid then s.waitLanes g.gid (g.guarded m) 1 .owner
    else if 64 ≤ q.ownerQ.length then s.holdLanes g.gid m
    else ((s.joinOwners g.gid).updQuad quad fun q => { q with ownerQ := q.ownerQ ++ [g.gid] }).waitLanes g.gid (g.guarded m) 1 .owner)

/-- `mx.rel`. `State.settleOwners` makes the first queued group the owner. A restored owner that has not regained the engine
waits for it (R459, log 37). -/
def execMxRel (s : State) : Out :=
  .next (s.tileOnce fun s g t _ _ m =>
    let quad := t.core / 4
    if s.regains g then s.holdLanes g.gid m
    else if (s.quad quad).owner ≠ some g.gid then s.trapAll g m mxState
    else s.updQuad quad fun q => { q with owner := none })

/-- An owner that has ended owns no more; a free engine whose stream has ended goes to the first queued group. -/
def State.settleOwner (s : State) (quad : Nat) : State :=
  let q := s.quad quad
  let live := fun gid => match s.group? gid with
    | some g => !g.ended
    | none => false
  let owner := match q.owner with
    | some gid => if live gid then some gid else none
    | none => none
  let queue := q.ownerQ.filter live
  if owner.isNone && q.stream.isNone then
    match queue with
    | [] => s.updQuad quad fun q => { q with owner := none, ownerQ := [] }
    | gid :: rest => (s.updQuad quad fun q => { q with owner := some gid, ownerQ := rest }).release gid .owner
  else s.updQuad quad fun q => { q with owner := owner, ownerQ := queue }

def State.settleOwners (s : State) : State := s.quads.foldl (fun s e => s.settleOwner e.1) s

/-! ### Streams (R375 to R377) -/

/-- Starts the stream of an owner, once the operation has been issued. -/
def State.startStream (s : State) (g : Group) (i : Nat) (m : BitVec 64) (b : BitVec 8) (x : XM) (body : List Word) :
    Option State :=
  let quad := quadOf g.core
  let j := scalarNo b
  let rings := g.scalar i (j + 1)
  let f := engineFallbacks x.scope x.order
  let id := s.nextId
  let s := s.issueEngine g m 2 f.2 0
    { EngOp.zero with kind := .stream, scope := f.1, ret := x.ret, dst := g.scalar i (j + 2), started := true } fun _ => []
  if (s.engOp? id).isNone then none
  else
    some (s.updQuad quad fun q =>
      { q with stream := some { op := id, gid := g.gid, count := fldN (g.scalar i j) 0 32, iter := 0, cmd := 0, took := 0,
                                body := body, rings := (List.range 4).map fun x => fld rings (16 * x) 16,
                                cur := [none, none, none, none], statusVA := g.scalar i (j + 2), scope := f.1, stopped := none } })

/-- Lanes of a group go on after the `n` clauses of a body, at `dest`, when their clause ends. -/
def State.passOver (s : State) (gid : Nat) (m : BitVec 64) (n : Nat) (dest : DWord) : State :=
  s.updGroup gid fun g => g.mapLanes m fun _ l => { l with target := some dest, past := n }

/-- `mx.stream` for the lanes of a group, whose body's clauses have been fetched. -/
def State.streamInstr (s : State) (g : Group) (m : BitVec 64) (b : BitVec 8) (x : XM) (n : Nat) (body : List Word)
    (dest : DWord) : State :=
  let q := s.quad (quadOf g.core)
  match g.lead m with
  | none => s.passOver g.gid m n dest
  | some (i, _) =>
    if s.awaits g.gid i || s.regains g then s.holdLanes g.gid m
    else if q.owner ≠ some g.gid then (s.trapAll g m mxState).passOver g.gid (m &&& ~~~g.guarded m) n dest
    else if q.stream.isSome then s.holdLanes g.gid m
    else ((s.passOver g.gid m n dest).startStream g i m b x body).getD (s.holdLanes g.gid m)

/-- `mx.stream sj, end` (R375): every lane of the pick continues after the body, whose clauses the engine captures. -/
def execMxStream (ncl : BitVec 4) (b : BitVec 8) (x : XM) (s : State) : Out :=
  .next (s.forPick fun s gid m =>
    match s.cur, s.group? gid with
    | some p, some g =>
      match s.fetchRun g.core g.guest p.nextClause [] ncl.toNat with
      | (s, .error e) => s.fetchFails gid m e
      | (s, .ok (clauses, dest)) => s.streamInstr g m b x ncl.toNat (clauses.flatMap fun c => c.2) dest
    | _, _ => s)

/-- Status codes of R377. -/
def stDone : Nat := 0
def stStale : Nat := 1
def stFmt : Nat := 2
def stAccRange : Nat := 3
def stAccKind : Nat := 4
def stNoCurrent : Nat := 5
def stBadRing : Nat := 6

/-- The status of a failed check. -/
def PassErr.status (e : PassErr) : Nat :=
  let c := codeOf e.err.1
  if c = cTileStale then stStale else if c = cAccRange then stAccRange else if c = cAccKind then stAccKind else stFmt

/-- Where the stream of a quad stops. -/
def State.stopStream (s : State) (quad : Nat) (status ring hval : Nat) : State :=
  s.updQuad quad fun q => { q with stream := q.stream.map fun st => { st with stopped := some (status, ring, hval) } }

/-- A field of the status word of which the manual states no value (log 31). -/
def State.unstated (s : State) : State × Nat := ({ s with fresh := s.fresh + 1 }, (Config.unstated s.fresh).toNat)

/-- A stream stops where the manual states no handle value. -/
def State.stopNoHandle (s : State) (quad status ring : Nat) : State :=
  let (s, v) := s.unstated
  s.stopStream quad status ring (v % 65536)

/-- The stash line that a ring descriptor names, with its core: none for a bad ring. -/
def State.streamRing (s : State) (t : Team) (d : BitVec 16) : Option (Nat × Nat) :=
  let core := t.quadBase + fldN d 8 2
  let line := t.stashAt core + fldN d 0 8
  let mine := if t.quadTeam then true else core == t.core
  if d.getLsbD 15 && mine && decide (fldN d 0 8 < t.stashLines) && !s.badRing core line then some (core, line) else none

/-- Takes the next value of a ring for a command: the stream waits while the ring is empty, or stops (R375). -/
def State.streamTake (s : State) (quad : Nat) (st : Stream) (t : Team) (x : Nat) : State :=
  match s.streamRing t ((st.rings[x]?).getD 0) with
  | none => s.stopNoHandle quad stBadRing x
  | some (core, line) =>
    let l := s.sline core line
    if ringCount l.data = 0 then s
    else
      let h := (ringTaken l.data).1
      let s := s.setSline core line { l with data := (ringTaken l.data).2 }
      match t.current h with
      | none => s.stopStream quad stStale x h.toNat
      | some e =>
        if renState e ≠ rsTransit then s.stopStream quad stStale x h.toNat
        else
          let s := s.setRename t (hLh h) (renWith e rsHeld)
          let s := match (st.cur[x]?).bind id, s.team? t.launch t.team with
            | some old, some t => if t.held old then s.releaseHandle t old else s
            | _, _ => s
          s.updQuad quad fun q => { q with stream := q.stream.map fun st =>
            { st with took := st.took + 1, cur := st.cur.mapIdx fun k c => if k = x then some h else c } }

/-- The next command of a stream. -/
def Stream.advance (st : Stream) : Stream :=
  if st.cmd + 1 < st.body.length then { st with cmd := st.cmd + 1, took := 0 }
  else { st with cmd := 0, took := 0, iter := st.iter + 1 }

/-- Posts a command whose rings have given their values, or stops the stream. -/
def State.streamPost (s : State) (quad : Nat) (st : Stream) (g : Group) (t : Team) (w : Word) : State :=
  let op := fldN w 24 8
  let n := fldN w 1 8
  let f := w.getLsbD 0
  let done := fun (r : Option State) => match r with
    | none => s
    | some s => s.updQuad quad fun q => { q with stream := q.stream.map Stream.advance }
  if op = 0x1A then
    if t.accCount ≤ n then s.stopNoHandle quad stAccRange 0 else done (s.postZero g t st.op n f)
  else
    let ra := fldN w 14 2
    let rb := fldN w 9 2
    match (st.cur[ra]?).bind id, (st.cur[rb]?).bind id with
    | none, _ => s.stopNoHandle quad stNoCurrent ra
    | some _, none => s.stopNoHandle quad stNoCurrent rb
    | some ha, some hb =>
      match s.planPass t ha hb n (fldN w 19 2) f (op == 0x14) with
      | .error e =>
        if e.status = stAccRange ∨ e.status = stAccKind then
          let (s, v) := s.unstated
          s.stopStream quad e.status (v / 65536 % 4) (v % 65536)
        else s.stopStream quad e.status (if e.onB then rb else ra) (e.err.2.toNat % 65536)
      | .ok pl => done (s.postPass g t st.op pl (if op = 0x14 then .blanket else .pass) n (fldN w 19 2) f)

/-- The group is frozen, or gone. -/
def State.gidFrozen (s : State) (gid : Nat) : Bool :=
  match s.group? gid with
  | some g => g.frozen || !g.resident
  | none => false

/-- STREAM_COMMAND: one value is taken from a ring, or the command is posted, or the stream stops. -/
def execStreamCommand (quad : Nat) (s : State) : Out :=
  .next (match (s.quad quad).stream with
    | none => s
    | some st =>
      match s.group? st.gid with
      | none => s
      | some g =>
        match s.team? g.launch g.team with
        | none => s
        | some t =>
          if st.stopped.isSome || decide (st.count ≤ st.iter) || g.frozen then s
          else
            match st.body[st.cmd]? with
            | none => s.updQuad quad fun q => { q with stream := q.stream.map Stream.advance }
            | some w =>
              let refs := if fldN w 24 8 = 0x1A then [] else [fldN w 14 5, fldN w 9 5]
              match refs[st.took]? with
              | none => s.streamPost quad st g t w
              | some r =>
                if r / 4 % 2 = 1 then s.streamTake quad st t (r % 4)
                else s.updQuad quad fun q => { q with stream := q.stream.map fun st => { st with took := st.took + 1 } })

/-- The status word (R377). -/
def streamWord (iter cmd ring hval status : Nat) : DWord :=
  BitVec.ofNat 32 iter ++ BitVec.ofNat 4 cmd ++ BitVec.ofNat 2 ring ++ 0#2 ++ BitVec.ofNat 16 hval ++ BitVec.ofNat 8 status

/-- The stream has come to its end, and its entries have finished. -/
def Quad.streamOver (q : Quad) (st : Stream) : Bool :=
  (st.stopped.isSome || decide (st.count ≤ st.iter)) && q.resv.all fun e => !e.counts.contains (st.gid, st.op)

/-- STREAM_END: the status word is written, the rings' current handles are released, and the stream completes (R375, R377,
R151). -/
def execStreamEnd (quad : Nat) (s : State) : Out :=
  .next (match (s.quad quad).stream with
    | none => s
    | some st =>
      match s.engOp? st.op with
      | none => s.updQuad quad fun q => { q with stream := none }
      | some o =>
        if !(s.quad quad).streamOver st || s.gidFrozen st.gid || !s.released o.core o.after then s
        else
          let iter := if st.stopped.isSome then st.iter else st.count
          let w := match st.stopped with
            | some (status, ring, hval) => streamWord st.iter st.cmd ring hval status
            | none => streamWord st.count 0 0 0 stDone
          let at' := st.statusVA.toNat % 128
          match s.engWrite o st.statusVA (byteMask at' 8) ((w.setWidth 1024 : LineData) <<< (8 * at')) [(0, 0)] with
          | (s, .wait, _) => s
          | (s, got, _) =>
            let cause := match got with
              | .stop c => c
              | _ => if st.stopped.isSome then engStream else 0
            let s := match s.group? st.gid with
              | none => s
              | some g => st.cur.foldl (fun s h =>
                  match h, s.team? g.launch g.team with
                  | some h, some t => if t.held h then s.releaseHandle t h else s
                  | _, _ => s) s
            (s.updQuad quad fun q => { q with stream := none }).endEngine (o.fail cause iter))

/-! ### Epilogues (R381, R382) -/

/-- `mx.epi hp, name` (R381). -/
def execMxEpi (h : BitVec 5) (x : XM) (s : State) : Out :=
  .next (s.tileOnce fun s g t i _ m =>
    match s.cur with
    | none => s
    | some p =>
      let hv := g.handle i h.toNat
      let bound := x.mode.getLsbD 0
      if bound && (t.current hv).isNone then s.trapAll g m (stale hv)
      else s.updGroup g.gid fun g =>
        { g with epi := some { param := if bound then some hv else none, entry := p.relative x.off } })

/-- The clause that a unit of the quad reads at an address. -/
def State.unitClause (s : State) (quad guest : Nat) (pc : DWord) : State × Option (Word × List Word) :=
  match s.translate none quad guest pc .fetch with
  | (s, .ok t) => (s, match s.fetchAt t pc with
    | .ok c => some c
    | .error _ => none)
  | (s, .error _) => (s, none)

/-- Offset at which the epilogue that begins at an offset of an admitted kernel ends (R381, log 34). -/
def State.epilogueEnd (s : State) (kernel off : Nat) : Option Nat :=
  (s.trusted.epilogues.find? fun e => e.1 == kernel && e.2.1 == off).map fun e => e.2.2

/-- The clauses from an address up to an end, at most `fuel`. -/
def State.clausesTo (s : State) (quad guest : Nat) (pc stop : DWord) (acc : List (Word × List Word)) :
    Nat → State × Option (List (Word × List Word))
  | 0 => (s, some acc)
  | fuel + 1 =>
    if stop.toNat ≤ pc.toNat then (s, some acc)
    else
      match s.unitClause quad guest pc with
      | (s, none) => (s, none)
      | (s, some c) => s.clausesTo quad guest (pc + BitVec.ofNat 64 (4 * (1 + hdrWords c.1))) stop (acc ++ [c]) fuel

/-- The clauses of an epilogue: from its entry to its end, as its kernel was admitted (R223, R381). None while
the code cannot be read (log 34). -/
def State.epilogueCode (s : State) (quad launch : Nat) (entry : DWord) : State × Option (List (Word × List Word)) :=
  match s.launch? launch with
  | none => (s, none)
  | some l =>
    let off := (entry - l.code).toNat
    match s.epilogueEnd l.kernel off with
    | none => (s, none)
    | some last => s.clausesTo quad l.guest entry (l.code + BitVec.ofNat 64 last) [] ((last - off) / 8 + 1)

/-! ### Drains (R378 to R380) -/

/-- The checks of a drain, in order: the binding, its parameter tile, the quota, and the kind (R378, R382). -/
def State.planDrain (s : State) (g : Group) (t : Team) (n : Nat) (epi wantInt : Bool) :
    Except TileErr (Option Epilogue × Option OpTile) :=
  let bind : Except TileErr (Option Epilogue × Option OpTile) :=
    if !epi then .ok (none, none)
    else
      match g.epi with
      | none => .error mxState
      | some e =>
        match e.param with
        | none => .ok (some e, none)
        | some h =>
          match t.ordinary h with
          | .error x => .error x
          | .ok a =>
            if tagFmt (s.slot a.1 a.2).tag = tF32 then
              .ok (some e, some { core := a.1, slot := a.2, tag := (s.slot a.1 a.2).tag, scale := none, zero := none })
            else .error (badFmt h)
  match bind with
  | .error e => .error e
  | .ok r =>
    if t.accCount ≤ n then .error accRange
    else if (s.accTile (t.core / 4) (t.accBase + n)).isInt != wantInt then .error accKind
    else .ok r

/-- The entry of a drain. -/
def drainEntry (g : Group) (t : Team) (kind : ResvKind) (n fmt : Nat) (zero : Bool) (r : Option Epilogue × Option OpTile) :
    ResvEntry :=
  { ResvEntry.zero with kind := kind, launch := t.launch, team := t.team, gid := g.gid, acc := t.accBase + n, fmt := fmt,
                        epi := r.1, param := r.2, zeroAfter := zero }

/-- Posts the entry of a drain that is an engine operation, once the operation has been issued. -/
def State.postDrain (s : State) (quad : Nat) (e : ResvEntry) (issue : State → State) : State :=
  let id := s.nextId
  let s := issue s
  if (s.engOp? id).isNone then s else (s.postEntry quad { e with engOp := id }).getD s

/-- The table of a quad is full. -/
def State.resvFull (s : State) (quad : Nat) : Bool := decide (64 ≤ (s.quad quad).resv.length)

/-- Bytes of a row of an output format. -/
def drainRowBytes (fmt : Nat) : Nat := if fmt < 2 then 128 else 64

/-- The lines of the rows of a drain, in ranges, the last first: rows that share or adjoin lines are one range (R148, R378,
log 35). -/
def drainRanges (ptr stride rb : Nat) : Nat → List (Nat × Nat)
  | 0 => []
  | n + 1 =>
    let lo := (ptr + stride * n) / 128
    let hi := (ptr + stride * n + rb - 1) / 128
    match drainRanges ptr stride rb n with
    | (a, b) :: rest => if lo ≤ b + 1 then (a, max b hi) :: rest else (lo, hi) :: (a, b) :: rest
    | [] => [(lo, hi)]

/-- `mx.drain.mem addr, n, stride` (R378). -/
def execMxDrainMem (a b : BitVec 8) (x : XM) (s : State) : Out :=
  .next (s.tileOnce fun s g t i l m =>
    let fmt := fldN x.mode 0 2
    let n := (src32 g i l b).toNat
    let rb := drainRowBytes fmt
    let stride := if x.off = 0 then rb else x.off.toNat
    let ptr := src64 g i l a
    let f := engineFallbacks x.scope x.order
    match s.planDrain g t n (x.mode.getLsbD 2) (fmt == 1) with
    | .error e => s.trapAll g m e
    | .ok r =>
      if s.resvFull (t.core / 4) then s.holdLanes g.gid m
      else
        s.postDrain (t.core / 4) (drainEntry g t .drainMem n fmt (x.mode.getLsbD 3) r) fun s =>
          s.issueEngine g m 2 f.2 0
            { EngOp.zero with kind := .drainMem, scope := f.1, ret := x.ret, dst := ptr, lines := 32, rowBytes := rb, stride := stride }
            fun opid => (drainRanges ptr.toNat stride rb 32).reverse.flatMap fun r =>
              s.rangeOf g true false .drainMem (BitVec.ofNat 64 (128 * r.1)) (r.2 + 1 - r.1) opid)

/-- The output format of a drain to a tile: the code of R378, or none for a tile that takes no drain. -/
def drainFmt (f : Nat) : Option Nat :=
  if f = tF32 then some 0 else if f = tI32 then some 1 else if f = tBf16 then some 2 else if f = tF16 then some 3 else none

/-- `mx.drain.tile hd, acc[n], h` (R379). -/
def execMxDrainTile (d : BitVec 5) (z h : BitVec 1) (n : BitVec 8) (f : BitVec 1) (s : State) : Out :=
  .next (s.tileOnce fun s g t i _ m =>
    let hd := g.handle i d.toNat
    match t.ordinary hd with
    | .error e => s.trapAll g m e
    | .ok a =>
      match drainFmt (tagFmt (s.slot a.1 a.2).tag) with
      | none => s.trapAll g m (badFmt hd)
      | some fmt =>
        match s.planDrain g t n.toNat (f == 1#1) (fmt == 1) with
        | .error e => s.trapAll g m e
        | .ok r =>
          s.postCounted g m fun s op =>
            s.postEntry (t.core / 4)
              { (drainEntry g t .drainTile n.toNat fmt (z == 1#1) r) with
                  dst := some { core := a.1, slot := a.2, tag := (s.slot a.1 a.2).tag, scale := none, zero := none },
                  half := h.toNat, counts := [(g.gid, op)] })

/-- `mx.drain.coll si, sj` (R380). -/
def execMxDrainColl (e z : BitVec 1) (a b : BitVec 8) (x : XM) (s : State) : Out :=
  .next (s.tileOnce fun s g t i _ m =>
    let n := fldN (g.scalar i (scalarNo b)) 0 8
    let ctrl := g.scalar i (scalarNo b + 1)
    let f := engineFallbacks x.scope x.order
    match s.planDrain g t n (e == 1#1) (collFmt ctrl == 8) with
    | .error e => s.trapAll g m e
    | .ok r =>
      if s.resvFull (t.core / 4) then s.holdLanes g.gid m
      else
        s.postDrain (t.core / 4) (drainEntry g t .drainColl n (if collFmt ctrl = 8 then 1 else 0) (z == 1#1) r) fun s =>
          s.issueColl g m 2 f.2
            { EngOp.zero with kind := .drainColl, scope := f.1, ret := x.ret, dst := linePtr (g.scalar i (scalarNo a)), lines := 32,
                              rlen := g.scalar i (scalarNo a + 1), ctrl := ctrl }
            fun _ => [])

/-! ### RESERVATION_DISPATCH (R373, R441) -/

/-- The clauses of an entry's epilogue, if it runs one. -/
def State.entryCode (s : State) (quad : Nat) (e : ResvEntry) : State × Option (List (Word × List Word)) :=
  match e.epi with
  | none => (s, some [])
  | some x => s.epilogueCode quad e.launch x.entry

/-- An entry is eligible: no older entry names its tile, and no earlier write of a slot that it uses is pending. -/
def State.eligible (s : State) (quad : Nat) (e : ResvEntry) : Bool :=
  let older := (s.quad quad).resv.takeWhile fun o => o.id != e.id
  (older.all fun o => !(o.accs.any fun n => e.accs.contains n)) && (e.rows.all fun r => s.slotsReady r.2.1 [r.2.2.at'] []) &&
    s.slotsReady e.id e.sideReads e.dstSlots && !s.gidFrozen e.gid

/-- The entry with the highest level, the earliest of them (R441). -/
def bestEntry : List ResvEntry → Option ResvEntry
  | [] => none
  | e :: es =>
    match bestEntry es with
    | none => some e
    | some f => if e.level < f.level then some f else some e

def execReservationDispatch (quad : Nat) (s : State) : Out :=
  .next (
    let q := s.quad quad
    if s.plat.throttled || (q.resv.any fun e => e.dispatched) then s
    else
      match bestEntry (q.resv.filter fun e => s.eligible quad e && (s.entryCode quad e).2.isSome) with
      | none => q.resv.foldl (fun s e => (s.entryCode quad e).1) s
      | some e => s.updQuad quad fun q =>
          { q with resv := q.resv.map fun (x : ResvEntry) => if x.id = e.id then { x with dispatched := true } else x })

/-- LEVEL_AGING: another 256 engine cycles have passed (R441). -/
def execLevelAging (quad entry : Nat) (s : State) : Out :=
  .next (s.updQuad quad fun q => { q with resv := q.resv.map fun (e : ResvEntry) =>
    if e.id = entry ∧ !e.dispatched then { e with level := min 3 (e.level + 1), waited := e.waited + 1 } else e })

/-! ### PASS_COMPLETE (R370, R378 to R380) -/

/-- The exact sum of a block (R267, R370). -/
def State.blockSum (s : State) (a b : OpTile) (i j oa ob blk : Nat) : Exact :=
  ((List.range 32).foldl (fun (acc : Exact) k =>
    acc.add false ((s.tileValue a i (oa + 32 * blk + k)).mul (s.tileValue b j (ob + 32 * blk + k)))) (Exact.fin false 0 0)).plusZero

/-- One element of a pass (R370). -/
def State.passElem (s : State) (e : ResvEntry) (a b : OpTile) (i j : Nat) (acc : Word) : Word :=
  let k := passK (tagFmt a.tag) (tagFmt b.tag)
  let oa := passOff (tagFmt a.tag) k e.slice
  let ob := passOff (tagFmt b.tag) k e.slice
  (List.range (k / 32)).foldl (fun (acc : Word) blk =>
    let x := s.blockSum a b i j oa ob blk
    if e.isInt then acc + BitVec.ofInt 32 (exactInt x) else toF32 .ne ((xf acc).add false x)) (if e.ovr then 0 else acc)

/-- A pass on one accumulator tile with a B tile. -/
def State.passTile (s : State) (quad : Nat) (e : ResvEntry) (n : Nat) (b : OpTile) : State :=
  let t := s.accTile quad n
  s.updAcc quad n fun _ =>
    { t with elems := (List.range 1024).map fun x =>
        match e.rows.find? fun r => r.1 == x / 256 with
        | some r => s.passElem e r.2.2 b (x / 32) (x % 32) (t.elem (x / 32) (x % 32))
        | none => t.elem (x / 32) (x % 32) }

/-- The code that a drain writes for an element (R378). -/
def drainCode (fmt : Nat) (x : Word) : Nat :=
  if fmt = 2 then bf16.round .ne (xf x) else if fmt = 3 then f16.round .ne (xf x) else x.toNat

/-- The bytes of a row. -/
def drainLine (fmt : Nat) (xs : List Word) : LineData :=
  let w := if fmt < 2 then 32 else 16
  (xs.zipIdx).foldl (fun (d : LineData) e => d ||| (BitVec.ofNat 1024 (drainCode fmt e.1) <<< (w * e.2))) 0

/-- The rows that a drain takes from its tile, after the epilogue whose clauses are given. -/
noncomputable def State.drainedRows (s : State) (quad : Nat) (e : ResvEntry) (code : List (Word × List Word)) : List (List Word) :=
  let t := s.accTile quad e.acc
  (List.range 32).map fun i =>
    if e.epi.isNone then t.row i
    else s.epilogueRow code (e.param.map fun o => (s.slot o.core o.slot).data) i (t.row i)

/-- What a dispatched entry does. -/
noncomputable def State.performEntry (s : State) (quad : Nat) (e : ResvEntry) (code : List (Word × List Word)) : State :=
  let zeroed := fun (s : State) => if e.zeroAfter then s.updAcc quad e.acc fun t => { t with elems := [] } else s
  match e.kind with
  | .pass => match e.b with
    | b :: _ => s.passTile quad e e.acc b
    | [] => s
  | .blanket => (e.b.zipIdx).foldl (fun s x => s.passTile quad e (e.acc + x.2) x.1) s
  | .zero => s.updAcc quad e.acc fun t => { t with elems := [] }
  | .drainTile =>
    let rows := s.drainedRows quad e code
    let mine := if e.fmt < 2 then (rows.drop (16 * e.half)).take 16 else rows
    let d := ((mine.map (drainLine e.fmt)).zipIdx).foldl (fun (d : BitVec 16384) x =>
      d ||| ((x.1.setWidth 16384 : BitVec 16384) <<< (8 * drainRowBytes e.fmt * x.2))) 0
    zeroed (e.dstSlots.foldl (fun s a => s.updSlot a fun t => { t with data := d }) s)
  | .drainMem =>
    let rows := (s.drainedRows quad e code).map (drainLine e.fmt)
    zeroed (s.updEng e.engOp fun o => { o with rows := rows, ready := true })
  | .drainColl =>
    let rows := (s.drainedRows quad e code).map (drainLine e.fmt)
    zeroed (s.updEng e.engOp fun o => { o with captured := rows })

/-- An entry leaves the table: its scoreboard counts fall, and c3 counts down for each posting whose last entry it is. -/
def State.retireEntry (s : State) (quad : Nat) (e : ResvEntry) : State :=
  let s := s.updQuad quad fun q => { q with resv := q.resv.filter fun x => x.id != e.id }
  let slots := e.aReads ++ e.sideReads ++ e.dstSlots
  let s := ((e.id :: e.rows.map fun r => r.2.1).eraseDups).foldl (fun s id => s.unpost id slots) s
  e.counts.foldl (fun s c =>
    if (s.quad quad).resv.any fun x => x.counts.contains c then s
    else s.updGroup c.1 fun g => { g with q3 := dropOne c.2 g.q3 }) s

noncomputable def execPassComplete (quad entry : Nat) (s : State) : Out :=
  .next (match (s.quad quad).resv.find? fun e => e.id == entry with
    | none => s
    | some e =>
      match s.entryCode quad e with
      | (s, none) => s
      | (s, some code) => if e.dispatched then (s.performEntry quad e code).retireEntry quad e else s)

end Sys2Proof.Machine
end

