-- ==== Sys2Proof/Machine/Inval.lean ====
section
/-! DEFINITION. Invalidation queues and their commands (R42 to R46). -/

namespace Sys2Proof.Machine

/-! ### Rings (R43) -/

/-- TAIL and HEAD of a ring. -/
def Queue.tailN (q : Queue) : Nat := fldN q.tail 0 12
def Queue.headN (q : Queue) : Nat := fldN q.head 0 12
def Queue.en (q : Queue) : Bool := q.ctrl.getLsbD 0
def Queue.err (q : Queue) : Bool := q.ctrl.getLsbD 1
def Queue.page (q : Queue) : Nat := fldN q.base 16 32

/-- A write of TAIL, unless its advance exceeds the free slots (R43). -/
def Queue.advanceTail (q : Queue) (v : DWord) : Option Queue :=
  let new := fldN v 0 12
  let adv := (new + 4096 - q.tailN) % 4096
  let free := 4095 - (q.tailN + 4096 - q.headN) % 4096
  if adv ≤ free then some { q with tail := BitVec.ofNat 64 new } else none

def Queue.next (q : Queue) : Queue := { q with head := BitVec.ofNat 64 ((q.headN + 1) % 4096) }
def Queue.stop (q : Queue) : Queue := { q with ctrl := q.ctrl ||| 2#64 }
def Queue.clearErr (q : Queue) : Queue := { q with ctrl := q.ctrl &&& ~~~(2#64) }

/-- Number of the hypervisor's queue. -/
def hyperQueue : Nat := 4096

def State.iq (s : State) (q : Nat) : Queue := alookup s.xlate.iqs q Queue.empty
def State.setIq (s : State) (q : Nat) (x : Queue) : State :=
  { s with xlate := { s.xlate with iqs := aset s.xlate.iqs q x } }

/-- IQ_TAIL_WRITE: a write of IQ.TAIL; one that would pass HEAD is discarded and logged. -/
def execIqTailWrite (q : Nat) (v : BitVec 64) (s : State) : Out :=
  .next (match (s.iq q).advanceTail v with
    | some x => s.setIq q x
    | none => s.log (.queueOverrun q))

/-- IQ_ERR_CLEAR: software writes 1 to ERR, and the device resumes at HEAD. -/
def execIqErrClear (q : Nat) (s : State) : Out := .next (s.setIq q (s.iq q).clearErr)

/-! ### Commands (R42, R43) -/

def cmdOp (c : BitVec 128) : Nat := fldN c 0 4
def cmdGuest (c : BitVec 128) : Nat := fldN c 4 12
def cmdCount (c : BitVec 128) : Nat := fldN c 16 16 + 1
def cmdData (c : BitVec 128) : Word := fld c 32 32
def cmdAddr (c : BitVec 128) : DWord := fld c 64 64

/-- The queue's owner, or the guest that a command of the hypervisor names. -/
def targetGuest (q : Nat) (c : BitVec 128) : Nat := if q = hyperQueue then cmdGuest c else q

/-- Field and range errors of a command, SYNC's address apart (R43). -/
def cmdBad (q : Nat) (c : BitVec 128) : Bool :=
  let a := (cmdAddr c).toNat
  match cmdOp c with
  | 1 => fldN c 32 32 != 0 || a % 65536 != 0 || decide (2 ^ 55 < a + 65536 * cmdCount c)
  | 2 => fldN c 16 48 != 0 || a != 0
  | 3 => fldN c 32 32 != 0 || a % 65536 != 0 || decide (2 ^ 48 < a + 65536 * cmdCount c) || q != hyperQueue
  | 4 => fldN c 16 48 != 0 || a != 0 || q != hyperQueue
  | 5 => fldN c 16 16 != 0 || a % 4 != 0
  | _ => true

/-- Drops entries from every TLB of the device. -/
def State.dropTlbs (s : State) (p : TlbEntry → Bool) : State :=
  let keep := fun (l : List TlbEntry) => l.filter fun e => !p e
  { s with cores := s.cores.map fun c => (c.1, { c.2 with itlb := keep c.2.itlb, dtlb := keep c.2.dtlb }),
           quads := s.quads.map fun q => (q.1, { q.2 with l2tlb := keep q.2.l2tlb }) }

/-- Drops entries from every walk cache. -/
def State.dropWalks (s : State) (p : WalkEntry → Bool) : State :=
  { s with xlate := { s.xlate with walkCaches := s.xlate.walkCaches.map fun w => (w.1, w.2.filter fun e => !p e) } }

/-- The command at the head of a queue, when the device may consume it. -/
def State.headCommand (s : State) (q : Nat) : Option (BitVec 128) :=
  let x := s.iq q
  if x.en && !x.err && x.headN != x.tailN && !(s.xlate.syncs.any fun y => y.1 == q) then
    some (readLE s.mem (65536 * x.page + 16 * x.headN) 128 16)
  else none

/-- The device consumes the command at the head of a queue, when it has the operation code; a command in error
stops the queue with HEAD at it (R43). -/
def State.consume (s : State) (q op : Nat) (f : State → BitVec 128 → State) : Out :=
  .next (match s.headCommand q with
    | none => s
    | some c =>
      match s.devReadable (65536 * (s.iq q).page + 16 * (s.iq q).headN) 16 with
      | (s, false) => s
      | (s, true) =>
        if cmdOp c ≠ op ∧ 1 ≤ cmdOp c ∧ cmdOp c ≤ 5 then s
        else if cmdBad q c then s.setIq q (s.iq q).stop
        else f s c)

/-- A command has been performed. -/
def State.retire (s : State) (q : Nat) : State := s.setIq q (s.iq q).next

/-- Changes the record of a guest's descriptor in use. -/
def State.updDesc (s : State) (guest : Nat) (f : DescUse → DescUse) : State :=
  { s with xlate := { s.xlate with descs := s.xlate.descs.map fun d => if d.guest = guest then f d else d } }

/-- A SYNC of a queue has completed: the invalidations of descriptors before it have, too, and a descriptor for which
both an `INV_S1_ALL` and an `INV_S2_ALL` have completed is read anew (R35, R45). -/
def State.syncDescs (s : State) (q : Nat) : State :=
  let step := fun (d : DescUse) => { d with s1done := d.s1done || d.s1.contains q, s2done := d.s2done || d.s2.contains q }
  { s with xlate := { s.xlate with descs := (s.xlate.descs.map step).filter fun d => !(d.s1done && d.s2done) } }

/-- Pages `lo` to `lo + n - 1` meet a window. -/
def windowMeets (window lo n : Nat) : Bool := decide (32 * window < lo + n) && decide (lo < 32 * window + 32)

def execInvS1Va (q : Nat) (s : State) : Out :=
  s.consume q 1 fun s c =>
    (s.dropTlbs fun e => e.guest == targetGuest q c && windowMeets e.window ((cmdAddr c).toNat / 65536) (cmdCount c)).retire q

def execInvS1All (q : Nat) (s : State) : Out :=
  s.consume q 2 fun s c =>
    (((s.dropTlbs fun e => e.guest == targetGuest q c).dropWalks fun w => w.guest == targetGuest q c && !w.stage2).updDesc
      (targetGuest q c) fun d => { d with s1 := q :: d.s1 }).retire q

def execInvS2Ipa (q : Nat) (s : State) : Out :=
  s.consume q 3 fun s c =>
    let lo := (cmdAddr c).toNat / 65536
    ((s.dropTlbs fun e => e.guest == targetGuest q c && e.ipas.any fun p => decide (lo ≤ p) && decide (p < lo + cmdCount c)).dropWalks
      fun w => w.guest == targetGuest q c && w.stage2).retire q

def execInvS2All (q : Nat) (s : State) : Out :=
  s.consume q 4 fun s c =>
    (((s.dropTlbs fun e => e.guest == targetGuest q c).dropWalks fun w => w.guest == targetGuest q c).updDesc
      (targetGuest q c) fun d => { d with s2 := q :: d.s2 }).retire q

/-- Where a SYNC's completion word goes. -/
inductive SyncTo where
  /-- a command error (R43) -/
  | bad
  /-- the device's walk must wait -/
  | wait
  | at' (pa : Nat)
  deriving DecidableEq, Repr

/-- A physical address that a SYNC may write. -/
def State.syncPlace (s : State) (pa : Nat) : SyncTo := if isHbm (pa / 65536) && !s.inCarve pa then .at' pa else .bad

/-- The physical address that a SYNC writes, with the checks of R38 for a store: through stage 2 on the queue of a guest
that has one, whose descriptor must be valid and well formed (R43, R45). -/
def State.syncTarget (s : State) (q : Nat) (a : Nat) : State × SyncTo :=
  let d := s.guestDesc q
  let fail := fun (e : XErr) => if e.waits then (s.walkAsks e, SyncTo.wait) else (s, .bad)
  if q = hyperQueue then (s, s.syncPlace a)
  else
    match s.descWaits q with
    | some e => fail e
    | none =>
      if !d.valid || !d.ok then (s, .bad)
      else if !d.s2en then (s, s.syncPlace a)
      else if 2 ^ 48 ≤ a then (s, .bad)
      else
        match s.walk2 [] q d.s2root (a / 65536) with
        | .error e => fail e
        | .ok (e, a2, _) =>
          let leaf : List Leaf := [⟨a2, e, none⟩]
          if !leafWr e || leafRemote e then (s, .bad)
          else
            match s.syncPlace (65536 * leafPpn e + a % 65536), (s.leafChecks accBit leaf).or (s.leafChecks dirtyBit leaf) with
            | .bad, _ => (s, .bad)
            | _, some x => fail x
            | place, none => ((s.setLeaves accBit leaf).setLeaves dirtyBit leaf, place)

/-- SYNC: the command is taken up; its completion follows when everything before it has taken effect (R45). -/
def execSync (q : Nat) (s : State) : Out :=
  s.consume q 5 fun s c =>
    match s.syncTarget q (cmdAddr c).toNat with
    | (s, .bad) => s.setIq q (s.iq q).stop
    | (s, .wait) => s
    | (s, .at' _) =>
      { s with xlate := { s.xlate with syncs := s.xlate.syncs ++ [(q, s.nextId, cmdAddr c, cmdData c)] } }

/-- A guest's accesses from before a moment have performed (R45). -/
def State.accessesDone (s : State) (q before : Nat) : Bool :=
  let mine := fun gid => match s.group? gid with
    | some g => q == hyperQueue || g.guest == q
    | none => false
  !(s.reqs.any fun r => mine r.gid && !r.done && decide (r.id < before)) &&
    !(s.cores.any fun c => c.2.cbuf.any fun e => decide (e.id < before) && e.ops.any fun o => mine o.1)

/-- A SYNC is no longer pending. -/
def State.endSync (s : State) (q : Nat) : State :=
  { s with xlate := { s.xlate with syncs := s.xlate.syncs.filter fun z => z.1 != q } }

/-- SYNC_COMPLETE: the completion word is written through the guest's stage 2 as it now is, and HEAD passes the SYNC
(R45). An ADDRESS that no longer passes its checks is a command error (R43). -/
def execSyncComplete (q : Nat) (s : State) : Out :=
  .next (match s.xlate.syncs.find? fun y => y.1 == q with
    | none => s
    | some y =>
      if !s.accessesDone q y.2.1 then s
      else
        match s.syncTarget q y.2.2.1.toNat with
        | (s, .wait) => s
        | (s, .bad) => (s.endSync q).setIq q (s.iq q).stop
        | (s, .at' pa) =>
          match s.devWrite pa 4 y.2.2.2 with
          | (s, false) => s
          | (s, true) => ((s.endSync q).syncDescs q).retire q)

end Sys2Proof.Machine
end

