-- ==== Sys2Proof/Machine/Migrate.lean ====
section
/-! DEFINITION. Page migration (R110 to R116) and the registers of its queues (R124). -/

namespace Sys2Proof.Machine

/-! ### The migration queue (R112, R124) -/

/-- The ring of a base die's migration queue, in the form of R43. -/
def Die.requests (d : Die) : Queue := { base := d.pqBase, ctrl := 1, tail := d.rqTail, head := d.rqHead }

/-- MIG_RQTAIL_WRITE: a write of MIG.RQTAIL, under the ring rule of R43. -/
def execMigRqtailWrite (die : Nat) (v : BitVec 64) (s : State) : Out :=
  .next (match (s.die die).requests.advanceTail v with
    | some q => s.updDie die fun d => { d with rqTail := q.tail }
    | none => s.log (.queueOverrun (8192 + die)))

/-- Address of a slot of the migration queue. -/
def Die.requestAddr (d : Die) (i : Nat) : Nat := 65536 * (fldN d.pqBase 16 32 + 1) + 32 * i

def mqOp (r : BitVec 256) : Nat := fldN r 0 4
def mqSppn (r : BitVec 256) : Nat := fldN r 32 32
def mqDhost (r : BitVec 256) : Bool := r.getLsbD 115
def mqDnode (r : BitVec 256) : Nat := fldN r 116 12
def mqDppn (r : BitVec 256) : Nat := fldN r 128 32
def mqTag (r : BitVec 256) : Word := fld r 160 32
def mqCaddr (r : BitVec 256) : Nat := fldN r 192 64

/-- Status values (R113). -/
def migCopied : Nat := 0
def migMoved : Nat := 1
def migBusy : Nat := 2
def migBad : Nat := 3
def migReleased : Nat := 4
def migLost : Nat := 5

/-- The completion word: the page's current owner and a status (R113). -/
def migWord (tag : Word) (owner : Nat) (host : Bool) (status : Nat) : DWord :=
  tag ++ BitVec.ofNat 12 owner ++ bit host ++ 0#15 ++ BitVec.ofNat 4 status

/-- A completion word is written where the request says, when that lies in HBM outside the carve-out. The manual names no
status for another CADDR: such a request is answered nowhere (log 117). -/
def State.migAnswer (s : State) (caddr : Nat) (w : DWord) : State × Bool :=
  if caddr % 8 = 0 ∧ isHbm (caddr / 65536) ∧ s.inCarve caddr = false then s.devWrite caddr 8 w else (s, true)

/-- The move of a page that is in progress, or complete and not released, on any base die (R116). -/
def State.moving (s : State) (page : Nat) : Option MigEntry :=
  match [0, 1, 2, 3].findSome? fun d => (s.die d).migs.find? fun e => e.spage == page with
  | some e => some e
  | none => none

/-- Reserved bits, or a page that this module does not home. -/
def mqBad (r : BitVec 256) : Bool :=
  fldN r 64 51 != 0 || fldN r 4 28 != 0 || !(isHbm (mqSppn r) || isHost (mqSppn r))

/-- The request at the head of a base die's queue. -/
def State.migRequest (s : State) (die : Nat) : Option (BitVec 256) :=
  let q := (s.die die).requests
  if q.headN = q.tailN then none else some (readLE s.mem ((s.die die).requestAddr q.headN) 256 32)

/-- The request at the head has been answered. -/
def State.migNext (s : State) (die : Nat) : State :=
  s.updDie die fun d => { d with rqHead := d.requests.next.head }

/-- Answers the request at the head, and consumes it, as soon as the word can be written. -/
def State.migFinish (s : State) (die : Nat) (r : BitVec 256) (owner : Nat) (host : Bool) (status : Nat)
    (f : State → State) : State :=
  match s.migAnswer (mqCaddr r) (migWord (mqTag r) owner host status) with
  | (s, false) => s
  | (s, true) => f (s.migNext die)

/-- MIGRATE: the request at the head of the queue is accepted, or answered at once (R113, R116). -/
def execMigrate (die : Nat) (s : State) : Out :=
  .next (match s.migRequest die with
    | none => s
    | some r =>
      if mqOp r = 2 then s
      else
        let here := s.thisNode
        let goodDst := if mqDhost r then isHost (mqDppn r) else isHbm (mqDppn r)
        if mqOp r ≠ 1 ∨ mqBad r ∨ goodDst = false then s.migFinish die r here false migBad id
        else
          match s.moving (mqSppn r) with
          | some e => s.migFinish die r (if e.dhost then here else e.dnode) e.dhost migMoved id
          | none =>
            if 64 ≤ (s.die die).migs.length then s.migFinish die r here false migBusy id
            else
              let e : MigEntry :=
                { spage := mqSppn r, dpage := mqDppn r, dnode := mqDnode r, dhost := mqDhost r, tag := mqTag r,
                  caddr := mqCaddr r, copied := 0, reported := false }
              (s.updDie die fun d => { d with migs := d.migs ++ [e] }).migNext die)

/-- A number for the lines that stay on this module, in the table of forwarded lines. -/
def hereNode : Nat := 0x1000

/-- Ends the forwarding of a page; its lines read as poison at the source (R115). -/
def State.endForward (s : State) (page : Nat) : State :=
  let mine := (s.home.forwarded.filter fun f => f.1 / 512 == page).map fun f => f.1
  let s := mine.foldl (fun s l => s.setPoison l true) s
  s.mapHome fun h => { h with forwarded := h.forwarded.filter fun f => f.1 / 512 != page }

/-- RELEASE: the forwarding of a copied page ends (R115). -/
def execRelease (die : Nat) (s : State) : Out :=
  .next (match s.migRequest die with
    | none => s
    | some r =>
      if mqOp r ≠ 2 then s
      else
        match s.moving (mqSppn r) with
        | none => s.migFinish die r s.thisNode false migBad id
        | some e =>
          if mqBad r ∨ e.reported = false then s.migFinish die r s.thisNode false migBad id
          else
            s.migFinish die r (if e.dhost then s.thisNode else e.dnode) e.dhost migReleased fun s =>
              let s := s.endForward e.spage
              [0, 1, 2, 3].foldl (fun s k => s.updDie k fun d => { d with migs := d.migs.filter fun x => x.spage != e.spage }) s)

/-- The next line of a move reaches its destination, or is refused there. A host-window line leaves its home as a victim
does (R108). -/
def State.moveLine (s : State) (e : MigEntry) (ok : Bool) : State × Option Bool :=
  let src := 512 * e.spage + e.copied
  let dst := 512 * e.dpage + e.copied
  let all : Need := ⟨true, 2, true, BitVec.allOnes 128⟩
  match s.homeReady src all with
  | (s, false) => (s, none)
  | (s, true) =>
    let d := readLine s.mem src
    let poison := s.poisoned src
    let gone := fun (s : State) node =>
      let s := match s.tag? src with
        | some t => if isHostLine src then (s.leaveHalf t 0).leaveHalf t 1 else s
        | none => s
      (s.dropTag src).mapHome fun h => { h with forwarded := (src, node, dst) :: h.forwarded }
    if e.dhost || e.dnode == s.thisNode then
      if s.refuses dst then (s, some false)
      else
        match s.homeReady dst all with
        | (s, false) => (s, none)
        | (s, true) => (gone ((s.writeHome dst (BitVec.allOnes 128) d).setPoison dst poison) hereNode, some true)
    else if s.plat.dead.contains e.dnode || !ok then (s, some false)
    else (gone (s.send (.moveLine e.dnode src dst poison d)) e.dnode, some true)

/-- A move that cannot go on ends with LOST: the page stays at its source, and the lines that had gone are poisoned
there (R113, R122; log 118 where the destination is alive). -/
def State.loseMove (s : State) (die : Nat) (e : MigEntry) : State :=
  match s.migAnswer e.caddr (migWord e.tag s.thisNode false migLost) with
  | (s, false) => s
  | (s, true) => (s.endForward e.spage).updDie die fun d => { d with migs := d.migs.filter fun x => x.spage != e.spage }

/-- MIGRATION_LINE_COPY: one line of a move, in address order; after the last the home writes COPIED (R114, R115).
`ok` is the answer of a destination on another module. -/
def execMigrationLineCopy (die entry : Nat) (ok : Bool) (s : State) : Out :=
  .next (match (s.die die).migs[entry]? with
    | none => s
    | some e =>
      let upd := fun (s : State) (f : MigEntry → MigEntry) =>
        s.updDie die fun d => { d with migs := d.migs.map fun x => if x.spage = e.spage then f x else x }
      if e.reported then s
      else if e.copied < 512 then
        match s.moveLine e ok with
        | (s, none) => s
        | (s, some false) => s.loseMove die e
        | (s, some true) => upd s fun x => { x with copied := x.copied + 1 }
      else
        match s.migAnswer e.caddr (migWord e.tag (if e.dhost then s.thisNode else e.dnode) e.dhost migCopied) with
        | (s, false) => s
        | (s, true) => upd s fun x => { x with reported := true })

/-- A move whose chain names a dead module at a line that has still to go (R113). -/
def State.chainLost (s : State) (node : Nat) (e : MigEntry) : Bool :=
  let named := fun (p : ChainPtr) => ptrKind p != 0 && ptrNode p == node
  s.home.tags.any fun t => t.line / 512 == e.spage && decide (e.copied ≤ t.line % 512) && t.hst != hstU &&
    (named t.head || named t.walkPos)

/-- Proposals that are due are written, as release stores of the device in their order (R111). -/
def State.settleProposals (s : State) : State :=
  [0, 1, 2, 3].foldl (fun s k =>
    let d := s.die k
    match d.pqOut with
    | [] => s
    | (page, owner) :: rest =>
      let tail := fldN d.pqTail 0 12
      let host := owner == 0x1000
      let lo : DWord := (if host then 0#12 else BitVec.ofNat 12 owner) ++ bit host ++ 0#3 ++ BitVec.ofNat 32 page ++ 0#15 ++ 1#1
      let rec' : BitVec 128 := s.clock ++ lo
      match s.devWrite (65536 * fldN d.pqBase 16 32 + 16 * tail) 16 rec' with
      | (s, false) => s
      | (s, true) => s.updDie k fun d => { d with pqOut := rest, pqTail := BitVec.ofNat 64 ((tail + 1) % 4096) }) s

/-- MIG_EPOCH: every count is halved, rounding down (R110). -/
def execMigEpoch (die : Nat) (s : State) : Out :=
  .next (if fldN (s.die die).migCtrl 32 16 = 0 then s
    else s.updDie die fun d => { d with counts := d.counts.map fun e => { e with count := e.count / 2 } })

end Sys2Proof.Machine
end

