-- ==== Sys2Proof/Machine/Agents.lean ====
section
/-! DEFINITION. Dead agents (R117 to R123): reports, declarations in their phases, and the repair of chain and host
state. -/

namespace Sys2Proof.Machine

def State.mapPlat (s : State) (f : Plat → Plat) : State := { s with plat := f s.plat }

/-- Node of the domain manager, and whether this module is it (R475, R481). -/
def State.manager (s : State) : Nat := fldN s.regs.domCtrl 20 12
def State.formed (s : State) : Bool := s.regs.domCtrl.getLsbD 1
def State.isManager (s : State) : Bool := s.formed && s.manager == s.thisNode

/-- A new incarnation of an agent. -/
def State.setInc (s : State) (agent : Nat) (inc : BitVec 8) : State :=
  s.mapPlat fun p => { p with incs := aset p.incs agent inc }

/-! ### Repair (R119) -/

/-- A pointer names an entry or home of a node. -/
def names (p : ChainPtr) (node : Nat) : Bool := ptrKind p != 0 && ptrNode p == node

/-- A line that the dead agent held is poisoned at the home, and what waits goes on. -/
def State.poisonHolder (s : State) (line : Nat) : State := (s.setPoison line true).holderGone line

/-- The repair of a home tag that names a dead module. Entries past a dead walker whose position is not recorded repair
themselves, since their BACK names it. -/
def State.repairTag (s : State) (node : Nat) (t : HomeTag) : State :=
  if t.hst = hstSH ∧ names t.head node then
    (s.updTag t.line fun t => { t with head := nullPtr, hst := hstU }).pumpAll t.line
  else if (t.hst = hstEX ∨ t.hst = hstRC) ∧ names t.head node then s.poisonHolder t.line
  else if t.hst = hstPG ∧ t.homeWalk = false ∧ names t.head node then
    (s.updTag t.line fun t => { t with homeWalk := true, head := nullPtr }).walkOn t.line
      (if names t.walkPos node then nullPtr else t.walkPos)
  else if t.hst = hstPG ∧ t.homeWalk ∧ names t.walkPos node then s.walkOn t.line nullPtr
  else s

/-- The requests that wait for a line of a dead home are answered with poison or dropped (R122). -/
def State.failCache (s : State) (c : CacheTag) : State :=
  (c.queue.foldl (fun s w => s.performRemote c.line w true 0) s).dropTag c.line

/-- The repair of a caching entry that names a dead module. -/
def State.repairCache (s : State) (node : Nat) (c : CacheTag) : State :=
  if homeNode c.line = node then s.failCache c
  else if c.cst = cstWALK ∧ names c.target node then s.walkOn c.line nullPtr
  else if names c.back node then
    let s := if c.fwd = nullPtr ∨ names c.fwd node then s
      else (s.mapPlat fun p => { p with orphans := p.orphans ++ [⟨c.line, node, c.fwd⟩] }).toEntry c.line c.fwd .purge
    s.cacheInvalid c.line
  else if names c.fwd node then
    if c.cst = cstRATT ∨ c.cst = cstUNLINK then
      (s.updCache c.line fun c => { c with fwd := nullPtr }).unlinked c.line c true
    else s.updCache c.line fun c => { c with fwd := nullPtr }
  else s

/-- The scan of every slice for a dead module (R118, R119). -/
def State.scanNode (s : State) (node : Nat) : State :=
  let s := (s.plat.orphans.filter fun o => names o.target node).foldl (fun s o => s.orphanOn o nullPtr) s
  let s := s.home.caches.foldl (fun s c => s.repairCache node c) s
  s.home.tags.foldl (fun s t => s.repairTag node t) s

/-- The halves of a host-window line are dropped: bytes that only this module held are lost (R119). -/
def State.dropHalves (s : State) (t : HomeTag) : State :=
  let lost := t.brHi == 3#2 || t.brLo == 3#2
  let s := if lost then (s.setPoison t.line true).log (.poisoned t.line) else s
  (s.updTag t.line fun t => { t with brHi := 0, brLo := 0 }).pumpAll t.line

/-- The repair of a tag when the host is dead: A poisons, S goes (R119). A chain or an exclusive holder of a
host-window line gives it up first (R118), and its halves follow. What waits for the host goes on (R478). -/
def State.repairHost (s : State) (t : HomeTag) : State :=
  let s := s.updTag t.line fun t => { t with pending := 0 }
  if isHostLine t.line then
    if t.hst = hstSH then s.startWalk t
    else if t.hst = hstEX then s.startRecall t
    else if t.hst = hstU then s.dropHalves t
    else s
  else
    let s := if t.hostHi = 2#2 ∨ t.hostLo = 2#2 then s.setPoison t.line true else s
    (s.updTag t.line fun t => { t with hostHi := 0, hostLo := 0 }).pumpAll t.line

/-- Host-window lines whose chains are gone drop their halves when the host is dead. -/
def State.settleHost (s : State) : State :=
  if !s.hostDown then s
  else s.home.tags.foldl (fun s t =>
    if isHostLine t.line && t.hst == hstU && (t.brHi != 0#2 || t.brLo != 0#2) then s.dropHalves t else s) s

/-- The module declares its own host dead, repairs its slices and informs the manager (R117, R118). -/
def State.hostDies (s : State) : State :=
  if s.hostDown then s
  else
    let s := s.setInc hostAgent (s.incOf hostAgent + 1)
    let s := (s.mapPlat fun p => { p with dead := hostAgent :: p.dead }).log .hostDead
    let s := s.home.tags.foldl (fun s t => s.repairHost t) s
    s.send .hostDeath

/-! ### Reports and declarations (R117, R118) -/

/-- Phase 1: the manager sends DEAD to every live module. -/
def State.declare (s : State) (agent : Nat) : State :=
  if s.plat.dead.contains agent then s
  else
    let inc := s.incOf agent + 1
    let d : Declaration := { agent := agent, inc := inc.toNat, acks := [], scans := [], phase := 1 }
    (s.mapPlat fun p => { p with declarations := p.declarations ++ [d] }).send (.dead agent inc.toNat)

/-- A report reaches the manager: it probes at the first, and declares at the second. -/
def State.reported (s : State) (node reporter : Nat) : State :=
  if !s.isManager then s
  else if s.plat.reports.any fun r => r.1 == node then s.declare node
  else (s.mapPlat fun p => { p with reports := p.reports ++ [(node, reporter)] }).send (.probe node)

/-- This module reports an agent to the manager. -/
def State.reportAgent (s : State) (node : Nat) : State :=
  if s.isManager then s.reported node s.thisNode else if s.formed then s.send (.report node s.thisNode) else s

def execAgentReport (node by_ : Nat) (s : State) : Out := .next (s.reported node by_)

/-- CHAIN_ANSWER_TIMEOUT: a chain request to a module is not answered within the deadline. -/
def execChainAnswerTimeout (_line node : Nat) (s : State) : Out := .next (s.reportAgent node)

/-- MANAGER_PROBE_TIMEOUT: a reported module does not answer the manager's probe. -/
def execManagerProbeTimeout (node : Nat) (s : State) : Out :=
  .next (if s.isManager && s.plat.reports.any fun r => r.1 == node then s.declare node else s)

/-- Migrations to a dead module, and those whose chains name it, end with LOST (R113, R122). -/
def State.loseMoves (s : State) (node : Nat) : State :=
  [0, 1, 2, 3].foldl (fun s d => (s.die d).migs.foldl (fun s e =>
    if !e.reported && ((!e.dhost && e.dnode == node) || s.chainLost node e) then s.loseMove d e else s) s) s

/-- This module learns that it has been declared dead: it gives up every line of a remote `sys` page and what it had
written there, before a chain request goes out under its new incarnation (R123). -/
def State.wasDead (s : State) (inc : Nat) : State :=
  let s := (s.setInc s.thisNode (BitVec.ofNat 8 inc)).log (.nodeDead s.thisNode)
  s.home.caches.foldl (fun s c => s.cacheInvalid c.line) s

/-- Phase 2 on this module: the new incarnation, the scan, and the answers; SCAN_DONE follows the last orphan purge
(R118). -/
def State.nodeDies (s : State) (agent inc : Nat) : State :=
  let s := s.setInc agent (BitVec.ofNat 8 inc)
  let d : Declaration := { agent := agent, inc := inc, acks := [], scans := [], phase := 2 }
  let old := s.plat.declarations.any fun x => x.agent == agent
  let s := s.mapPlat fun p =>
    { p with dead := agent :: p.dead, reports := p.reports.filter fun r => r.1 != agent,
             declarations := if old then p.declarations.map fun x => if x.agent = agent then { x with phase := 2 } else x
                             else p.declarations ++ [d] }
  let s := (s.log (.nodeDead agent)).send (.deadAck agent)
  let s := (s.loseMoves agent).scanNode agent
  if s.plat.orphans.any fun o => o.agent == agent then s else s.send (.scanDone agent)

/-- DEAD: the manager declares a module dead. -/
def execDead (agent inc : Nat) (s : State) : Out :=
  .next (if 4096 ≤ agent ∨ s.plat.dead.contains agent then s
    else if agent = s.thisNode then s.wasDead inc
    else s.nodeDies agent inc)

/-- Live modules that a declaration waits for. -/
def State.live (s : State) : List Nat := s.plat.nodes.filter fun n => !s.plat.dead.contains n && n != s.thisNode

def State.updDeclaration (s : State) (agent : Nat) (f : Declaration → Declaration) : State :=
  s.mapPlat fun p => { p with declarations := p.declarations.map fun d => if d.agent = agent then f d else d }

/-- DEAD_ACKNOWLEDGEMENT: the manager counts the answers of phase 1. -/
def execDeadAcknowledgement (agent from_ : Nat) (s : State) : Out :=
  .next (if s.isManager then s.updDeclaration agent fun d => { d with acks := if d.acks.contains from_ then d.acks else from_ :: d.acks }
    else s)

/-- A held chain request is answered under the repair rule. -/
def State.answerHeld (s : State) (h : Held) : State :=
  match h.kind with
  | .read mig => s.chainRequest h.line h.src h.inc mig false
  | .own mig => s.chainRequest h.line h.src h.inc mig true
  | .unhead p => s.unheadAt h.line h.src h.inc p
  | .setfwd p => s.setfwdAt h.line h.src h.inc p
  | .setback p => s.setbackAt h.line h.src h.inc p

/-- Phase 4 on this module: held requests are answered; those of the dead agent carry its old incarnation and are
discarded (R118, R120). -/
def State.resumeAgent (s : State) (agent : Nat) : State :=
  let held := s.plat.held
  let s := s.mapPlat fun p => { p with held := [], declarations := p.declarations.filter fun d => d.agent != agent }
  held.foldl State.answerHeld s

/-- SCAN_DONE: when the manager has every answer it sends RESUME (R118). -/
def execScanDone (agent from_ : Nat) (s : State) : Out :=
  .next (if !s.isManager then s
    else
      let s := s.updDeclaration agent fun d => { d with scans := if d.scans.contains from_ then d.scans else from_ :: d.scans }
      match s.plat.declarations.find? fun d => d.agent == agent with
      | none => s
      | some d => if s.live.all fun n => d.scans.contains n then (s.send (.resume agent)).resumeAgent agent else s)

def execResume (agent : Nat) (s : State) : Out := .next (s.resumeAgent agent)

/-- HOST_SNOOP_TIMEOUT: a back-invalidation snoop is not answered within the deadline (R107, R117). -/
def execHostSnoopTimeout (line : Nat) (s : State) : Out :=
  .next (match s.tag? line with
    | some t => if t.pending = 0 then s else s.hostDies
    | none => s)

/-- HOST_DEATH_NOTICE: the manager logs the declaration of another module's host, and takes no action (R117). -/
def execHostDeathNotice (node : Nat) (s : State) : Out := .next (if s.isManager then s.log (.nodeDead (4097 + node)) else s)

/-- AGENT_READMISSION: an agent that was dead takes part again under its new incarnation (R120, R123). -/
def execAgentReadmission (agent : Nat) (s : State) : Out :=
  .next (s.mapPlat fun p => { p with dead := p.dead.filter fun n => n != agent, reports := p.reports.filter fun r => r.1 != agent })

end Sys2Proof.Machine
end

