-- ==== Sys2Proof/Machine/Sync.lean ====
section
/-! DEFINITION. Fences, barriers and locks (R335 to R340, R156), and what waiting lanes are released by. -/

namespace Sys2Proof.Machine

/-! ### Fences (R335) -/

/-- The class of the page at a lane's pointer, if it has a pointer that translates; or why its walk must wait. -/
def State.fenceClass (s : State) (g : Group) (a : BitVec 8) (i : Nat) (l : Lane) : Except XErr (Option (BitVec 2)) :=
  if a = 0x84#8 then .ok none
  else (s.peek g.core (quadOf g.core) g.guest (src64 g i l a)).map fun t => t.map fun t => t.coh

/-- The part of a fence that one lane brings: its pointer, the byte length, and whether its page translates. -/
def State.fenceReq (s : State) (g : Group) (a b : BitVec 8) (x : XM) (i : Nat) (l : Lane) : Req :=
  let ptr := src64 g i l a
  let len := (src32 g i l b).toNat
  let coh := match s.fenceClass g a i l with
    | .ok c => c
    | .error _ => none
  let m := fallbacks .fence coh x.scope x.order
  let warn := m.warn ||| (if x.ret = retDefault then 0 else wRet)
  { Req.zero with
      gid := g.gid, core := g.core, guest := g.guest, kind := .fence, scope := m.scope, order := m.order,
      warn := warn, seq := s.sequencer m.scope m.order (coh.getD 2),
      parts := [{ lane := i, va := ptr, pa := if coh.isSome then 1 else 0, off := 0, len := len, data := 0, data2 := 0,
                  dst := none, value := 0, trap := 0, ticket := 0 }] }

/-- What a fence of lanes follows: all their earlier accesses, and every store they know when it releases beyond
the core (R136, R60). -/
def State.precedeFence (s : State) (g : Group) (r : Req) : Req :=
  let lanes := r.parts.map fun p => p.lane
  let all := r.order == oSeqCst || (isRelease r.order && s.wideScope g r.scope)
  { r with after := ((lanes.flatMap fun i => s.unperformed g.gid i).map fun q => q.id).eraseDups,
           drains := if all then (lanes.flatMap fun i => s.knownEntries g.core g.gid i).eraseDups else [] }

/-- `fence`: the guard-true lanes wait until their fences have performed. A lane with an acquire or an awaited answer
outstanding, or whose pointer's walk must wait, waits at issue by itself (R136, R168, R193). -/
def execFence (a b : BitVec 8) (x : XM) (s : State) : Out :=
  .next (s.forPick fun s gid m =>
    match s.group? gid with
    | some g =>
      let act := g.maskOf fun i l => m.getLsbD i && l.guard
      let held := g.maskOf fun i l => act.getLsbD i && (!l.acq.isEmpty || s.awaits gid i || (s.fenceClass g a i l).toOption.isNone)
      let asks := (g.lanes.zipIdx).filterMap fun e =>
        match s.fenceClass g a e.2 e.1 with
        | .error x => if act.getLsbD e.2 then some x else none
        | .ok _ => none
      let s := if held = 0#64 then s else (asks.foldl State.walkAsks s).holdLanes gid held
      let go := act &&& ~~~held
      let lanes := (g.lanes.zipIdx).filter fun e => go.getLsbD e.2
      if lanes = [] then s
      else
        let (s, op) := s.newId
        let rs := (lanes.map fun e => s.fenceReq g a b x e.2 e.1).foldl (fun rs r => addPart r.seq.isSome r rs) []
        let s := (s.addReqs (rs.map fun r => s.precedeFence g { r with op := op })).1
        (s.warn gid (warnOf rs)).waitLanes gid go 2 (.fence op)
    | none => s)

/-- The lines of a lane's range, as runs of keys: those of pages that translate (R61, R335); or why a walk must wait. -/
def State.rangeKeys (s : State) (core guest : Nat) (p : Part) : Except XErr (List (Nat × Nat)) :=
  if p.pa != 1 || p.len == 0 then .ok []
  else do
    let first := p.va.toNat / 65536
    let last := (p.va.toNat + p.len - 1) / 65536
    let runs ← (List.range (last + 1 - first)).mapM fun k => do
      let page := BitVec.ofNat 64 (65536 * (first + k))
      match ← s.peek core (quadOf core) guest page with
      | none => .ok []
      | some t =>
        let lo := max (p.va.toNat / 128) (512 * (first + k)) - 512 * (first + k)
        let hi := min ((p.va.toNat + p.len - 1) / 128) (512 * (first + k) + 511) - 512 * (first + k)
        .ok [(t.key page + lo, t.key page + hi)]
    .ok runs.flatten

/-- The lines of the ranges of a fence's lanes. -/
def State.fenceKeys (s : State) (r : Req) : Except XErr (List (Nat × Nat)) :=
  if isAcquire r.order then do .ok (← r.parts.mapM (s.rangeKeys r.core r.guest)).flatten else .ok []

/-- The lanes of a fence that wait for it. -/
def Group.fenceLanes (g : Group) (r : Req) : BitVec 64 := g.waitersOn (.fence r.op) &&& r.lanes

/-- A fence performs when what it follows has performed and its ticket is held (R145, R335); at fabric scope or
wider it reports a store dropped at a dead node (R122). -/
def State.tryFence (s : State) (r : Req) : State :=
  match s.group? r.gid with
  | none => s
  | some g =>
    let lanes := g.fenceLanes r
    let va := match r.parts with
      | p :: _ => p.va
      | [] => 0
    if r.parts.any fun p => p.trap != 0#64 then ((s.dropReq r.id).trapWaiting r.gid lanes (causeOf cNodeDead 0) va)
    else if !s.orderedReady r || (r.seq.isSome && !r.granted) then s
    else if g.dropped && decide (5 ≤ r.scope.toNat) then
      let s := ((s.useTickets r).dropReq r.id).updGroup r.gid fun g => { g with dropped := false }
      s.trapWaiting r.gid lanes (causeOf cNodeDead 0) va
    else
      match s.fenceKeys r with
      | .error e => s.walkAsks e
      | .ok keys =>
        let s := if isAcquire r.order then
            s.acquireEffect r.gid r.lanes r.scope fun key => keys.any fun k => decide (k.1 ≤ key) && decide (key ≤ k.2)
          else s
        let s := ((s.useTickets r).dropReq r.id).updGroup r.gid fun g => g.mapLanes lanes fun _ l => l.goOn
        s.afterOp r.gid lanes r.warn

/-- Fences that can perform do. -/
def State.settleFences (s : State) : State :=
  s.reqs.foldl (fun s r =>
    if r.kind = .fence then
      match s.req? r.id with
      | some r => s.tryFence r
      | none => s
    else s) s

/-- Lanes that wait for an operation with a fallback raise `SCOPE_FALLBACK` after it has performed (R202). -/
def State.settleFallbacks (s : State) : State :=
  { s with groups := s.groups.map fun g =>
      let finished := fun op => !(g.q0.any fun c => c.op == op && c.left != 0) && !(g.q1.any fun c => c.op == op && c.left != 0) &&
        !g.q2.contains op && (s.opReqs g.gid op).isEmpty
      let m := g.maskOf fun _ l => match l.status with
        | .waiting (.fallback op) => finished op
        | _ => false
      if m = 0#64 then g
      else if g.masked then g.mapLanes m fun _ l => l.goOn
      else g.park (fun l => l.resume.getD l.place) none [] (trapsOf m g.lanes.length (causeOf cScopeFallback 0) (noVA cScopeFallback)) }

/-! ### Barriers (R336 to R338) -/

/-- Every lane of the pick waits at the barrier, whatever its guard. -/
def State.barrierPick (s : State) (b : Nat) : State := s.holdAwaiting.forPick fun s gid m => s.waitLanes gid m 1 (.barrier b)

def execBarGroup (s : State) : Out := .next (s.barrierPick 0)
def execBarTeam (s : State) : Out := .next (s.barrierPick 1)
def execBarRole (q : BitVec 2) (s : State) : Out := .next (s.barrierPick (2 + q.toNat))

/-- The launch of a group is marked superstep (R338). -/
def State.superstep (s : State) (g : Group) : Bool :=
  match s.launch? g.launch with
  | some l => l.super
  | none => false

/-- Where a lane that stands outside the issuing instruction would go on. -/
def Lane.standing (l : Lane) : Place :=
  match l.status with
  | .waiting (.fallback _) => l.resume.getD l.place
  | .waiting _ => l.place
  | .ready => l.place
  | .parked => l.place
  | .exited => l.place

/-- Every live lane of a group traps where it stands, and leaves every pick. -/
def State.trapGroup (s : State) (gid : Nat) (cause va : DWord) : State :=
  match s.cur, s.group? gid with
  | some p, some g =>
    let m := g.maskOf fun _ l => l.live
    let s := s.updGroup gid fun g =>
      (g.mapLanes (p.mask gid) fun _ l => l.goTo (p.placeHere l)).park Lane.standing none [] (trapsOf m g.lanes.length cause va)
    ({ s with ports := s.ports.map fun (p : Pick) => p.remove gid m }).leave gid m
  | _, _ => s

/-- `bar.rollcall`: outside superstep every lane of the group traps, and nothing arrives (R338). -/
def execBarRollcall (s : State) : Out :=
  .next (s.holdAwaiting.forPick fun s gid m =>
    match s.group? gid with
    | none => s
    | some g =>
      if s.superstep g then s.waitLanes gid m 1 (.barrier 6)
      else s.trapGroup gid (causeOf cBarMode 0) (noVA cBarMode))

/-- A group has arrived: every lane that has not exited waits at the barrier, at one counter (R336). -/
def Group.arrivedAt (g : Group) (b : Nat) : Bool :=
  let w := g.waitersOn (.barrier b)
  w != 0#64 && w == (g.maskOf fun _ l => l.status != .exited) && g.together w

/-- The release of an arrival is complete: the group's accesses have performed, and beyond the core the stores it
knows have drained (R60, R136, R337). -/
def State.arrivalDone (s : State) (g : Group) (wide : Bool) : Bool :=
  !(s.reqs.any fun r => r.gid == g.gid && !r.done) &&
    (!wide || !((s.core g.core).cbuf.any fun e => e.known.any fun k => k.1 == g.gid && k.2.2 != 0#128))

/-- The waiting lanes of a group depart from a barrier, with the acquire of its scope (R337). -/
def State.depart (s : State) (gid b : Nat) (scope : BitVec 3) : State :=
  (s.acquireEffect gid (BitVec.allOnes 64) scope fun _ => false).release gid (.barrier b)

/-- The groups of a team. -/
def State.teamGroups (s : State) (t : Team) : List Group :=
  s.groups.filter fun g => g.launch == t.launch && g.team == t.team

/-- The handles in a role's box become takeable when an instance of its barrier completes (R361). -/
def State.openBox (s : State) (t : Team) (r : Nat) : State :=
  s.updTeam t.launch t.team fun t =>
    { t with boxes := t.boxes.mapIdx fun i b => if i = r then b.map fun e => { e with takeable := true } else b }

/-- Barriers of one team that are complete (R337). At a role's barrier every group that has arrived departs when those of
the role have, once the release of each arrival is complete. -/
def State.settleTeam (s : State) (t : Team) : State :=
  let gs := s.teamGroups t
  let ready := fun b (g : Group) => g.arrivedAt b && s.arrivalDone g (b != 0 && t.quadTeam)
  let s := gs.foldl (fun s g => if ready 0 g then s.depart g.gid 0 0 else s) s
  let s := if (gs.any fun g => !g.ended) && (gs.all fun g => g.ended || ready 1 g) then
      gs.foldl (fun s g => s.depart g.gid 1 1) s
    else s
  [0, 1, 2, 3].foldl (fun s r =>
    let b := 2 + r
    if (gs.any fun g => g.arrivedAt b) && (gs.filter fun g => g.role == r).all (fun g => g.ended || g.arrivedAt b) &&
        gs.all (fun g => !g.arrivedAt b || ready b g) then
      (gs.foldl (fun s g => if ready b g then s.depart g.gid b 1 else s) s).openBox t r
    else s) s

def State.settleBarriers (s : State) : State :=
  (s.teams.filter fun t => t.resident).foldl State.settleTeam s

/-- Every group of a grid has arrived at the roll-call barrier or has ended, its engine operations are complete and
its puts have reached their slices (R156). -/
def State.rollcallReady (s : State) (l : Launch) : Bool :=
  let here := s.groups.filter fun g => g.launch == l.id
  let images := s.sched.images.filter fun i => i.launch == l.id && i.current
  let saved := images.flatMap fun i => i.groups
  let mine := fun gid => here.any fun g => g.gid == gid
  decide (l.nteam ≤ l.nextTeam) &&
    (here.all fun g => g.ended || (g.arrivedAt 6 && s.arrivalDone g true)) &&
    (saved.all fun g => g.ended || g.arrivedAt 6) &&
    !(s.engOps.any fun o => mine o.gid) && (images.all fun i => i.engOps.isEmpty) &&
    !(s.reqs.any fun r => mine r.gid && !r.done)

/-- ROLLCALL_COMPLETE: the barrier of a superstep grid completes, and every group departs (R156, R157). A saved group's
acquire is the one with which its context is restored (log 119). -/
def execRollcallComplete (launch : Nat) (s : State) : Out :=
  .next (match s.launch? launch with
    | none => s
    | some l =>
      if !l.super || !s.rollcallReady l then s
      else
        let s := (s.groups.filter fun g => g.launch == launch).foldl (fun s g => s.depart g.gid 6 4) s
        let go := fun (g : Group) =>
          { g with lanes := g.lanes.map fun k => if k.status = .waiting (.barrier 6) then k.goOn else k }
        { s with sched := { s.sched with images := s.sched.images.map fun i =>
            if i.launch = launch then { i with groups := i.groups.map go } else i } })

/-! ### Locks (R339, R340) -/

/-- The holder tag of a group (R339). -/
def Group.lockTag (g : Group) : DWord := 1#1 ++ 0#27 ++ BitVec.ofNat 32 g.team ++ BitVec.ofNat 4 g.index

/-- Fallbacks of a lock instruction: those of its compare-and-swap, then the order and the retention that it takes
(R202). -/
def lockFallbacks (x : XM) (coh : Option (BitVec 2)) (order : BitVec 3) : BitVec 3 × BitVec 4 :=
  let f := fallbacks .atomic coh x.scope x.order
  (f.scope, f.warn ||| (if f.order = order then 0 else wOrder) ||| (if x.ret = retStream ∨ x.ret = retBypass then wRet else 0))

/-- What an attempt on a lock word follows: for a release, every access of the group and, beyond the core, the stores that
it knows; for an acquisition, those that concern the word (R136, R139). -/
def State.precedeLock (s : State) (g : Group) (r : Req) : Req :=
  let rel := r.kind == .lockRel
  let own := match (s.core g.core).entry? r.line with
    | some e => [e.id]
    | none => []
  let known := (List.range g.lanes.length).flatMap fun j => s.knownEntries g.core g.gid j
  { r with after := (s.reqs.filter fun q => q.gid == g.gid && !q.done && q.id != r.id && (rel || q.meets r)).map fun q => q.id,
           drains := (if rel && s.wideScope g r.scope then own ++ known else own).eraseDups }

/-- An attempt, with the place of its word that a translation gives (R340). -/
def State.lockAt (s : State) (g : Group) (x : XM) (sp : Span) (r : Req) : Req :=
  let order := if r.kind == .lockRel then oRelease else oAcquire
  let f := lockFallbacks x (some sp.trans.coh) order
  s.precedeLock g
    { r with line := sp.trans.key sp.va, scope := f.1, order := order, warn := f.2,
             attr := { sp.trans.attr with ret := retOf (if x.ret = retSticky then retSticky else retDefault) sp.trans.ret },
             parts := r.parts.map fun p => { p with pa := sp.trans.pa sp.va } }

/-- The modifiers of the lock instruction, as an attempt keeps them for the next (R340). -/
def lockWords (x : XM) : List DWord := [x.scope.setWidth 64, x.order.setWidth 64, x.ret.setWidth 64]
def lockMods (ws : List DWord) : XM :=
  { order := ((ws[1]?).getD 0).setWidth 3, scope := ((ws[0]?).getD 0).setWidth 3, ret := ((ws[2]?).getD 0).setWidth 2, mode := 0,
    off := 0 }

/-- An entry of the outstanding-request table is free (R86). -/
def State.hasEntry (s : State) (core : Nat) : Bool := decide ((s.core core).outstUsed < outstLimit)
def State.takeEntry (s : State) (core id : Nat) : State :=
  s.updCore core fun c => { c with outst := id :: c.outst.filter fun i => i != id }

/-- One attempt of a group whose lanes have converged at a lock instruction (R340). It waits at issue for the acquires of
its lanes (R136), for its walk, and for an entry (R86); their earlier loads have returned (R141). -/
def State.lockOnce (s : State) (a : BitVec 8) (x : XM) (rel : Bool) (gid : Nat) (m : BitVec 64) : State :=
  match s.group? gid with
  | some g =>
    match g.lowest m fun _ _ => true with
    | none => s
    | some (i, l) =>
      let va := src64 g i l a
      let late := (g.maskOf fun j l => m.getLsbD j && !l.acq.isEmpty) != 0#64
      if late || !s.hasEntry g.core then s.holdLanes gid m
      else
        match s.checkAccess g va 8 .atomic with
        | (s, .error .wait) => s.holdLanes gid m
        | (s, .error (.trap c)) => s.trapLanes gid none (trapsOf m g.lanes.length c va)
        | (s, .ok []) => s
        | (s, .ok (sp :: _)) =>
          let tag := g.lockTag.setWidth 128
          let (s, op) := s.newId
          let r : Req :=
            { Req.zero with
                op := op, gid := gid, core := g.core, guest := g.guest, kind := if rel then .lockRel else .lockAcq,
                size := 8, words := lockWords x,
                parts := [{ Part.zero with
                  lane := i, va := va, len := 8, data := if rel then tag else 0, data2 := if rel then 0 else tag }] }
          let r := s.lockAt g x sp r
          let (s, ids) := s.addReqs [r]
          let s := ids.foldl (fun s id => s.takeEntry g.core id) s
          (s.warn gid r.warn).waitLanes gid m 2 .lock
  | none => s

/-- `lock.acq` (R340). -/
def execLockAcq (a : BitVec 8) (x : XM) (s : State) : Out :=
  .next (s.converge 2 fun s gid m => s.lockOnce a x false gid m)

/-- `lock.rel` (R340). -/
def execLockRel (a : BitVec 8) (x : XM) (s : State) : Out :=
  .next (s.converge 2 fun s gid m => s.lockOnce a x true gid m)

/-- LOCK_RETRY: a group whose attempt failed tries again; the attempt passes the checks of R38 anew, and goes where they
now place the word (R340). -/
def execLockRetry (gid : Nat) (s : State) : Out :=
  .next (match s.reqs.find? fun r => r.gid == gid && r.kind == .lockAcq && r.done, s.group? gid with
    | some r, some g =>
      if g.frozen || !(s.hasEntry g.core || (s.core g.core).outst.contains r.id) then s
      else match r.parts with
      | [] => s
      | p :: _ =>
        match s.checkAccess g p.va 8 .atomic with
        | (s, .error .wait) => s
        | (s, .error (.trap c)) => (s.dropReq r.id).trapWaiting gid (g.waitersOn .lock) c p.va
        | (s, .ok []) => s
        | (s, .ok (sp :: _)) =>
          let again := s.lockAt g (lockMods r.words) sp r
          (s.updReq r.id fun _ => { again with done := false, sent := false }).takeEntry g.core r.id
    | _, _ => s)

end Sys2Proof.Machine
end

