-- ==== Sys2Proof/Machine/Hamper.lean ====
section
/-! DEFINITION. The Hamper (R385 to R411): records and their homes, combining operators, key spaces, overflow rings, and
the instructions that put, get and finish records. -/

namespace Sys2Proof.Machine

/-! ### Key spaces (R387, R388, R399) -/

def ksOpen (e : BitVec 256) : Bool := e.getLsbD 0
def ksTenant (e : BitVec 256) : Nat := fldN e 88 16
def ksKernel (e : BitVec 256) : Nat := fldN e 104 24
def ksLive (e : BitVec 256) : Word := fld e 128 32
def ksCap (e : BitVec 256) : Nat := fldN e 160 32
def ksBase (e : BitVec 256) : DWord := (fld e 192 55 : BitVec 55).setWidth 64

def mkKs (base : DWord) (cap : Nat) (live : Word) (kernel tenant : Nat) (o : Bool) : BitVec 256 :=
  0#9 ++ (base.setWidth 55 : BitVec 55) ++ BitVec.ofNat 32 cap ++ live ++ BitVec.ofNat 24 kernel ++ BitVec.ofNat 16 tenant ++
    0#87 ++ bit o

def State.ks (s : State) (k : Nat) : BitVec 256 := alookup s.hamper.kspaces k 0
def State.setKs (s : State) (k : Nat) (e : BitVec 256) : State :=
  { s with hamper := { s.hamper with kspaces := aset s.hamper.kspaces k e } }

/-- A key-space entry whose LIVE has changed, modulo 2^32. -/
def ksAdd (e : BitVec 256) (n : Word) : BitVec 256 :=
  mkKs (ksBase e) (ksCap e) (ksLive e + n) (ksKernel e) (ksTenant e) (ksOpen e)

/-- Adds to LIVE of a key space. -/
def State.addLive (s : State) (k : Nat) (n : Word) : State := s.setKs k (ksAdd (s.ks k) n)

/-- A put, get or done of a group may name a key space (R388, R409). -/
def State.ksOk (s : State) (g : Group) (k : Nat) : Bool :=
  s.hamper.guest == some g.guest && ksOpen (s.ks k) && ksTenant (s.ks k) == g.tenant && ksKernel (s.ks k) == g.kernel

/-- Home slice and set of a record (R389). -/
def hamperHash (k : Nat) (key : DWord) : Word :=
  (key.extractLsb' 0 32 ^^^ key.extractLsb' 32 32 ^^^ (BitVec.ofNat 32 k * 0x01000193#32)) * 0x9E3779B1#32
def hamperHome (k : Nat) (key : DWord) : Nat := fldN (hamperHash k key) 16 16 * 160 / 2 ^ 16
def hamperSet (k : Nat) (key : DWord) : Nat := fldN (hamperHash k key) 0 8

/-! ### Operators (R390, R392 to R395) -/

def opUnion : Nat := 0x19

/-- Payload words that a put reads. -/
def opWords (op : Nat) : Nat :=
  if op = 0x01 then 2 else if op = 0x0E ∨ op = 0x0F ∨ op = opUnion then 8 else if op = 0x10 then 0
  else if 0x11 ≤ op ∧ op ≤ 0x18 then op - 0x10 else 1

/-- A saturated sum of two words. -/
def satSigned (a b : Word) : Word := BitVec.ofInt 32 (max (-2 ^ 31) (min (2 ^ 31 - 1) (a.toInt + b.toInt)))
def satUnsigned (a b : Word) : Word := BitVec.ofNat 32 (min (2 ^ 32 - 1) (a.toNat + b.toNat))

/-- The fold of one word of a waiting record with the word of a put. -/
def foldWord (op : Nat) (w p : Word) : Word :=
  match op with
  | 0x00 => w + p
  | 0x02 => satSigned w p
  | 0x03 => satUnsigned w p
  | 0x04 => if w.toInt ≤ p.toInt then w else p
  | 0x05 => if p.toInt ≤ w.toInt then w else p
  | 0x06 => if w.toNat ≤ p.toNat then w else p
  | 0x07 => if p.toNat ≤ w.toNat then w else p
  | 0x08 => w &&& p
  | 0x09 => w ||| p
  | 0x0A => w ^^^ p
  | 0x0B => fadd .ne w p
  | 0x0C => fminmax false w p
  | 0x0D => fminmax true w p
  | 0x10 => satUnsigned w p
  | _ => w + p

def payWord (ws : List Word) (i : Nat) : Word := (ws[i]?).getD 0
def payPair (ws : List Word) (i : Nat) : DWord := payWord ws (i + 1) ++ payWord ws i

/-- A payload with a pair replaced. -/
def setPair (ws : List Word) (i : Nat) (x : DWord) : List Word :=
  (List.range 8).map fun k =>
    if k = i then x.extractLsb' 0 32 else if k = i + 1 then x.extractLsb' 32 32 else payWord ws k

/-- The fold of a waiting payload with a put's (R390). -/
def foldPayload (op : Nat) (w p : List Word) : List Word :=
  if op = 0x01 then setPair w 0 (payPair w 0 + payPair p 0)
  else if op = 0x0E then w
  else if op = 0x0F then p
  else
    let n := if 0x11 ≤ op ∧ op ≤ 0x18 then op - 0x10 else 1
    (List.range 8).map fun k => if k < n then foldWord op (payWord w k) (payWord p k) else payWord w k

/-- Interval of a range payload (R393). -/
def rangeLo (ws : List Word) : Int := (payPair ws 0).toInt
def rangeHi (ws : List Word) : Int := (payPair ws 2).toInt
def rangeGrain (ws : List Word) : Nat := if payWord ws 4 = 0 then 1 else (payWord ws 4).toNat

/-- A range payload with another interval. -/
def setRange (ws : List Word) (lo hi : Int) : List Word := setPair (setPair ws 0 (BitVec.ofInt 64 lo)) 2 (BitVec.ofInt 64 hi)

/-- A put matches a waiting record (R392, R394). -/
def HRec.matches (w p : HRec) : Bool :=
  w.ks == p.ks && w.key == p.key && w.op == p.op &&
    (p.op != opUnion || (decide (rangeLo p.payload ≤ rangeHi w.payload) && decide (rangeLo w.payload ≤ rangeHi p.payload)))

/-- The waiting record after a fold. -/
def HRec.fold (w p : HRec) : HRec :=
  if p.op = opUnion then
    { w with payload := setRange w.payload (min (rangeLo w.payload) (rangeLo p.payload)) (max (rangeHi w.payload) (rangeHi p.payload)) }
  else { w with payload := foldPayload p.op w.payload p.payload }

/-- The record with the oldest stamp. -/
def oldest : List HRec → Option HRec
  | [] => none
  | r :: rs =>
    match oldest rs with
    | none => some r
    | some q => if q.stamp < r.stamp then some q else some r

/-! ### Ring memory and save areas (R400, R409) -/

/-- An access of the ring agent, or of a save or reload, on behalf of a guest. -/
def hamperAgent (r : Req) : EngOp :=
  { EngOp.zero with kind := .copy, quad := quadOf r.core, gid := r.gid, core := r.core, guest := r.guest, ret := retDefault }

/-- What an access to a run of bytes gives. -/
inductive HGot where
  | ok (x : BitVec 512)
  | wait
  | bad

/-- Reads `n` bytes of one line. -/
def State.hRead (s : State) (o : EngOp) (va : DWord) (n : Nat) (ans : List LineAnswer) : State × HGot × List LineAnswer :=
  match s.engRead o va ans with
  | (s, .data d, ans) => (s, .ok ((d >>> (8 * (va.toNat % 128))).setWidth 512 &&& BitVec.ofNat 512 (2 ^ (8 * n) - 1)), ans)
  | (s, .wait, ans) => (s, .wait, ans)
  | (s, .stop _, ans) => (s, .bad, ans)

/-- Writes `n` bytes of one line. -/
def State.hWrite (s : State) (o : EngOp) (va : DWord) (n : Nat) (x : BitVec 512) (ans : List LineAnswer) :
    State × HGot × List LineAnswer :=
  let at' := va.toNat % 128
  match s.engWrite o va (byteMask at' n) ((x.setWidth 1024 : LineData) <<< (8 * at')) ans with
  | (s, .data _, ans) => (s, .ok x, ans)
  | (s, .wait, ans) => (s, .wait, ans)
  | (s, .stop _, ans) => (s, .bad, ans)

/-- The 64 bytes of a ring slot, or of a record in a save area (R385, R400). -/
def HRec.bytes (r : HRec) (home : Nat) : BitVec 512 :=
  let pay := (r.payload.zipIdx).foldl (fun (d : BitVec 256) e => d ||| ((e.1.setWidth 256 : BitVec 256) <<< (32 * e.2))) 0
  0#112 ++ BitVec.ofNat 16 home ++ pay ++ r.key ++ BitVec.ofNat 16 r.tenant ++ BitVec.ofNat 8 r.ks ++ BitVec.ofNat 5 r.op ++
    0#3 ++ r.entry

/-- The record that 64 bytes hold. -/
def recOf (x : BitVec 512) : HRec :=
  let key : DWord := fld x 64 64
  let ks := fldN x 40 8
  { set := hamperSet ks key, key := key, tenant := fldN x 48 16, ks := ks, op := fldN x 35 5, entry := fld x 0 32,
    payload := (List.range 8).map fun k => fld x (128 + 32 * k) 32, stamp := 0 }

/-- The home slice that the 64 bytes name. -/
def homeOf (x : BitVec 512) : Nat := fldN x 384 16

/-- Address of ring slot `i` (R400). -/
def ringSlot (e : BitVec 256) (i : DWord) : DWord := ksBase e + 64#64 + 64#64 * BitVec.ofNat 64 (i.toNat % ksCap e)

/-! ### Requests (R396 to R398, R403) -/

/-- What stands for a slice where requests name their line. -/
def sliceLine (slice : Nat) : Nat := 2 ^ 60 + slice
def Req.slice (r : Req) : Nat := r.line - 2 ^ 60

/-- The request of one lane, or of one pick, of a Hamper instruction. -/
def hamperReq (g : Group) (p : Pick) (f slice op : Nat) (order : BitVec 3) (lanes : List (Nat × Lane)) (dst : Option Nat)
    (words : List DWord) : Req :=
  { Req.zero with
      op := op, gid := g.gid, core := g.core, guest := g.guest, kind := .hamper f, line := sliceLine slice, scope := 4,
      order := order, words := words, held := lanes.map fun e => (e.1, e.2.goTo (p.placeHere e.2)),
      parts := lanes.map fun e =>
        { lane := e.1, va := noVA cHmKspace, pa := 0, off := 0, len := 0, data := 0, data2 := 0, dst := dst, value := 0, trap := 0,
          ticket := 0 } }

/-- Orders the requests of one instruction after what precedes them, those of one home in their own order (R397, R398). -/
def State.hamperOrder (s : State) (g : Group) (rs : List Req) : State × List Nat :=
  rs.foldl (fun acc r =>
    let r := acc.1.precede g r
    let mine := (acc.1.reqs.filter fun q => q.gid == r.gid && q.op == r.op && q.line == r.line).map fun q => q.id
    let (s, ids) := acc.1.addReqs [{ r with after := (r.after ++ mine).eraseDups }]
    (s, acc.2 ++ ids)) (s, [])

/-- The guard-true lanes of a group in a pick. -/
def Group.actors (g : Group) (m : BitVec 64) : List (Nat × Lane) :=
  ((g.lanes.zipIdx).filter fun e => m.getLsbD e.2 && e.1.guard).map fun e => (e.2, e.1)

/-- All guard-true lanes trap (R388, R413). -/
def State.hamperTrap (s : State) (g : Group) (m : BitVec 64) (c : Nat) : State :=
  s.trapLanes g.gid none (trapsOf (g.guarded m) g.lanes.length (causeOf c 0) (noVA c))

/-- Lanes that wait at issue themselves: for the counter of the group (R182), for an earlier acquire (R136), and for an
earlier operation whose answer may trap (R193). -/
def State.hamperStay (s : State) (g : Group) (m : BitVec 64) : BitVec 64 :=
  if 63 ≤ g.c3 then g.guarded m
  else g.maskOf fun i l => (g.guarded m).getLsbD i && (!l.acq.isEmpty || s.awaits g.gid i)

/-- An operation on c3 whose answers a group's lanes await. -/
def Group.awaitHamper (g : Group) (op : Nat) (ids : List Nat) (go : BitVec 64) (dst : Option (Nat × Nat)) (acquire : Bool) :
    Group :=
  ({ g with q3 := g.q3 ++ [op] } : Group).mapLanes go fun _ l =>
    let l := match dst with
      | some (d, n) => l.await d n op
      | none => l
    if acquire then { l with acq := l.acq ++ ids } else l

/-- Issues the requests of an instruction for the lanes that need not wait: on c3, with its destination registers awaited
(R182, R403). -/
def State.issueHamper (s : State) (g : Group) (m : BitVec 64) (dst : Option (Nat × Nat)) (acquire : Bool)
    (build : List (Nat × Lane) → Nat → List Req) : State :=
  let stay := s.hamperStay g m
  let s := if stay = 0#64 then s else s.holdLanes g.gid stay
  let go := g.guarded m &&& ~~~stay
  if go = 0#64 then s
  else
    let (s, op) := s.newId
    let (s, ids) := s.hamperOrder g (build (g.actors go) op)
    s.updGroup g.gid fun g => g.awaitHamper op ids go dst acquire

/-- Code base of a group's kernel. -/
def State.codeBase (s : State) (g : Group) : DWord :=
  match s.launch? g.launch with
  | some l => l.code
  | none => 0

/-- The words of a put: key, entry label, operator, key space, and payload (R404, R405). -/
def State.putWords (s : State) (g : Group) (l : Lane) (r ks op : Nat) : List DWord :=
  let e := l.pair (r + 4) - s.codeBase g
  let pay := (List.range 8).map fun i =>
    if i < opWords op then (l.reg (r + 6 + i)).setWidth 64 else if op = 0x10 ∧ i = 0 then 1#64 else 0#64
  [l.pair (r + 2), (e >>> 2) &&& 0xFFFFFFFF#64, BitVec.ofNat 64 op, BitVec.ofNat 64 ks] ++ pay

/-- A put of every guard-true lane (R404, R405). -/
def State.hamperPut (s : State) (d : BitVec 7) (w : BitVec 1) (r ks op : Nat) : State :=
  s.forPick fun s gid m =>
    match s.cur, s.group? gid with
    | some p, some g =>
      if (g.lead m).isNone then s
      else if !s.ksOk g ks then s.hamperTrap g m cHmKspace
      else
        let dst := if w = 1#1 then none else some d.toNat
        s.issueHamper g m (dst.map fun d => (d, 1)) false fun actors op' =>
          actors.map fun e =>
            let home := if op = opUnion then quadOf g.core else hamperHome ks (e.2.pair (r + 2))
            hamperReq g p (if op = opUnion then 1 else 0) home op' oRelease [e] dst (s.putWords g e.2 r ks op)
    | _, _ => s

/-- `hm.put d, r, ks, op`. -/
def execHmPut (d : BitVec 7) (w : BitVec 1) (a ks : BitVec 8) (op : BitVec 5) (s : State) : Out :=
  .next (s.hamperPut d w a.toNat ks.toNat op.toNat)

/-- `hm.rput d, r, ks`. -/
def execHmRput (d : BitVec 7) (w : BitVec 1) (a ks : BitVec 8) (s : State) : Out :=
  .next (s.hamperPut d w a.toNat ks.toNat opUnion)

/-- `hm.get r, ks` (R406). -/
def execHmGet (d : BitVec 7) (ks : BitVec 8) (s : State) : Out :=
  .next (s.forPick fun s gid m =>
    match s.cur, s.group? gid with
    | some p, some g =>
      if (g.lead m).isNone then s
      else if !s.ksOk g ks.toNat then s.hamperTrap g m cHmKspace
      else
        s.issueHamper g m (some (d.toNat, 14)) true fun actors op =>
          [hamperReq g p 2 (quadOf g.core) op oAcquire actors (some d.toNat) [BitVec.ofNat 64 ks.toNat, 0#64]]
    | _, _ => s)

/-! ### In-flight tables (R407, R411) -/

def Group.inflightOf (g : Group) (k : Nat) : Nat := alookup g.inflight k 0

/-- The table lets a lane take a record. -/
def Group.mayTake (g : Group) (k : Nat) : Bool :=
  if ahas g.inflight k then decide (g.inflightOf k < 65535) else decide (g.inflight.length < 8)

def Group.took (g : Group) (k : Nat) : Group := { g with inflight := aset g.inflight k (g.inflightOf k + 1) }
def Group.finished (g : Group) (k : Nat) : Group :=
  { g with inflight := if g.inflightOf k ≤ 1 then adel g.inflight k else aset g.inflight k (g.inflightOf k - 1) }

/-- One lane of `hm.done`: false when the table holds no count for the key space. -/
def State.doneOne (s : State) (gid k : Nat) : State × Bool :=
  match s.group? gid with
  | none => (s, false)
  | some g =>
    if g.inflightOf k = 0 then (s, false)
    else ((s.addLive k (-1)).updGroup gid fun g => g.finished k, true)

/-- `hm.done ks` (R407). -/
def execHmDone (ks : BitVec 8) (s : State) : Out :=
  .next (s.holdAwaiting.forPick fun s gid m =>
    match s.group? gid with
    | none => s
    | some g =>
      if (g.lead m).isNone then s
      else if !s.ksOk g ks.toNat then s.hamperTrap g m cHmKspace
      else
        let r := (g.actors m).foldl (fun (acc : State × List LaneTrap) e =>
          match acc.1.doneOne gid ks.toNat with
          | (s, true) => (s, acc.2)
          | (s, false) => (s, acc.2 ++ [({ lane := e.1, cause := causeOf cHmState 0, va := noVA cHmState } : LaneTrap)])) (s, [])
        if r.2 = [] then r.1 else r.1.trapLanes gid none r.2)

/-- The device performs `hm.done` for the records in flight of a group of a guest: in the slices, in what the scheduler has
saved of the guest, or when the guest's Hamper comes back (R410, R411, log 122). -/
def State.doneFor (s : State) (guest : Nat) (inflight : List (Nat × Nat)) : State :=
  let less := fun (l : List (Nat × BitVec 256)) (e : Nat × Nat) => aset l e.1 (ksAdd (alookup l e.1 0) (-(BitVec.ofNat 32 e.2)))
  if s.hamper.guest = some guest then { s with hamper := { s.hamper with kspaces := inflight.foldl less s.hamper.kspaces } }
  else if s.hamper.saved.any fun x => x.1 == guest then
    { s with hamper := { s.hamper with saved := s.hamper.saved.map fun x =>
        if x.1 = guest then (x.1, inflight.foldl less x.2.1, x.2.2) else x } }
  else { s with hamper := { s.hamper with owed := s.hamper.owed ++ inflight.map fun e => (guest, e.1, e.2) } }

/-- What is owed to a guest whose Hamper has come back. -/
def State.settleOwed (s : State) (guest : Nat) : State :=
  let mine := (s.hamper.owed.filter fun e => e.1 == guest).map fun e => e.2
  ({ s with hamper := { s.hamper with owed := s.hamper.owed.filter fun e => e.1 != guest } } : State).doneFor guest mine

/-- The records in flight of a group that ends are done (R410, R411). -/
def State.endInflight (s : State) (gid : Nat) : State :=
  match s.group? gid with
  | none => s
  | some g => if g.inflight = [] then s else (s.doneFor g.guest g.inflight).updGroup gid fun g => { g with inflight := [] }

/-- The groups that have ended. -/
def State.settleInflight (s : State) : State :=
  (s.groups.filter fun g => g.ended).foldl (fun s g => s.endInflight g.gid) s

/-! ### Key-space functions, save and reload (R408, R409) -/

/-- Status values of R404 and R408. -/
def hmBadArg : Nat := 4
def hmBusy : Nat := 6
def hmShort : Nat := 7

/-- The group and the lane of a pick in which an instruction that performs once for the pick reads its operands: the
guard-true lane at the lowest position (R323, R403). -/
def State.pickLead (s : State) (p : Pick) : Option (Group × Nat × Lane) :=
  p.members.foldl (fun best e =>
    match s.group? e.1, best with
    | none, _ => best
    | some g, none => (g.lead e.2).map fun a => (g, a)
    | some g, some (h, j, _) =>
      match g.lead e.2 with
      | some (i, l) => if g.pos + i < h.pos + j then some (g, i, l) else best
      | none => best) none

/-- The number by which the request of another group of a pick, which takes the answer of the performing group's, is told
from one that performs. -/
def followKind (f : Nat) : Nat := 8 + f

/-- A request takes the answer of another. -/
def Req.follows (q : Req) (id : Nat) : Bool :=
  match q.kind with
  | .hamper f => decide (8 ≤ f) && q.words.head? == some (BitVec.ofNat 64 id)
  | _ => false

/-- An instruction that performs once for the pick, and whose result goes to every guard-true lane of it (R403, R408): the
lane's group issues the request, and the other groups of the pick requests that take its answer. -/
def State.hamperOnce (s : State) (p : Pick) (first : Group) (f slice : Nat) (order : BitVec 3) (dst : Option Nat)
    (words : List DWord) : State :=
  let parts := p.members.filterMap fun e => (s.group? e.1).map fun g => (g, e.2)
  if parts.any fun e => s.hamperStay e.1 e.2 != 0#64 then s.forPick fun s gid m => s.holdLanes gid m
  else
    let (s, op) := s.newId
    let lead := s.nextId
    let send := fun (s : State) (e : Group × BitVec 64) =>
      let actors := e.1.actors e.2
      if actors = [] then s
      else
        let r := if e.1.gid = first.gid then hamperReq e.1 p f slice op order actors dst words
          else hamperReq e.1 p (followKind f) slice op order actors dst (BitVec.ofNat 64 lead :: words)
        let (s, ids) := s.hamperOrder e.1 [r]
        s.updGroup e.1.gid fun g => g.awaitHamper op ids (e.1.guarded e.2) (dst.map fun d => (d, 1)) (order == oAcquire)
    let mine := parts.filter fun e => e.1.gid == first.gid
    (mine ++ parts.filter fun e => e.1.gid != first.gid).foldl send s

/-- `hm.kscfg`: QUERY and CLOSE obey R388, and OPEN needs the Hamper's guest (log 36). -/
def State.kscfg (s : State) (d : BitVec 7) (w : BitVec 1) (a b ks : BitVec 8) (fn : Nat) : State :=
  match s.cur with
  | none => s
  | some p =>
    match s.pickLead p with
    | none => s
    | some (g, i, l) =>
      if (if fn = 0 then s.hamper.guest != some g.guest else !s.ksOk g ks.toNat) then
        s.forPick fun s gid m => match s.group? gid with
          | some g => s.hamperTrap g m cHmKspace
          | none => s
      else
        s.hamperOnce p g 3 (ks.toNat % 160) (if fn = 1 then oAcquire else oRelaxed) (if w = 1#1 then none else some d.toNat)
          [BitVec.ofNat 64 fn, BitVec.ofNat 64 ks.toNat, src64 g i l a, src64 g i l b]

def execHmKscfgOpen (d : BitVec 7) (w : BitVec 1) (a b ks : BitVec 8) (s : State) : Out := .next (s.kscfg d w a b ks 0)
def execHmKscfgQuery (d : BitVec 7) (w : BitVec 1) (ks : BitVec 8) (s : State) : Out :=
  .next (s.kscfg d w 0x84#8 0x84#8 ks 1)
def execHmKscfgClose (d : BitVec 7) (w : BitVec 1) (ks : BitVec 8) (s : State) : Out :=
  .next (s.kscfg d w 0x84#8 0x84#8 ks 2)

/-- `hm.gdrain` and `hm.greload`: `f` is 4 or 5. -/
def State.hamperMove (s : State) (f : Nat) (d : BitVec 7) (a b : BitVec 8) (gn : BitVec 12) : State :=
  match s.cur with
  | none => s
  | some p =>
    match s.pickLead p with
    | none => s
    | some (g, i, l) => s.hamperOnce p g f 0 oRelaxed (some d.toNat) [BitVec.ofNat 64 gn.toNat, src64 g i l a, src64 g i l b]

def execHmGdrain (d : BitVec 7) (a b : BitVec 8) (g : BitVec 12) (s : State) : Out := .next (s.hamperMove 4 d a b g)
def execHmGreload (d : BitVec 7) (a b : BitVec 8) (g : BitVec 12) (s : State) : Out := .next (s.hamperMove 5 d a b g)

/-! ### HAMPER_AT_HOME: puts (R392, R396, R401) -/

def Req.word (r : Req) (k : Nat) : DWord := (r.words[k]?).getD 0

/-- The record that a put brings. -/
def State.putRec (s : State) (r : Req) : HRec :=
  let key := r.word 0
  let ks := (r.word 3).toNat
  { set := hamperSet ks key, key := key, tenant := ksTenant (s.ks ks), ks := ks, op := (r.word 2).toNat,
    entry := (r.word 1).setWidth 32, payload := (List.range 8).map fun k => (r.word (4 + k)).setWidth 32, stamp := 0 }

/-- An answer for every lane of a request, and of those that take its answer. -/
def State.answer (s : State) (r : Req) (v : Nat) : State :=
  { s with reqs := s.reqs.map fun q => if q.id = r.id ∨ q.follows r.id then
      { q with done := true, parts := q.parts.map fun p => { p with value := BitVec.ofNat 128 v } } else q }

/-- A trap for the lanes of a request, and of those that take its answer. -/
def State.answerTrap (s : State) (r : Req) (c : Nat) (va : DWord) : State :=
  { s with reqs := s.reqs.map fun q => if q.id = r.id ∨ q.follows r.id then
      { q with done := true, parts := q.parts.map fun p => { p with trap := causeOf c 0, va := va } } else q }

/-- The key space of a request that performs at its home is still the issuing context's (R388). -/
def State.ksHeld (s : State) (r : Req) (k : Nat) : Bool :=
  match s.group? r.gid with
  | some g => s.ksOk g k
  | none => false

/-- Spills a put into its key space's ring (R401). -/
def State.spill (s : State) (r : Req) (x : HRec) (ans : List LineAnswer) : State :=
  let e := s.ks x.ks
  let o := hamperAgent r
  if ksCap e = 0 then s.answer r 3
  else
    match s.hRead o (ksBase e) 16 ans with
    | (s, .wait, _) => s
    | (s, .bad, _) => s.answerTrap r cHmSpillFault (ksBase e)
    | (s, .ok h, ans) =>
      let put : DWord := fld h 0 64
      let take : DWord := fld h 64 64
      if (put - take).toNat = ksCap e then s.answer r 3
      else
        match s.hWrite o (ksBase e) 8 ((put + 1).setWidth 512) ans with
        | (s, .wait, _) => s
        | (_, .bad, _) => s.answerTrap r cHmSpillFault (ksBase e)
        | (_, .ok _, _) =>
          let va := ringSlot e put
          match s.hWrite o va 64 (x.bytes (if x.op = opUnion then r.slice else 0xFFFF)) ans with
          | (s, .wait, _) => s
          | (s, .bad, _) => s.answerTrap r cHmSpillFault va
          | (s, .ok _, ans) =>
            match s.hWrite o (ksBase e) 8 ((put + 1).setWidth 512) ans with
            | (s, .ok _, _) => (s.addLive x.ks 1).answer r 2
            | (s, _, _) => s

/-- A put at its home: it folds, forms a record, or spills (R392, R393, R401). -/
def State.putAtHome (s : State) (r : Req) (ans : List LineAnswer) : State :=
  let x := s.putRec r
  let q := s.quad r.slice
  if !s.ksHeld r x.ks then s.answerTrap r cHmKspace (noVA cHmKspace)
  else if x.op = opUnion ∧ rangeHi x.payload ≤ rangeLo x.payload then s.answer r hmBadArg
  else
    match oldest (q.hrecs.filter fun w => w.matches x) with
    | some w =>
      (s.updQuad r.slice fun q => { q with hrecs := q.hrecs.map fun v => if v.stamp = w.stamp then w.fold x else v }).answer r 1
    | none =>
      if (q.hrecs.filter fun w => w.set == x.set).length < 8 then
        let x := { x with stamp := s.hamper.nextStamp }
        let s := { s with hamper := { s.hamper with nextStamp := s.hamper.nextStamp + 1 } }
        ((s.updQuad r.slice fun q => { q with hrecs := q.hrecs ++ [x] }).addLive x.ks 1).answer r 0
      else s.spill r x ans

/-! ### Gets (R395, R402, R406) -/

/-- The 14 words of a record block (R403). -/
def recBlock (x : HRec) (base : DWord) (split ring : Bool) (slice : Nat) : List Word :=
  let code := base + (x.entry.setWidth 64 <<< 2)
  [BitVec.ofNat 32 (16 * x.op) ||| (if split then 0x200#32 else 0) ||| (if ring then 0x400#32 else 0),
   BitVec.ofNat 32 (x.ks + 65536 * (slice % 256)), x.key.extractLsb' 0 32, x.key.extractLsb' 32 32,
   code.extractLsb' 0 32, code.extractLsb' 32 32] ++ (List.range 8).map (payWord x.payload)

/-- The block of a get that takes nothing: EMPTY or LIMIT, with the code value of role 0's entry block (R406). -/
def State.emptyBlock (s : State) (g : Group) (status : Nat) : List Word :=
  let code := match s.launch? g.launch with
    | some l => (match l.roles with
      | r :: _ => r.2.2.2
      | [] => 0)
    | none => 0
  [BitVec.ofNat 32 status, 0, 0, 0, code.extractLsb' 0 32, code.extractLsb' 32 32, 0, 0, 0, 0, 0, 0, 0, 0]

/-- What a request keeps of a lane that has its block: the lane and 14 words. -/
def blockWords (lane : Nat) (ws : List Word) : List DWord := BitVec.ofNat 64 lane :: ws.map fun w => w.setWidth 64

/-- Lanes of a get that have their blocks: words 0 and 1 are the key space and the visits made. -/
def Req.blocks (r : Req) : List (List DWord) :=
  (List.range ((r.words.length - 2) / 15)).map fun k => (r.words.drop (2 + 15 * k)).take 15

def Req.served (r : Req) (lane : Nat) : Bool := r.blocks.any fun b => b.head? == some (BitVec.ofNat 64 lane)

def State.addBlock (s : State) (r : Req) (lane : Nat) (ws : List Word) : State :=
  s.updReq r.id fun q => { q with words := q.words ++ blockWords lane ws }

/-- A range record that a get splits: its middle, the half that the getter receives and the half that waits (R395). -/
def HRec.splits (x : HRec) : Bool :=
  x.op == opUnion && decide ((rangeGrain x.payload : Int) < rangeHi x.payload - rangeLo x.payload)
def HRec.mid (x : HRec) : Int := rangeLo x.payload + (rangeHi x.payload - rangeLo x.payload) / 2
def HRec.upper (x : HRec) : HRec := { x with payload := setRange x.payload x.mid (rangeHi x.payload) }
def HRec.lower (x : HRec) : HRec := { x with payload := setRange x.payload (rangeLo x.payload) x.mid }

/-- A lane has its record (R395, R411). -/
def State.giveRec (s : State) (r : Req) (lane : Nat) (x : HRec) (ring : Bool) (slice : Nat) : State :=
  let s := if x.splits then s.addLive x.ks 1 else s
  let base := match s.group? r.gid with
    | some g => s.codeBase g
    | none => 0
  (s.updGroup r.gid fun g => g.took x.ks).addBlock r lane (recBlock (if x.splits then x.upper else x) base x.splits ring slice)

/-- A lane takes a record from a slice (R395). -/
def State.takeFrom (s : State) (r : Req) (lane slice : Nat) (x : HRec) : State :=
  (s.updQuad slice fun q =>
    { q with hrecs := if x.splits then q.hrecs.map fun (v : HRec) => if v.stamp = x.stamp then v.lower else v
                      else q.hrecs.filter fun v => v.stamp != x.stamp }).giveRec r lane x false slice

/-- The lanes of a get visit a slice in ascending order (R397). -/
def State.visitSlice (s : State) (r : Req) (ks slice : Nat) : List Nat → State
  | [] => s
  | lane :: rest =>
    match s.req? r.id, s.group? r.gid with
    | some q, some g =>
      if q.served lane then s.visitSlice r ks slice rest
      else if !g.mayTake ks then (s.addBlock r lane (s.emptyBlock g 2)).visitSlice r ks slice rest
      else
        match oldest ((s.quad slice).hrecs.filter fun x => x.ks == ks) with
        | none => s.visitSlice r ks slice rest
        | some x => (s.takeFrom r lane slice x).visitSlice r ks slice rest
    | _, _ => s

/-- An address is a landing block of a kernel: what `chkland` accepts (R300, R402); none while the walk waits. -/
def State.landing (s : State) (quad guest kernel : Nat) (x : DWord) : State × Option Bool :=
  if fldN x 55 9 ≠ 0 ∨ fldN x 0 2 ≠ 0 then (s, some false)
  else
    match s.translate none quad guest x .fetch with
    | (s, .error e) => (s, if e.waits then none else some false)
    | (s, .ok t) =>
      let e := s.seal t.ppn
      (s, some (!t.remote && isHbm t.ppn && sealedBit e && sealKernel e == kernel &&
        (alookup s.trusted.bitmaps (sealBitmap e) 0).getLsbD (fldN x 2 14)))

/-- Whether a ring slot's record may be handed out (R402); none while a walk waits. -/
def State.ringValid (s : State) (g : Group) (ks : Nat) (x : HRec) : State × Option Bool :=
  if 0x1A ≤ x.op ∨ x.tenant ≠ ksTenant (s.ks ks) ∨ x.ks ≠ ks then (s, some false)
  else s.landing (quadOf g.core) g.guest (ksKernel (s.ks ks)) (s.codeBase g + (x.entry.setWidth 64 <<< 2))

/-- A lane that gets no record: its block, and the trap that it takes if any. -/
def State.ringFault (s : State) (r : Req) (g : Group) (lane : Nat) (c : DWord) (va : DWord) : State :=
  s.updReq r.id fun q => { q with words := q.words ++ blockWords lane (s.emptyBlock g 1),
                                  parts := q.parts.map fun p => if p.lane = lane then { p with trap := c, va := va } else p }

/-- A lane takes from the key space's ring (R402): at most `fuel` slots are looked at. True when it is done, with the answers
that are left. -/
def State.takeRing (s : State) (r : Req) (g : Group) (ks lane : Nat) (ans : List LineAnswer) :
    Nat → State × Bool × List LineAnswer
  | 0 => (s, false, ans)
  | fuel + 1 =>
    let e := s.ks ks
    let o := hamperAgent r
    let fault := causeOf cHmSpillFault 0
    if ksCap e = 0 then (s.addBlock r lane (s.emptyBlock g 1), true, ans)
    else
      match s.hRead o (ksBase e) 16 ans with
      | (s, .wait, ans) => (s, false, ans)
      | (s, .bad, ans) => (s.ringFault r g lane fault (ksBase e), true, ans)
      | (s, .ok h, ans) =>
        let take : DWord := fld h 64 64
        if (fld h 0 64 : DWord) = take then (s.addBlock r lane (s.emptyBlock g 1), true, ans)
        else
          let va := ringSlot e take
          match s.hRead o va 64 ans with
          | (s, .wait, ans) => (s, false, ans)
          | (s, .bad, ans) => (s.ringFault r g lane fault va, true, ans)
          | (s, .ok x, ans) =>
            let x := recOf x
            match s.ringValid g ks x with
            | (s, none) => (s, false, ans)
            | (s, some ok) =>
              let split := ok && x.splits
              let got := if split then s.hWrite o (va + 24#64) 8 ((payPair x.lower.payload 2).setWidth 512) ans
                else s.hWrite o (ksBase e + 8#64) 8 ((take + 1).setWidth 512) ans
              match got with
              | (s, .wait, ans) => (s, false, ans)
              | (s, .bad, ans) => (s.ringFault r g lane fault (if split then va else ksBase e), true, ans)
              | (s, .ok _, ans) =>
                if ok then
                  let (s, v) := s.unstated
                  (s.giveRec r lane x true (v % 256), true, ans)
                else ((s.addLive ks (-1)).log (.hamperDiscard ks)).takeRing r g ks lane ans fuel

/-- The lanes of a get that found nothing in the slices visit the ring in ascending order. -/
def State.visitRing (s : State) (r : Req) (ks : Nat) (ans : List LineAnswer) : List Nat → State
  | [] => s
  | lane :: rest =>
    match s.req? r.id, s.group? r.gid with
    | some q, some g =>
      if q.served lane then s.visitRing r ks ans rest
      else if !g.mayTake ks then (s.addBlock r lane (s.emptyBlock g 2)).visitRing r ks ans rest
      else
        match s.takeRing r g ks lane ans 65536 with
        | (s, true, ans) => s.visitRing r ks ans rest
        | (s, false, _) => s
    | _, _ => s

/-- The lanes of a get that have no block, when the key space is no longer the issuing context's (R388). -/
def State.refuseGet (s : State) (r : Req) : List Nat → State
  | [] => s
  | lane :: rest =>
    match s.req? r.id, s.group? r.gid with
    | some q, some g =>
      (if q.served lane then s else s.ringFault r g lane (causeOf cHmKspace 0) (noVA cHmKspace)).refuseGet r rest
    | _, _ => s

/-- A get ends once every lane has its block: it is an acquire for the lanes that took a record (R398). -/
def State.endGet (s : State) (r : Req) : State :=
  match s.req? r.id with
  | none => s
  | some q =>
    if q.parts.all fun p => q.served p.lane then
      let lanes := q.blocks.foldl (fun (m : BitVec 64) b =>
        if fldN ((b[1]?).getD 1) 0 4 = 0 then m ||| (1#64 <<< ((b[0]?).getD 0).toNat) else m) 0#64
      let s := if lanes = 0#64 then s else s.acquireEffect r.gid lanes r.scope fun _ => false
      s.updReq r.id fun q => { q with done := true }
    else s

/-- A get's next visit: one slice, and after the 160 slices the ring. -/
def State.getAtHome (s : State) (r : Req) (ans : List LineAnswer) : State :=
  let ks := (r.word 0).toNat
  let k := (r.word 1).toNat
  let lanes := r.parts.map fun p => p.lane
  if !s.ksHeld r ks then (s.refuseGet r lanes).endGet r
  else if k < 160 then
    let s := s.visitSlice r ks ((quadOf r.core + k) % 160) lanes
    (s.updReq r.id fun q => { q with words := (r.word 0) :: BitVec.ofNat 64 (k + 1) :: q.words.drop 2 }).endGet r
  else (s.visitRing r ks ans lanes).endGet r

/-! ### The other requests at their homes -/

/-- A key-space function (R408). A ring header that cannot be written traps, and nothing is opened (log 36). -/
def State.kscfgAtHome (s : State) (r : Req) (ans : List LineAnswer) : State :=
  match s.group? r.gid with
  | none => s
  | some g =>
    let fn := (r.word 0).toNat
    let ks := (r.word 1).toNat
    let a := r.word 2
    let b := r.word 3
    let e := s.ks ks
    if fn = 0 then
      if ksOpen e then s.answer r hmBusy
      else if fldN a 0 7 ≠ 0 ∨ 2 ^ 24 < b.toNat then s.answer r hmBadArg
      else
        let opened := mkKs a b.toNat 0 g.kernel g.tenant true
        if b = 0 then (s.setKs ks opened).answer r 0
        else
          match s.hWrite (hamperAgent r) a 16 0 ans with
          | (s, .wait, _) => s
          | (s, .bad, _) => s.answerTrap r cHmSpillFault a
          | (s, .ok _, _) => (s.setKs ks opened).answer r 0
    else if !s.ksOk g ks then s.answerTrap r cHmKspace (noVA cHmKspace)
    else if fn = 1 then
      ((s.reqs.filter fun q => q.id == r.id || q.follows r.id).foldl (fun s q =>
        s.acquireEffect q.gid q.lanes q.scope fun _ => false) s).answer r (ksLive e).toNat
    else if ksLive e = 0 then
      (s.setKs ks (mkKs (ksBase e) (ksCap e) (ksLive e) (ksKernel e) (ksTenant e) false)).answer r 0
    else s.answer r hmBusy

/-- Writes 64-byte blocks at an address, each in the lines that it lies in. -/
def State.saveBlocks (s : State) (o : EngOp) (va : DWord) (ans : List LineAnswer) : List (BitVec 512) → State × HGot
  | [] => (s, .ok 0)
  | x :: xs =>
    let n := min 64 (128 - va.toNat % 128)
    match s.hWrite o va n x ans with
    | (s, .ok _, ans) =>
      if n = 64 then s.saveBlocks o (va + 64#64) ans xs
      else
        match s.hWrite o (va + BitVec.ofNat 64 n) (64 - n) (x >>> (8 * n)) ans with
        | (s, .ok _, ans) => s.saveBlocks o (va + 64#64) ans xs
        | (s, g, _) => (s, g)
    | (s, g, _) => (s, g)

/-- Reads `n` blocks of 64 bytes, with the answers that are left. -/
def State.loadBlocks (s : State) (o : EngOp) (va : DWord) (ans : List LineAnswer) (acc : List (BitVec 512)) :
    Nat → State × HGot × List (BitVec 512) × List LineAnswer
  | 0 => (s, .ok 0, acc, ans)
  | k + 1 =>
    let n := min 64 (128 - va.toNat % 128)
    match s.hRead o va n ans with
    | (s, .ok x, ans) =>
      if n = 64 then s.loadBlocks o (va + 64#64) ans (acc ++ [x]) k
      else
        match s.hRead o (va + BitVec.ofNat 64 n) (64 - n) ans with
        | (s, .ok y, ans) => s.loadBlocks o (va + 64#64) ans (acc ++ [x ||| (y <<< (8 * n))]) k
        | (s, g, ans) => (s, g, acc, ans)
    | (s, g, ans) => (s, g, acc, ans)

/-- Every waiting record with its slice, in ascending slice and age. -/
def State.allRecords (s : State) : List (Nat × HRec) :=
  (List.range 160).flatMap fun q => (s.quad q).hrecs.map fun x => (q, x)

/-- The key-space table as 128 blocks. -/
def State.ksBlocks (s : State) : List (BitVec 512) :=
  (List.range 128).map fun k => s.ks (2 * k + 1) ++ s.ks (2 * k)

/-- `hm.gdrain` performs (R409). A save area that cannot be written traps, and nothing is drained (log 36). -/
def State.gdrainAtHome (s : State) (r : Req) (ans : List LineAnswer) : State :=
  let gn := (r.word 0).toNat
  let recs := s.allRecords
  if s.hamper.guest ≠ some gn ∨ s.groups.any (fun g => g.resident && !g.ended && g.guest == gn) then s.answer r hmBusy
  else if (r.word 2).toNat < 8256 + 64 * recs.length then s.answer r hmShort
  else
    match s.saveBlocks (hamperAgent r) (r.word 1) ans (BitVec.ofNat 512 recs.length :: s.ksBlocks ++ recs.map fun x => x.2.bytes x.1) with
    | (s, .wait) => s
    | (s, .bad) => s.answerTrap r cHmSpillFault (r.word 1)
    | (s, .ok _) =>
      let s := { s with quads := s.quads.map fun (e : Nat × Quad) => (e.1, { e.2 with hrecs := [] }) }
      ({ s with hamper := { s.hamper with guest := none, kspaces := [] } } : State).answer r 0

/-- Reinstalls records in their order. -/
def State.reinstall (s : State) : List (BitVec 512) → State
  | [] => s
  | x :: xs =>
    let rec' := { recOf x with stamp := s.hamper.nextStamp }
    let s := { s with hamper := { s.hamper with nextStamp := s.hamper.nextStamp + 1 } }
    (s.updQuad (homeOf x) fun q => { q with hrecs := q.hrecs ++ [rec'] }).reinstall xs

/-- `hm.greload` performs (R409). -/
def State.greloadAtHome (s : State) (r : Req) (ans : List LineAnswer) : State :=
  let gn := (r.word 0).toNat
  let o := hamperAgent r
  if s.hamper.guest.isSome then s.answer r hmBusy
  else if (r.word 2).toNat < 8256 then s.answer r hmShort
  else
    match s.loadBlocks o (r.word 1) ans [] 129 with
    | (s, .wait, _, _) => s
    | (s, .bad, _, _) => s.answerTrap r cHmSpillFault (r.word 1)
    | (s, .ok _, head, ans) =>
      let n := fldN ((head[0]?).getD 0) 0 32
      if (r.word 2).toNat < 8256 + 64 * n then s.answer r hmShort
      else
        match s.loadBlocks o (r.word 1 + 8256#64) ans [] n with
        | (s, .wait, _, _) => s
        | (s, .bad, _, _) => s.answerTrap r cHmSpillFault (r.word 1)
        | (s, .ok _, recs, _) =>
          let ks := (List.range 256).foldl (fun (l : List (Nat × BitVec 256)) k =>
            aset l k (fld ((head[1 + k / 2]?).getD 0) (256 * (k % 2)) 256)) []
          ((({ s with hamper := { s.hamper with guest := some gn, kspaces := ks } } : State).reinstall recs).settleOwed gn).answer r 0

/-- HAMPER_AT_HOME: a request performs at its slice, in its order (R396 to R398). `answers` are what other modules answer
when ring memory or a save area lies there. -/
def execHamperAtHome (req : Nat) (answers : List LineAnswer) (s : State) : Out :=
  .next (match s.req? req with
    | none => s
    | some r =>
      if r.done || !s.orderedReady r then s
      else
        match r.kind with
        | .hamper 0 => s.putAtHome r answers
        | .hamper 1 => s.putAtHome r answers
        | .hamper 2 => s.getAtHome r answers
        | .hamper 3 => s.kscfgAtHome r answers
        | .hamper 4 => s.gdrainAtHome r answers
        | .hamper 5 => s.greloadAtHome r answers
        | .hamper f => if (s.req? (r.word 0).toNat).isSome then s
            else s.updReq r.id fun q => { q with kind := .hamper (f - 8), words := q.words.drop 1 }
        | _ => s)

/-! ### HAMPER_RESULT_RETURN (R182, R403) -/

/-- Writes a block to a lane's registers. -/
def Lane.putBlock (l : Lane) (op d : Nat) (ws : List Word) : Lane :=
  (ws.zipIdx).foldl (fun (l : Lane) e => l.deliver op (d + e.2) e.1) l

/-- The words that an answer brings to a lane. -/
def Req.answerWords (r : Req) (p : Part) : List Word :=
  if r.kind = .hamper 2 then
    match r.blocks.find? fun b => b.head? == some (BitVec.ofNat 64 p.lane) with
    | some b => (b.drop 1).map fun w => w.setWidth 32
    | none => []
  else [p.value.setWidth 32]

/-- An answer enters the registers of its lanes, or traps them, and c3 counts down with the last of the instruction's
answers. -/
def execHamperResultReturn (req : Nat) (s : State) : Out :=
  .next (match s.req? req with
    | none => s
    | some r =>
      if !r.kind.isHamper || !r.done then s
      else
        let s := r.parts.foldl (fun (s : State) p =>
          s.giveLanes r.gid (1#64 <<< p.lane) fun _ l =>
            let l := { l with acq := l.acq.filter fun i => i != r.id }
            match p.dst with
            | some d => if p.trap = 0#64 then l.putBlock r.op d (r.answerWords p) else { l with pend := l.pend.filter fun e => e.2 != r.op }
            | none => l) s
        let folded := (r.kind == .hamper 0 || r.kind == .hamper 1) && r.parts.any fun p => p.trap == 0#64 && p.value == 1#128
        let s := if folded then s.updGroup r.gid fun g => g.count 0x07 1 else s
        let s := (s.lateTraps r.gid [r]).dropReq r.id
        if s.opReqs r.gid r.op = [] then s.updGroup r.gid fun g => { g with q3 := dropOne r.op g.q3 } else s)

end Sys2Proof.Machine
end

