-- ==== Sys2Proof/Machine/Vote.lean ====
section
/-! DEFINITION. The issue vote of a slot (R163, R165 to R168, R173), the issue of a clause (R51, R179, R183, R184,
R191, R296), and the granting of grow requests (R176, R177). -/

namespace Sys2Proof.Machine

/-! ### The lanes that vote -/

/-- A ready lane at a vote point. -/
structure Voter where
  gid : Nat
  lane : Nat
  pack : Nat
  /-- lane position in the slot (R162) -/
  pos : Nat
  pc : DWord
  widx : Nat
  /-- pass number of the loop, for lanes in a body (R296) -/
  pass : Nat
  age : Nat
  deriving DecidableEq, Repr

/-- The groups that can issue on a slot. -/
def State.onSlot (s : State) (core slot : Nat) : List Group :=
  s.groups.filter fun g => g.core == core && g.slot == slot && g.resident && !g.frozen && !g.ended

/-- The wait thresholds of the header at a lane's program counter are met (R165, R182). A lane that is inside a
clause waits for none, and a header that cannot be fetched is fetched at issue, where its fault or its wait arises (R41, R51). -/
def State.headerMet (s : State) (g : Group) (l : Lane) : Bool :=
  if l.widx ≠ 0 then true
  else
    match s.peekClause (quadOf g.core) g.guest l.pc with
    | some c => g.waitsMet c.1
    | none => true

/-- The ready lanes of a group, without those that skip this vote point (R165, R184). -/
def State.votersOf (s : State) (g : Group) : List Voter :=
  (g.lanes.zipIdx).filterMap fun e =>
    let l := e.1
    if l.status = .ready ∧ l.skip = false ∧ s.headerMet g l then
      some { gid := g.gid, lane := e.2, pack := g.pack, pos := g.pos + e.2, pc := l.pc, widx := l.widx, pass := l.pass,
             age := l.age }
    else none

/-- Every ready lane of a slot. -/
def State.voters (s : State) (core slot : Nat) : List Voter := (s.onSlot core slot).flatMap s.votersOf

/-- Two lanes are of one class: one pack, one program counter, and one pass (R165, R296). -/
def Voter.same (a b : Voter) : Bool :=
  a.pack == b.pack && a.pc == b.pc && a.widx == b.widx && a.pass == b.pass

/-- Sorts a lane into its class. -/
def addVoter (v : Voter) : List (List Voter) → List (List Voter)
  | [] => [[v]]
  | c :: cs =>
    match c with
    | [] => [v] :: cs
    | u :: _ => if u.same v then (c ++ [v]) :: cs else c :: addVoter v cs

/-- The classes of a list of lanes. -/
def classesOf (vs : List Voter) : List (List Voter) := vs.foldl (fun cs v => addVoter v cs) []

/-- Age of a class: the greatest age of its lanes. -/
def classAge (c : List Voter) : Nat := c.foldl (fun m v => max m v.age) 0

/-- The lexical order of lists of numbers. -/
def lexLt : List Nat → List Nat → Bool
  | a :: as, b :: bs => decide (a < b) || (a == b && lexLt as bs)
  | _, _ => false

/-- The order by program counter, then by pack, and by pass where those are one (log 129). -/
def placeKey (c : List Voter) : List Nat :=
  match c with
  | [] => []
  | v :: _ => [v.pc.toNat + 4 * v.widx, v.pack, v.pass]

/-- The class that comes first under a key, smallest first. -/
def bestClass (key : List Voter → List Nat) : List (List Voter) → Option (List Voter)
  | [] => none
  | c :: cs =>
    match bestClass key cs with
    | none => some c
    | some d => if lexLt (key d) (key c) then some d else some c

/-- The greatest age; ties by lowest program counter, then lowest pack. -/
def oldestKey (c : List Voter) : List Nat := (2 ^ 64 - classAge c) :: placeKey c

/-- The most lanes; ties by greatest age, lowest program counter and lowest pack. -/
def widestKey (c : List Voter) : List Nat := (64 - c.length) :: oldestKey c

/-- Pick A of R165. -/
def voteA (cs : List (List Voter)) : Option (List Voter) :=
  match bestClass oldestKey cs with
  | none => none
  | some o => if 64 ≤ classAge o then some o else bestClass widestKey cs

/-- The lane positions of a class, as a mask. -/
def positions (c : List Voter) : BitVec 64 := c.foldl (fun m v => m ||| (1#64 <<< v.pos)) 0#64

/-- Pick B of R165. -/
def voteB (cs : List (List Voter)) (a : List Voter) : Option (List Voter) :=
  bestClass oldestKey (cs.filter fun c => c != a && (positions c &&& positions a) == 0#64)

/-! ### Ages and counters -/

/-- Lanes of a class that belong to a group. -/
def classMask (c : List Voter) (gid : Nat) : BitVec 64 :=
  c.foldl (fun m v => if v.gid = gid then m ||| (1#64 <<< v.lane) else m) 0#64

/-- Ages after a vote point, and the end of a skip (R165, R184); event 0x02 counts for a group with a ready lane
that was not issued (R422). The age of a picked lane becomes 0 as its clause issues (log 123). -/
def State.ageLanes (s : State) (core slot : Nat) (vs picked : List Voter) : State :=
  { s with groups := s.groups.map fun g =>
      if g.core = core ∧ g.slot = slot ∧ g.resident ∧ g.frozen = false then
        let all := classMask vs g.gid
        let out := classMask picked g.gid
        let g' := g.mapLanes (BitVec.allOnes 64) fun i l =>
          if l.skip then { l with skip := false }
          else if all.getLsbD i && !out.getLsbD i then { l with age := l.age + 1 }
          else l
        if all &&& ~~~out = 0#64 then g' else g'.count 0x02 1
      else g }

/-! ### Issuing a clause -/

/-- The groups of a class, each with its lanes. -/
def classMembers (c : List Voter) : List (Nat × BitVec 64) :=
  (c.foldl (fun (gs : List Nat) v => if gs.contains v.gid then gs else gs ++ [v.gid]) []).map fun gid => (gid, classMask c gid)

/-- A field of a word takes its encoded value plus `x`: 0 D, 1 SA, 2 SB, 3 OFF of an X-M word (R194). -/
def stepField (f : BitVec 2) (x w : Word) : Word :=
  let lo := if f = 0#2 then 17 else if f = 1#2 then 8 else 0
  let n := if f = 0#2 then 7 else if f = 3#2 then 20 else 8
  let m := (BitVec.ofNat 32 (2 ^ n - 1)) <<< lo
  (w &&& ~~~m) ||| ((w + (x <<< lo)) &&& m)

/-- The words of body clause `idx` in pass `k` (R194, R296). -/
def loopWords (incs : List LoopInc) (idx k : Nat) (ws : List Word) : List Word :=
  incs.foldl (fun ws i =>
    if i.cl.toNat = idx ∧ i.wd ≠ 0#4 then
      ws.modify (i.wd.toNat - 1) (stepField i.fld (BitVec.ofNat 32 k * i.step.signExtend 32))
    else ws) ws

/-- The words that a lane's clause holds in its pass. -/
def Lane.wordsOf (l : Lane) (ws : List Word) : List Word :=
  match l.loop with
  | some lp => loopWords lp.incs lp.idx l.pass ws
  | none => ws

/-- A lane whose clause issues: at a header it takes its guard and clears its latches (R183, R191). -/
def Lane.issue (h : Word) (l : Lane) : Lane :=
  if l.widx = 0 then { l with guard := hdrGuard h l, lat := Vector.replicate 4 0, target := none, past := 0 } else l

/-- A fetch that fails parks the lanes of the pick before the header performs (R448). -/
def State.parkFetch (s : State) (c : List Voter) (cause pc : DWord) : State :=
  (classMembers c).foldl (fun s e => s.updGroup e.1 fun g =>
    g.park (fun l => l.place) (pageRequest cause pc) [] (trapsOf e.2 g.lanes.length cause pc)) s

/-- The pick that a port issues (R165). -/
def pickOf (core slot port : Nat) (c : List Voter) (v : Voter) (h : Word) (ws : List Word) : Pick :=
  { core := core, slot := slot, port := port, hdr := v.pc, cls := hdrClass h, words := ws, pos := v.widx - 1,
    yields := hdrYield h, members := classMembers c, wrote := [] }

/-- A port issues the clause of a class for its lanes, unless its fetch waits for a walk (R41). -/
def State.issueClass (s : State) (core slot port : Nat) (c : List Voter) : State :=
  match c with
  | [] => s
  | v :: _ =>
    match s.group? v.gid with
    | none => s
    | some g =>
      match s.fetchClause core g.guest v.pc with
      | (s, .error .wait) => s
      | (s, .error (.trap cause)) => s.parkFetch c cause v.pc
      | (s, .ok (h, ws)) =>
        let ws := match g.lanes[v.lane]? with
          | some l => l.wordsOf ws
          | none => ws
        let s := (classMembers c).foldl (fun s e => s.updGroup e.1 fun g =>
          let g := g.mapLanes e.2 fun _ l => l.issue h
          if v.widx = 0 then g.count 0x01 1 else g) s
        { s with ports := s.ports ++ [pickOf core slot port c v h ws] }

/-- Both ports of a slot are free. -/
def State.slotFree (s : State) (core slot : Nat) : Bool :=
  !s.ports.any fun p => p.core == core && p.slot == slot

/-- VOTE_POINT: the slot forms its picks and issues their clauses (R165). Vote points are withheld while the power window is
exceeded (R483). -/
def execVotePoint (core slot : Nat) (s : State) : Out :=
  .next (if s.slotFree core slot && !s.plat.throttled then
    let vs := s.voters core slot
    let cs := classesOf vs
    match voteA cs with
    | none => s.ageLanes core slot vs []
    | some a =>
      match voteB cs a with
      | none => (s.ageLanes core slot vs a).issueClass core slot 0 a
      | some b => ((s.ageLanes core slot vs (a ++ b)).issueClass core slot 0 a).issueClass core slot 1 b
  else s)

/-! ### Grow requests (R176, R177) -/

/-- The budget that a waiting group asks for. -/
def Group.growing (g : Group) : Option Nat :=
  (g.lanes.findSome? fun l =>
    match l.status with
    | .waiting (.grow n) => some n
    | _ => none)

/-- Two groups share a lane position of a slot. -/
def Group.shares (g h : Group) : Bool := decide (g.pos < h.pos + h.width) && decide (h.pos < g.pos + g.width)

/-- Rows from `a`, `n` of them, and rows from `b`, `m` of them, are disjoint. -/
def rowsApart (a n b m : Nat) : Bool := decide (a + n ≤ b) || decide (b + m ≤ a)

/-- The groups whose windows a slot holds: those that are resident, and the frozen ones, which keep their storage
(R162, R453). -/
def State.windows (s : State) (core slot : Nat) : List Group :=
  s.groups.filter fun g => g.core == core && g.slot == slot && g.resident && !g.ended

/-- The lowest row at which `n` rows are free at a run of positions, beside the windows listed. -/
def freeRow (ws : List Group) (pos width n : Nat) : Option Nat :=
  ((List.range (if n ≤ 512 then (512 - n) / 8 + 1 else 0)).map fun k => 8 * k).find? fun r =>
    ws.all fun h => !(decide (pos < h.pos + h.width) && decide (h.pos < pos + width)) || rowsApart r n h.row h.budget

/-- The row at which a group's grown window starts: where it is when the rows fit there, or the lowest row that fits. -/
def State.growRow (s : State) (g : Group) (n : Nat) : Option Nat :=
  let others := (s.windows g.core g.slot).filter fun h => h.gid != g.gid
  let here := decide (g.row + n ≤ 512) && others.all fun h => !g.shares h || rowsApart g.row n h.row h.budget
  if here then some g.row else freeRow others g.pos g.width n

/-- The grow requests of a slot that arrived before a group's. -/
def State.growAhead (s : State) (g : Group) : List Group :=
  (s.onSlot g.core g.slot).filter fun h => h.growing.isSome && decide (h.growSeq < g.growSeq)

/-- Whether a slot can grant a group's request now: it fits, no earlier request fits, and no earlier request is past the
limit (R177). -/
def State.grantable (s : State) (g : Group) : Option Nat :=
  match g.growing with
  | none => none
  | some n =>
    if (s.growAhead g).any fun h => h.growLate || (match h.growing with
        | some k => (s.growRow h k).isSome
        | none => false) then none
    else s.growRow g n

/-- A lane whose group grows from `n` to `m` registers: the new ones are zero (R176). -/
def Lane.growTo (l : Lane) (n m : Nat) : Lane :=
  { l with v := l.v.mapIdx fun i x => if n ≤ i ∧ i < m then 0 else x }

/-- GROW_GRANT: the group's window becomes one of the rows that it asked for, and the group proceeds (R176). -/
def State.grantGrow (s : State) (gid : Nat) : State :=
  match s.group? gid with
  | none => s
  | some g =>
    match g.growing, s.grantable g with
    | some n, some row => s.updGroup gid fun g =>
        { g with budget := n, row := row, growLate := false,
                 lanes := g.lanes.map fun l =>
                   let l := l.growTo g.budget n
                   match l.status with
                   | .waiting (.grow _) => l.goOn
                   | _ => l,
                 frames := g.frames.map fun f => { f with saved := f.saved.map fun e =>
                   { e with lane := e.lane.growTo g.budget n } } }
    | _, _ => s

def execGrowGrant (gid : Nat) (s : State) : Out := .next (s.grantGrow gid)

/-- GROW_WAIT_LIMIT: a request that has waited 4,096 core cycles stops later requests of its slot (R177). -/
def execGrowWaitLimit (gid : Nat) (s : State) : Out :=
  .next (s.updGroup gid fun g => if g.growing.isSome then { g with growLate := true } else g)

end Sys2Proof.Machine
end

