-- ==== Sys2Proof/Machine/Storage.lean ====
section
/-! DEFINITION. The storage of teams: what a placement needs and where it lies (R66, R85, R162 to R164, R436), the end of
groups and teams (R294), and the forced reset of a context (R455). -/

namespace Sys2Proof.Machine

/-! ### What is free (R436) -/

/-- The cores that a team uses. -/
def coresOf (quadTeam : Bool) (core : Nat) : List Nat :=
  if quadTeam then [core, core + 1, core + 2, core + 3] else [core]
def Team.cores (t : Team) : List Nat := coresOf t.quadTeam t.core

/-- The key of a team. -/
def Team.key (t : Team) : Nat × Nat := (t.launch, t.team)
def Group.key (g : Group) : Nat × Nat := (g.launch, g.team)

/-- The teams that hold storage on a core, without those whose storage is being claimed. -/
def State.teamsOn (s : State) (skip : List (Nat × Nat)) (core : Nat) : List Team :=
  s.teams.filter fun t => t.resident && t.cores.contains core && !skip.contains t.key

/-- What groups of one pack have in common: kernel, guest, tenant and role (R163). -/
abbrev PackKey := Nat × Nat × Nat × Nat
def Group.packKey (g : Group) : PackKey := (g.kernel, g.guest, g.tenant, g.role)

/-- A register window in a slot: slot, first position, positions, first row, rows, and its pack. -/
structure Window where
  slot : Nat
  pos : Nat
  width : Nat
  row : Nat
  rows : Nat
  pack : Nat
  key : PackKey
  deriving DecidableEq, Repr

/-- The windows that a core holds. -/
def State.windowsOn (s : State) (skip : List (Nat × Nat)) (core : Nat) : List Window :=
  (s.groups.filter fun g => g.core == core && g.resident && !g.ended && !skip.contains g.key).map fun g =>
    { slot := g.slot, pos := g.pos, width := g.width, row := g.row, rows := g.budget, pack := g.pack, key := g.packKey }

/-- Rows of a core that no window holds, counted at every position. -/
def State.freeRows (s : State) (skip : List (Nat × Nat)) (core : Nat) : Nat :=
  8 * 64 * 512 - ((s.windowsOn skip core).map fun w => w.width * w.rows).sum

/-- The lowest line at which a core has a free run of the stash. -/
def State.freeStash (s : State) (skip : List (Nat × Nat)) (core n : Nat) : Option Nat :=
  (List.range (2049 - n)).find? fun b =>
    (s.teamsOn skip core).all fun t => rowsApart b n (t.stashAt core) t.stashLines

/-- The lowest `n` tile-store slots that a core has free. -/
def State.freeSlots (s : State) (skip : List (Nat × Nat)) (core n : Nat) : Option (List (Nat × Nat)) :=
  let used := (s.teamsOn skip core).flatMap fun t => t.slots
  let free := ((List.range 256).filter fun k => !used.contains (core, k)).take n
  if free.length = n then some (free.map fun k => (core, k)) else none

/-- The lowest run of accumulator tiles that a quad has free. -/
def State.freeAcc (s : State) (skip : List (Nat × Nat)) (quad n : Nat) : Option Nat :=
  let ts := s.teams.filter fun t => t.resident && t.core / 4 == quad && !skip.contains t.key
  (List.range (257 - n)).find? fun b => ts.all fun t => rowsApart b n t.accBase t.accCount

/-! ### Where the groups of a team go (R162, R164) -/

/-- A group's place: its core and window, its maximum budget, and its pack. -/
structure Spot where
  core : Nat
  slot : Nat
  pos : Nat
  row : Nat
  rows : Nat
  max : Nat
  pack : Nat
  key : PackKey
  deriving DecidableEq, Repr

/-- What a group to be placed asks for: rows, maximum budget, and what its pack has in common. -/
structure Ask where
  rows : Nat
  max : Nat
  key : PackKey
  deriving DecidableEq, Repr

/-- The runs of positions of a width that a core has. -/
def cells (width : Nat) : List (Nat × Nat) :=
  (List.range 8).flatMap fun s => (List.range (64 / width)).map fun k => (s, k * width)

/-- The maximum budgets of a team's own groups on a run of positions. -/
def loadOf (mine : List Spot) (core : Nat) (c : Nat × Nat) : Nat :=
  ((mine.filter fun x => x.core == core && x.slot == c.1 && x.pos == c.2).map fun x => x.max).sum

/-- The lowest row at which a window fits on a run of positions. -/
def rowFor (ws : List Window) (slot pos width n : Nat) : Option Nat :=
  ((List.range (if n ≤ 512 then (512 - n) / 8 + 1 else 0)).map fun k => 8 * k).find? fun r =>
    ws.all fun w => w.slot != slot || decide (pos + width ≤ w.pos) || decide (w.pos + w.width ≤ pos) ||
      rowsApart r n w.row w.rows

/-- The positions of two windows are disjoint. -/
def Window.apart (w x : Window) : Bool := decide (w.pos + w.width ≤ x.pos) || decide (x.pos + x.width ≤ w.pos)

/-- The pack of a slot that a window joins: the lowest whose groups it may join, or the lowest that the slot does not use;
none when it can join none of the 32 that a slot holds (R163, log 39). -/
def packFor (ws : List Window) (w : Window) : Option Nat :=
  let here := ws.filter fun x => x.slot == w.slot
  let of := fun k => here.filter fun x => x.pack == k
  match (List.range 32).find? fun k => of k != [] && (of k).all fun x => x.key == w.key && x.apart w with
  | some k => some k
  | none => firstFree (here.map fun x => x.pack) 32

/-- A place for one group: on the run of positions with the least of its team's own load where the window fits, a pack takes
it, and the maximum layout holds (R163, R164, log 39). -/
def spotFor (ws : List Window) (mine : List Spot) (core width : Nat) (a : Ask) : Option Spot :=
  let own := (mine.filter fun x => x.core == core).map fun x =>
    ({ slot := x.slot, pos := x.pos, width := width, row := x.row, rows := x.rows, pack := x.pack, key := x.key } : Window)
  let fits := (cells width).filterMap fun c =>
    match rowFor (ws ++ own) c.1 c.2 width a.rows with
    | none => none
    | some r =>
      match packFor (ws ++ own) { slot := c.1, pos := c.2, width := width, row := r, rows := a.rows, pack := 0, key := a.key } with
      | none => none
      | some k => if loadOf mine core c + a.max ≤ 512 then
          some (loadOf mine core c,
            ({ core := core, slot := c.1, pos := c.2, row := r, rows := a.rows, max := a.max, pack := k, key := a.key } : Spot)) else none
  match fits with
  | [] => none
  | f :: fs => some (fs.foldl (fun b x => if x.1 < b.1 then x else b) f).2

/-- Places for the groups of a team, in their order, each on its core. -/
def State.spots (s : State) (skip : List (Nat × Nat)) (width : Nat) (mine : List Spot) :
    List (Nat × Ask) → Option (List Spot)
  | [] => some mine
  | (core, a) :: rest =>
    match spotFor (s.windowsOn skip core) mine core width a with
    | none => none
    | some x => s.spots skip width (mine ++ [x]) rest

/-- Where a team fits: the places of its groups, and its other storage. -/
structure Fit where
  core : Nat
  spots : List Spot
  stashBases : List Nat
  slots : List (Nat × Nat)
  accBase : Nat
  deriving DecidableEq, Repr

/-- Every value of a list of optional values. -/
def allSome : List (Option α) → Option (List α)
  | [] => some []
  | none :: _ => none
  | some x :: xs => (allSome xs).map fun ys => x :: ys

/-- A guest's function is in a Function Level Reset that has not ended (R476). -/
def State.inReset (s : State) (guest : Nat) : Bool := s.plat.resets.any fun e => e.1 == guest

/-- A core, or the first core of a quad, on which a team may be placed: it exists, its quad serves (R488), and it is not
about to be scan-reset (R476). -/
def State.usable (s : State) (quadTeam : Bool) (core : Nat) : Bool :=
  decide (core < 640) && (!quadTeam || core % 4 == 0) && !s.sched.withdrawn.contains (core / 4) && !(s.quad (core / 4)).off &&
    !(s.plat.resets.any fun e => e.2.contains (core / 4))

/-- THE FIT of a team on a core or quad, beside the teams that keep their storage (R164, R436). -/
def State.fit (s : State) (skip : List (Nat × Nat)) (quadTeam : Bool) (core width : Nat) (groups : List Ask)
    (stashQ tileQ accQ : Nat) : Option Fit :=
  if !s.usable quadTeam core then none
  else
    let reqs := groups.zipIdx.map fun e => (if quadTeam then core + e.2 % 4 else core, e.1)
    match s.spots skip width [] reqs, allSome ((coresOf quadTeam core).map fun c => s.freeStash skip c stashQ),
      allSome ((coresOf quadTeam core).map fun c => s.freeSlots skip c tileQ), s.freeAcc skip (core / 4) accQ with
    | some sp, some st, some sl, some acc =>
      some { core := core, spots := sp, stashBases := st, slots := sl.flatten, accBase := acc }
    | _, _, _, _ => none

/-- The cores on which a team of a shape could lie. -/
def candidates (quadTeam : Bool) : List Nat :=
  if quadTeam then (List.range 160).map fun k => 4 * k else List.range 640

/-- The core with the most free rows among those that fit, ties to the lowest (R436). -/
def State.bestCore (s : State) (skip : List (Nat × Nat)) (quadTeam : Bool) (width : Nat) (groups : List Ask)
    (stashQ tileQ accQ : Nat) : Option Fit :=
  let rows := fun c => ((coresOf quadTeam c).map fun k => s.freeRows skip k).sum
  (candidates quadTeam).foldl (fun (best : Option Fit) c =>
    match s.fit skip quadTeam c width groups stashQ tileQ accQ with
    | none => best
    | some f =>
      match best with
      | none => some f
      | some b => if rows b.core < rows c then some f else best) none

/-- The first core where a team fits (R175). -/
def State.firstCore (s : State) (skip : List (Nat × Nat)) (quadTeam : Bool) (width : Nat) (groups : List Ask)
    (stashQ tileQ accQ : Nat) : Option Fit :=
  (candidates quadTeam).findSome? fun c => s.fit skip quadTeam c width groups stashQ tileQ accQ

/-! ### Zeroing (R66, R84, R85) -/

/-- The storage of a team reads as zero. -/
def State.zeroStorage (s : State) (t : Team) : State :=
  let s := t.cores.foldl (fun s c => s.updCore c fun k =>
    { k with stash := k.stash.filter fun e => decide (e.1 < t.stashAt c) || decide (t.stashAt c + t.stashLines ≤ e.1),
             tiles := k.tiles.filter fun e => !t.slots.contains (c, e.1),
             maps := k.maps.filter fun e => mapTeam e.2 != t.local' }) s
  s.updQuad (t.core / 4) fun q =>
    { q with acc := q.acc.filter fun e => decide (e.1 < t.accBase) || decide (t.accBase + t.accCount ≤ e.1) }

/-! ### The end of a team -/

/-- The mapped lines of a team, each with its core. -/
def State.mappedLines (s : State) (t : Team) : List (Nat × Nat) :=
  t.cores.flatMap fun c => ((s.core c).maps.filter fun e => mapTeam e.2 == t.local').flatMap fun e =>
    (List.range (mapCount e.2)).map fun k => (c, mapSoff e.2 + k)

/-- A mapped line of a team of a guest that is saved or ends is written back where its translation now says, when it is
dirty (R45, R70); one that no translation reaches, or that R52 refuses, is dropped and logged (R74, log 38). False while it
waits. -/
def State.backLine (s : State) (guest core line : Nat) : State × Bool :=
  let l := s.sline core line
  match (s.core core).mapOf? line with
  | none => (s, true)
  | some e =>
    if l.state ≠ .dirty then (s, l.state != .filling)
    else
      let drop := fun (s : State) => (s.log (.droppedWrite l.line)).setSline core line { l with state := .clean }
      let va := mapVa e line
      match s.translate (some core) (quadOf core) guest va .writeBack with
      | (s, .error x) => if x.waits then (s, false) else (drop s, true)
      | (s, .ok tr) =>
        if tr.remote then (drop s, true)
        else
          match s.writeBack core (tr.key va) l.ret (s.lineCls core line) l.data with
          | (s, none) => (s, false)
          | (s, some _) => ((s.rehome core line l tr (tr.key va)).flushHalves (tr.key va), true)

/-- Every mapped line of a team is written back; true when all are. -/
def State.backTeam (s : State) (t : Team) : State × Bool :=
  let guest := match s.launch? t.launch with
    | some l => l.guest
    | none => 0
  (s.mappedLines t).foldl (fun x a =>
    match x.1.backLine guest a.1 a.2 with
    | (s, ok) => (s, x.2 && ok)) (s, true)

/-- The mappings of a team end as by `stash.unmap`, once their lines are written back (R70). -/
def State.endMaps (s : State) (t : Team) : State :=
  t.cores.foldl (fun s c =>
    ((s.core c).maps.filter fun e => mapTeam e.2 == t.local').foldl (fun s e => s.unmapEntry c e.1 e.2) s) s

/-- A core forgets requests. -/
def Core.forget (c : Core) (ids : List Nat) : Core :=
  { c with outst := c.outst.filter fun i => !ids.contains i, unsent := c.unsent.filter fun i => !ids.contains i }

/-- A quad forgets a group. -/
def Quad.forget (q : Quad) (gid : Nat) : Quad :=
  let stream := match q.stream with
    | some st => if st.gid = gid then none else some st
    | none => none
  { q with resv := q.resv.filter fun e => e.gid != gid, owner := if q.owner = some gid then none else q.owner,
           ownerQ := q.ownerQ.filter fun k => k != gid, stream := stream }

/-- The requests of a group are no longer made: their tickets end with them (R145). -/
def State.loseTickets (s : State) (gid : Nat) : State :=
  let mine := s.reqs.filter fun r => r.gid == gid && r.granted
  let tickets := fun fab => (mine.filter fun r => r.seq == some fab).flatMap fun r => r.parts.map fun p => p.ticket
  (s.dropTickets false (tickets false)).dropTickets true (tickets true)

/-- An atomic of a group that is gone ends its run at its home or caching slice, which serves the next request (R334). -/
def State.endRuns (s : State) (gid : Nat) : State :=
  let mine := fun (t : HomeTag) => match t.run with
    | some e => e.1 == gid
    | none => false
  (s.home.tags.filter mine).foldl (fun s t =>
    ((((s.updTag t.line fun t => { t with run := none }).pumpAll t.line).answerAsked t.line).pumpCacheAll t.line)) s

/-- A group is gone: nothing in flight belongs to it any more. -/
def State.dropGroup (s : State) (gid : Nat) : State :=
  let ids := (s.reqs.filter fun r => r.gid == gid).map fun r => r.id
  let s := s.loseTickets gid
  let s := s.engOps.foldl (fun s o => if o.gid = gid then s.updQuad o.quad fun q => q.unregister o.opid else s) s
  let s := (s.tileOps.filter fun o => o.gid == gid).foldl (fun s o => s.unpost o.op o.writes) s
  let s : State := { s with
           reqs := s.reqs.filter fun r => r.gid != gid,
           engOps := s.engOps.filter fun o => o.gid != gid,
           tileOps := s.tileOps.filter fun o => o.gid != gid,
           groups := s.groups.filter fun g => g.gid != gid,
           ports := s.ports.map fun p => { p with members := p.members.filter fun e => e.1 != gid },
           cores := s.cores.map fun c => (c.1, c.2.forget ids),
           quads := s.quads.map fun q => (q.1, q.2.forget gid) }
  s.endRuns gid

/-- A team all of whose groups have ended ends: its storage is released and zeroed (R294, R436). Its flask references stay:
the manual releases those of a context that ends by forced reset (R83, log 124). -/
def State.endTeam (s : State) (t : Team) : State :=
  let gids := (s.teamGroups t).map fun g => g.gid
  let s := gids.foldl (fun s k => s.endInflight k) s
  let s := (s.endMaps t).zeroStorage t
  let s := gids.foldl (fun s k => s.dropGroup k) s
  let s := { s with teams := s.teams.filter fun x => x.key != t.key }
  s.updLaunch t.launch fun l => { l with teamsDone := l.teamsDone + 1 }

/-- The teams that have ended. A drain ends when every resident team of its context has ended (R450). -/
def State.settleTeams (s : State) : State :=
  let gone := s.teams.filter fun t => t.resident && (s.teamGroups t).all fun g => g.ended
  let s := gone.foldl (fun s t => match s.backTeam t with
    | (s, true) => s.endTeam t
    | (s, false) => s) s
  { s with sched := { s.sched with launches := s.sched.launches.map fun (l : Launch) =>
      if l.tier = 1 ∧ (s.teams.all fun t => t.launch != l.id || !t.resident) then { l with tier := 0, stoppedFor := none } else l } }

/-! ### FORCED_RESET (R455) -/

/-- The in-flight records of a saved group are done (R410, R455). -/
def State.endSaved (s : State) (g : Group) : State :=
  s.doneFor g.guest g.inflight

/-- A team of a context that ends by forced reset: its references are released, and its storage is zero. -/
def State.resetTeam (s : State) (t : Team) : State :=
  let s := t.flaskRefs.foldl (fun s r => s.setFlask (tokId r) (flDrop (s.flaskEntry (tokId r)))) s
  if t.resident then
    let gids := (s.teamGroups t).map fun g => g.gid
    let s := gids.foldl (fun s k => s.endInflight k) s
    let s := (s.endMaps t).zeroStorage t
    gids.foldl (fun s k => s.dropGroup k) s
  else s

/-- THE FORCED RESET of a context (R455): it ends, with its resident and saved teams; its completion record takes status
RESET at LAUNCH_COMPLETION. -/
def State.forcedReset (s : State) (launch : Nat) : State :=
  let s := (s.teams.filter fun t => t.launch == launch).foldl State.resetTeam s
  let saved := (s.sched.images.filter fun i => i.launch == launch && i.current).flatMap fun i => i.groups
  let s := saved.foldl State.endSaved s
  let s := { s with teams := s.teams.filter fun t => t.launch != launch,
                    sched := { s.sched with images := s.sched.images.map fun (i : Image) =>
                      if i.launch = launch then { i with current := false } else i } }
  s.updLaunch launch fun l => { l with reset := true, tier := 0, stoppedFor := none, linkFrozen := false }

/-- A context ends by forced reset with a cause, which enters the error log (R444). -/
def State.resetFor (s : State) (launch : Nat) (cause : DWord) : State :=
  (s.log (.contextEnded launch cause)).forcedReset launch

end Sys2Proof.Machine
end

