-- ==== Sys2Proof/Machine/Traps.lean ====
section
/-! DEFINITION. The delivery of traps (R443 to R447), the host service of fetch faults (R448), and the debugger's
resumption of stopped lanes (R419). -/

namespace Sys2Proof.Machine

/-- Changes the parked sub-group at a position. -/
def Group.updSub (g : Group) (k : Nat) (f : SubGroup → SubGroup) : Group := { g with parkedSubs := g.parkedSubs.modify k f }

/-- A parked sub-group is no longer parked: its lanes continue where they stand. -/
def Group.unpark (g : Group) (k : Nat) : Group :=
  match g.parkedSubs[k]? with
  | none => g
  | some x => { (g.mapLanes x.lanes fun _ l => if l.status = .parked then { l with status := .ready, age := 0 } else l) with
                parkedSubs := g.parkedSubs.eraseIdx k }

/-! ### Which sub-group is delivered (R444) -/

/-- The lanes of a sub-group are in the innermost handler. -/
def Group.inHandler (g : Group) (x : SubGroup) : Bool :=
  match g.frames with
  | [] => false
  | f :: _ => x.lanes &&& ~~~f.sub.lanes == 0#64

/-- The sub-group that is delivered next, by its position: the oldest, or in a handler the oldest of the handler's own
lanes; one that waits for the host is being served already. -/
def Group.nextSub (g : Group) : Option Nat :=
  (g.parkedSubs.zipIdx).findSome? fun e =>
    let waits := match e.1.fetch with
      | some r => r.sent
      | none => false
    if !waits && (g.frames.isEmpty || g.inHandler e.1) then some e.2 else none

/-! ### HANDLER_ENTRY (R445, R447) -/

/-- The launch image's scalars of a group (R430). -/
def State.launchImage (s : State) (g : Group) : Vector DWord 64 :=
  match s.launch? g.launch with
  | some l => l.image
  | none => Vector.replicate 64 0

/-- A lane enters the handler: its registers stay, and results of earlier operations go to the frame. -/
def Lane.enterHandler (l : Lane) (vec : DWord) : Lane :=
  { l with pc := vec, widx := 0, pass := 0, loop := none, resume := none, target := none, past := 0, status := .ready, age := 0,
           skip := false, pend := [], lat := Vector.replicate 4 0 }

/-- Handler entry for the sub-group at a position, in the order of R445. -/
def Group.enterHandler (g : Group) (k : Nat) (image : Vector DWord 64) (since : Nat) : Group :=
  match g.parkedSubs[k]? with
  | none => g
  | some x =>
    let saved := (g.lanes.zipIdx).filterMap fun e =>
      if x.lanes.getLsbD e.2 then some ({ idx := e.2, lane := e.1 } : FrameLane) else none
    let frame : Frame := { sub := x, saved := saved, bankS := image, bankH := Vector.replicate 32 0, since := since }
    { (g.mapLanes x.lanes fun _ l => l.enterHandler g.trapVec) with
      trapCause := x.cause, trapPC := x.pc, trapVA := x.va, trapMask := g.trapMask ||| 1#2,
      frames := frame :: g.frames, parkedSubs := g.parkedSubs.eraseIdx k }

/-! ### TRAP_DELIVERY -/

/-- A fetch of a page that is not resident is served by the host (R448). -/
def SubGroup.forHost (x : SubGroup) : Bool := x.fetch.isSome && codeOf x.cause == cFetchFault && fldN x.cause 60 4 == 0

/-- PAGE_REQUEST: one page request group for the page, with the guest's PASID (R448). -/
def State.requestPage (s : State) (g : Group) (k : Nat) (x : SubGroup) : State :=
  match x.fetch with
  | none => s
  | some r => (s.updGroup g.gid fun g => g.updSub k fun x =>
      { x with fetch := some { r with sent := true } }).send (.pageRequest g.guest r.va)

/-- THE DELIVERY of a sub-group (R444): to the host, to nothing, to the handler, or as a forced reset of the context. -/
def State.deliverSub (s : State) (g : Group) (k : Nat) (x : SubGroup) : State :=
  if x.forHost then s.requestPage g k x
  else if codeOf x.cause = cScopeFallback ∧ g.masked then s.updGroup g.gid fun g => g.unpark k
  else if g.masked then if g.inHandler x then s.resetFor g.launch x.cause else s
  else if g.trapVec = 0 ∨ 2 ≤ g.frames.length then s.resetFor g.launch x.cause
  else s.updGroup g.gid fun h => h.enterHandler k (s.launchImage g) s.nextId

/-- An earlier operation of a sub-group's lanes is out: what it answers comes first (R193, log 27). -/
def State.subAwaits (s : State) (gid : Nat) (x : SubGroup) : Bool :=
  (List.range 64).any fun i => x.lanes.getLsbD i && s.awaits gid i

def execTrapDelivery (gid : Nat) (s : State) : Out :=
  .next (match s.group? gid with
    | none => s
    | some g =>
      if g.frozen || !g.resident then s
      else
        match g.nextSub with
        | none => s
        | some k =>
          match g.parkedSubs[k]? with
          | none => s
          | some x => if s.subAwaits gid x then s else s.deliverSub g k x)

/-! ### Responses of the host (R448) -/

/-- A response for the sub-group at a position: success replays the fetch, and any other makes it a `FETCH_FAULT` for the
handler with reason 1. -/
def Group.answered (g : Group) (k code : Nat) : Group :=
  match g.parkedSubs[k]? with
  | none => g
  | some x =>
    match x.fetch with
    | none => g
    | some r =>
      if !r.sent then g
      else if code = 0 then g.unpark k
      else g.updSub k fun x => { x with fetch := none, cause := fetchFault 1 }

/-- A response for a saved group is recorded in its image. -/
def Group.recorded (g : Group) (k code : Nat) : Group :=
  g.updSub k fun x => { x with fetch := x.fetch.map fun r => if r.sent then { r with response := some code } else r }

/-- PRG_RESPONSE: codes 0 success, 1 invalid request, and others response failure. -/
def State.prgResponse (s : State) (gid k code : Nat) : State :=
  let s := s.updGroup gid fun g => g.answered k code
  { s with sched := { s.sched with images := s.sched.images.map fun (i : Image) =>
      if i.current then { i with groups := i.groups.map fun (g : Group) => if g.gid = gid then g.recorded k code else g } else i } }

def execPrgResponse (gid k code : Nat) (s : State) : Out := .next (s.prgResponse gid k code)

/-- PRI_TIMEOUT: no response within 1 s is the same as a response failure. -/
def execPriTimeout (gid k : Nat) (s : State) : Out := .next (s.prgResponse gid k 2)

/-! ### Debugging (R419) -/

/-- DEBUGGER_RESUME: the lanes that `brk` stopped continue after it. -/
def execDebuggerResume (gid : Nat) (s : State) : Out := .next (s.release gid .debugger)

end Sys2Proof.Machine
end

