-- ==== Sys2Proof/Machine/Save.lean ====
section
/-! DEFINITION. Pre-emption and context switch (R450 to R459, R175, R178): drain and freeze, the quiescing of a context,
the scan-out of a team to its image, the restore, the rotation of saved teams and the breaking of grow deadlocks. -/

namespace Sys2Proof.Machine

/-! ### Freezing (R450, R451) -/

/-- The lanes of a group that a port is issuing stop where they stand; those at the first word of their clause have
taken their guard (R183, R457). -/
def State.stopPicks (s : State) (gid : Nat) : State :=
  let s := s.ports.foldl (fun s p => s.updGroup gid fun g =>
    g.mapLanes (p.mask gid) fun _ l => if l.widx = 0 ∧ l.pc = p.hdr then { l with widx := p.pos + 1 } else l) s
  { s with ports := s.ports.map fun p => { p with members := p.members.filter fun e => e.1 != gid } }

/-- A group stops: it issues nothing more, and its engine operations stop at their next line boundary. -/
def State.freezeGroup (s : State) (gid : Nat) : State :=
  let s := (s.stopPicks gid).updGroup gid fun g => { g with frozen := true }
  { s with engOps := s.engOps.map fun o => if o.gid = gid then { o with paused := true } else o }

/-- A group goes on. -/
def State.thawGroup (s : State) (gid : Nat) : State :=
  let s := s.updGroup gid fun g => { g with frozen := false }
  { s with engOps := s.engOps.map fun o => if o.gid = gid then { o with paused := false } else o }

/-- The resident groups of a context. -/
def State.launchGids (s : State) (launch : Nat) : List Nat :=
  (s.groups.filter fun g => g.launch == launch && g.resident).map fun g => g.gid

def State.freezeTeam (s : State) (t : Team) : State := (s.teamGroups t).foldl (fun s g => s.freezeGroup g.gid) s

/-- THE FREEZE of a context begins (R450). -/
def State.freezeLaunch (s : State) (launch : Nat) : State :=
  let s := (s.launchGids launch).foldl (fun s k => s.freezeGroup k) s
  s.updLaunch launch fun l => { l with tier := 2, quiesced := false }

/-- THAW_IN_PLACE (R453): the context goes on where it lies, unless the loss of the host link holds it (R479) or it ends with
its function's reset (R476). -/
def State.thawLaunch (s : State) (launch : Nat) : State :=
  match s.launch? launch with
  | none => s
  | some l =>
    if s.inReset l.guest then s
    else
    let s := if l.linkFrozen then s else (s.launchGids launch).foldl (fun s k => s.thawGroup k) s
    s.updLaunch launch fun l => { l with tier := 0, quiesced := false, stoppedFor := none }

/-! ### Quiescing (R451) -/

/-- A lock attempt of a frozen group that has not succeeded is abandoned; the group executes the instruction again. -/
def State.abandonLocks (s : State) (gid : Nat) : State :=
  let failed := s.reqs.filter fun r => r.gid == gid && r.kind == .lockAcq && r.done
  failed.foldl (fun s r => (s.dropReq r.id).updGroup gid fun g =>
    { g with lanes := g.lanes.map fun l => if l.status = .waiting .lock then { l with status := .ready, resume := none } else l }) s

/-- Nothing that a group has issued is still to perform. -/
def State.quietGroup (s : State) (gid : Nat) : Bool :=
  (s.reqs.all fun r => r.gid != gid) &&
    (s.cores.all fun c => c.2.cbuf.all fun e => e.ops.all fun o => o.1 != gid) &&
    (s.quads.all fun q => q.2.resv.all fun e => e.gid != gid || !e.dispatched)

/-- The issued accesses of a context's groups have performed, and its dispatched entries have finished. -/
def State.quietTeam (s : State) (t : Team) : Bool := (s.teamGroups t).all fun g => s.quietGroup g.gid

/-- Mapped lines of teams are written back; true when all are (R70, R451). -/
def State.backTeams (s : State) (ts : List Team) : State × Bool :=
  ts.foldl (fun x t =>
    match x.1.backTeam t with
    | (s, ok) => (s, x.2 && ok)) (s, true)

/-- FREEZE_QUIESCED: the state of a frozen context is whole, and nothing that its image will not hold is dirty (R451). -/
def execFreezeQuiesced (launch : Nat) (s : State) : Out :=
  .next (match s.launch? launch with
    | none => s
    | some l =>
      if l.tier ≠ 2 then s
      else
        let s := (s.launchGids launch).foldl (fun s k => s.abandonLocks k) s
        if (s.launchGids launch).all s.quietGroup then
          match s.backTeams (s.teams.filter fun t => t.launch == launch && t.resident) with
          | (s, true) => s.updLaunch launch fun l => { l with quiesced := true }
          | (s, false) => s
        else s)

/-! ### Tiers (R450, R452) -/

/-- PRE.DL.DRAIN is 0: a drain escalates at once. -/
def State.noDrain (s : State) : Bool := fldN s.regs.preDL 32 32 == 0

/-- A pre-emption of a context begins with a tier, or goes on to it: 1 drain, 2 freeze. -/
def State.preempt (s : State) (launch tier : Nat) (for' : Option Nat) : State :=
  match s.launch? launch with
  | none => s
  | some l =>
    if tier ≤ l.tier ∨ l.reset then s
    else
      let s := s.updLaunch launch fun l => { l with stoppedFor := for' }
      if tier = 2 ∨ s.noDrain then s.freezeLaunch launch else s.updLaunch launch fun l => { l with tier := 1 }

/-- PREEMPT_REQUEST: the tiers of R450, 1 drain, 2 freeze, 3 forced reset; a request with tier 0 ends a freeze of which no
storage has been claimed (R453, R469); with tier 4 the device itself ends a context in whose registers, tiles or accumulator
tiles ECC has met an uncorrectable error (R89, log 10). -/
def execPreemptRequest (launch tier : Nat) (s : State) : Out :=
  .next (if tier = 0 then (if (s.launch? launch).any fun l => l.tier == 2 then s.thawLaunch launch else s)
    else if tier ≤ 2 then s.preempt launch tier none
    else if (s.launch? launch).any (fun l => !l.reset) then
      if tier = 3 then s.forcedReset launch
      else if tier = 4 then s.resetFor launch (causeOf cDataPoison 0)
      else s
    else s)

/-- DRAIN_DEADLINE: a drain that has not ended escalates, masked handlers or not (R450, R452). -/
def execDrainDeadline (launch : Nat) (s : State) : Out :=
  .next (if (s.launch? launch).any fun l => l.tier == 1 then s.freezeLaunch launch else s)

/-- The guest for whose reset a team of a context is to leave its core (R476). -/
def State.resetStops (s : State) (launch : Nat) : Option Nat :=
  s.teams.findSome? fun t => match t.stopped with
    | some (.reset n) => if t.launch = launch ∧ t.resident then some n else none
    | _ => none

/-- FREEZE_DEADLINE: a context that is not quiesced, so that it cannot be scanned out, ends by forced reset (R450); so does
one that must leave a core for the reset of another guest, which the error log records (R476). One that the link loss or its
own function's reset froze has no deadline (R476, R478). -/
def execFreezeDeadline (launch : Nat) (s : State) : Out :=
  .next (match s.resetStops launch with
    | some n => (s.log (.flrEnded launch n)).forcedReset launch
    | none => if (s.launch? launch).any fun l => l.tier == 2 && !l.quiesced && !s.inReset l.guest then s.forcedReset launch else s)

/-! ### The image (R456 to R458) -/

/-- The image header (R456). Its length field counts a layout that the manual does not give (log 11). -/
def State.imageHeader (s : State) (l : Launch) (t : Team) (ctr : DWord) (len : Nat) : BitVec 512 :=
  let tag := if l.prot then Config.gcmTag (alookup s.trusted.keys l.keyIdx 0) ctr t.team else 0
  tag ++ (if l.prot then ctr else 0) ++ BitVec.ofNat 32 t.team ++ BitVec.ofNat 24 l.kernel ++ BitVec.ofNat 12 l.guest ++
    BitVec.ofNat 16 l.tenant ++ bit l.prot ++ bit t.quadTeam ++ 0#18 ++ BitVec.ofNat 16 l.keyIdx ++ BitVec.ofNat 32 len ++ 0#168

/-- The ownership of writable mappings' lines is released, and every mapped line is invalid in the image; the dirty ones have
been written back (R70, R74). -/
def State.saveMaps (s : State) (t : Team) : State :=
  t.cores.foldl (fun s c =>
    ((s.core c).maps.filter fun e => mapTeam e.2 == t.local').foldl (fun s e =>
      (List.range (mapCount e.2)).foldl (fun s k =>
        let n := mapSoff e.2 + k
        let l := s.sline c n
        let s := if mapMode e.2 = 1 ∧ (l.state = .clean ∨ l.state = .dirty) then s.disown c l.line else s
        s.setSline c n { StashLine.zero with state := .invalid }) s) s) s

/-- A lane that waits for something it will try again does so after the restore. -/
def Lane.saved (l : Lane) : Lane :=
  match l.status with
  | .waiting .ring => l.goOn
  | .waiting .resource => l.goOn
  | _ => l

/-- A group as its image holds it. -/
def Group.saved (g : Group) : Group := { g with resident := false, frozen := false, lanes := g.lanes.map Lane.saved }

/-- The image of a team whose state is whole. -/
def State.imageOf (s : State) (l : Launch) (t : Team) (ctr : DWord) : Image :=
  let gs := s.teamGroups t
  let mine := fun gid => gs.any fun g => g.gid == gid
  let q := s.quad (t.core / 4)
  let ops := s.engOps.filter fun o => mine o.gid
  { id := s.sched.nextImage, launch := t.launch, header := s.imageHeader l t ctr (Config.unstated s.fresh).toNat, current := true,
    team := { t with stopped := none }, groups := gs.map Group.saved,
    stash := t.cores.flatMap fun c => ((s.core c).stash.filter fun e =>
      decide (t.stashAt c ≤ e.1) && decide (e.1 < t.stashAt c + t.stashLines)).map fun e => (c - t.core, e.1 - t.stashAt c, e.2),
    maps := t.cores.flatMap fun c => ((s.core c).maps.filter fun e => mapTeam e.2 == t.local').map fun e => (c - t.core, e.2),
    tiles := t.slots.map fun a => (a.1 - t.core, a.2, s.slot a.1 a.2),
    acc := (q.acc.filter fun e => decide (t.accBase ≤ e.1) && decide (e.1 < t.accBase + t.accCount)).map fun e => (e.1 - t.accBase, e.2),
    resv := q.resv.filter fun e => mine e.gid, tileOps := s.tileOps.filter fun o => mine o.gid, engOps := ops,
    ranges := ops.flatMap fun o => (q.entriesOf o.opid).map fun e => (o.opid, e),
    owner := q.owner.filter mine, queued := q.ownerQ.filter mine,
    stream := q.stream.filter fun st => mine st.gid }

/-- One save event of a context: its save counter counts once when it is protected (R458). -/
def State.saveEvent (s : State) (l : Launch) : State × DWord :=
  if l.prot then
    let n := alookup s.trusted.saveCtrs l.id 0 + 1
    ({ s with trusted := { s.trusted with saveCtrs := aset s.trusted.saveCtrs l.id n } }, n)
  else (s, 0)

/-- The recorded CTR of a team (R458, R459). -/
def Trusted.record (x : Trusted) (launch team : Nat) (ctr : Option DWord) : Trusted :=
  let rest := x.savedCtr.filter fun e => !(e.1 == launch && e.2.1 == team)
  { x with savedCtr := match ctr with
      | some c => rest ++ [(launch, team, c)]
      | none => rest }

/-- SCAN_OUT of one team (R453): its image is written, its storage is free, and it is saved. -/
def State.saveTeam (s : State) (l : Launch) (t : Team) (ctr : DWord) : State :=
  let s := s.saveMaps t
  let img := s.imageOf l t ctr
  let s := if l.prot then { s with trusted := s.trusted.record t.launch t.team (some ctr) } else s
  let s := (s.zeroStorage t)
  let s := img.groups.foldl (fun s g => s.dropGroup g.gid) s
  let s := s.updTeam t.launch t.team fun t => { t with resident := false, stopped := none }
  { s with fresh := s.fresh + 1,
           sched := { s.sched with nextImage := s.sched.nextImage + 1, images := (s.sched.images.map fun (i : Image) =>
             if i.launch = t.launch ∧ i.team.team = t.team then { i with current := false } else i) ++ [img] } }

/-- Saves teams of one context in one save event. -/
def State.saveTeams (s : State) (launch : Nat) (ts : List Team) : State :=
  match s.launch? launch, ts with
  | none, _ => s
  | _, [] => s
  | some l, ts =>
    let (s, ctr) := s.saveEvent l
    ts.foldl (fun s t => s.saveTeam l t ctr) s

/-- Saves the teams of a list, context by context. -/
def State.saveAll (s : State) (ts : List Team) : State :=
  ((ts.map fun t => t.launch).eraseDups).foldl (fun s k => s.saveTeams k (ts.filter fun t => t.launch == k)) s

/-! ### Loading an image (R459) -/

/-- A field of an entry. -/
def putBits (e : BitVec 128) (lo n x : Nat) : BitVec 128 :=
  (e &&& ~~~(BitVec.ofNat 128 (2 ^ n - 1) <<< lo)) ||| (BitVec.ofNat 128 (x % 2 ^ n) <<< lo)

/-- A slot of the old quota in the new one. -/
def newSlot (t : Team) (f : Fit) (a : Nat × Nat) : Nat × Nat :=
  match t.slots.findIdx? fun b => b == a with
  | some i => (f.slots[i]?).getD a
  | none => a

def OpTile.move (t : Team) (f : Fit) (o : OpTile) : OpTile :=
  let side := fun (x : Nat × Nat × DWord) => let b := newSlot t f (x.1, x.2.1); (b.1, b.2, x.2.2)
  let a := newSlot t f (o.core, o.slot)
  { o with core := a.1, slot := a.2, scale := o.scale.map side, zero := o.zero.map side }

def ResvEntry.move (t : Team) (f : Fit) (e : ResvEntry) : ResvEntry :=
  { e with acc := e.acc - t.accBase + f.accBase, rows := e.rows.map fun r => (r.1, r.2.1, r.2.2.move t f),
           b := e.b.map (OpTile.move t f), dst := e.dst.map (OpTile.move t f), param := e.param.map (OpTile.move t f) }

def TileOp.move (t : Team) (f : Fit) (o : TileOp) : TileOp :=
  { o with src := o.src.map (OpTile.move t f), dst := o.dst.map (OpTile.move t f), writes := o.writes.map (newSlot t f) }

/-- A rename-table entry names the new slots. -/
def moveRename (t : Team) (f : Fit) (e : DWord) : DWord :=
  let slots := (t.slotsOf e).map (newSlot t f)
  let word := (slots.zipIdx).foldl (fun (w : BitVec 32) a => w ||| (BitVec.ofNat 32 a.1.2 <<< (8 * a.2))) 0
  if renState e = rsFree then e
  else mkRen (renGen e) (renState e) (renBlanket e) (if renBlanket e then 0 else (slots.head?.map fun a => a.1 % 4).getD 0) word

/-- A core of the team's old place in the new one. -/
def newCore (t : Team) (f : Fit) (core : Nat) : Nat := core - t.core + f.core

/-- A range-lock entry at the new place, under a new identifier: a stash range moves with its quota. -/
def moveRange (t new : Team) (f : Fit) (opid : Nat) (e : BitVec 128) : BitVec 128 :=
  let e := putBits e 100 8 opid
  if rangeStash e then
    let old := t.core / 4 * 4 + rangeCore e
    let c := newCore t f old
    putBits (putBits e 121 2 (c % 4)) 0 55 (rangeBase e - 128 * t.stashAt old + 128 * new.stashAt c)
  else e

/-- Software's changes of an image (R470). -/
def applyEdit (e : ImageEdit) (gs : List Group) : List Group :=
  gs.modify e.group fun g =>
    if 192 ≤ e.field then g.setOwnScalar (e.field - 192) e.value
    else g.mapLanes (1#64 <<< e.lane) fun _ l =>
      if e.field < 128 then l.setReg e.field (e.value.setWidth 32)
      else if e.field = 128 then { l with p := e.value.setWidth 8 }
      else { l with pc := e.value, widx := 0 }

/-- A restored group at its new place: parked fetches are tried again (R448). -/
def Group.restoredAt (g : Group) (x : Spot) : Group :=
  let g := (g.parkedSubs.zipIdx.reverse).foldl (fun (g : Group) e => if e.1.fetch.isSome then g.unpark e.2 else g) g
  { g with core := x.core, slot := x.slot, pos := x.pos, row := x.row, pack := x.pack, resident := true,
           frozen := false }

/-- A core drops its whole L1: what groups that come to it acquired elsewhere holds here too (R139, R156, log 119). -/
def State.dropL1 (s : State) (core : Nat) : State := s.updCore core fun c => { c with l1 := [] }

/-- The lowest core-local index that no team uses on the cores of a place (R67). -/
def State.freeLocal (s : State) (skip : List (Nat × Nat)) (cores : List Nat) : Nat :=
  (firstFree ((cores.flatMap fun c => s.teamsOn skip c).map fun t => t.local') 256).getD 0

/-- The team at its new place. -/
def State.movedTeam (s : State) (t : Team) (f : Fit) : Team :=
  { t with core := f.core, local' := s.freeLocal [] (coresOf t.quadTeam f.core), seq := s.sched.nextSeq, resident := true,
           stashBases := f.stashBases, slots := f.slots, accBase := f.accBase, rename := t.rename.map (moveRename t f) }

/-- A stopped engine operation at its new place. A collective whose set does not name the new quad stops (R466). -/
def State.moveEngine (s : State) (t : Team) (f : Fit) (opid : Nat) (o : EngOp) : EngOp :=
  let o := { o with core := newCore t f o.core, quad := f.core / 4, opid := opid, after := [], paused := false }
  if (o.kind = .coll ∨ o.kind = .drainColl) ∧ f.core / 4 ≠ t.core / 4 ∧ o.cause = 0 then
    let ranks := s.collRanks (collSet o.ctrl)
    if ranks.contains (s.thisNode, f.core / 4) then { o with ranks := ranks } else o.fail engInvalid 0
  else o

/-- Restores the engine operations of an image one by one. -/
def State.restoreEngines (s : State) (img : Image) (new : Team) (f : Fit) : List EngOp → State
  | [] => s
  | o :: os =>
    let quad := f.core / 4
    let used := (s.engOps.filter fun p => p.quad == quad).map fun p => p.opid
    let opid := if used.contains o.opid then (firstFree used 256).getD 0 else o.opid
    let es := (img.ranges.filter fun e => e.1 == o.opid).map fun e => moveRange img.team new f opid e.2
    let s := s.updQuad quad fun q => q.register es
    ({ s with engOps := s.engOps ++ [s.moveEngine img.team f opid o] } : State).restoreEngines img new f os

/-- Puts a group in an owner queue by its time of joining. -/
def State.rejoin (s : State) (quad gid : Nat) : State :=
  let time := fun k => match s.group? k with
    | some g => g.joined
    | none => 0
  s.updQuad quad fun q =>
    { q with ownerQ := (q.ownerQ.filter fun k => decide (time k ≤ time gid)) ++ [gid] ++ q.ownerQ.filter fun k => decide (time gid < time k) }

/-- A stream at its new place: the rings of a core team lie on the new core. -/
def Stream.move (st : Stream) (new : Team) : Stream :=
  if new.quadTeam then st
  else { st with rings := st.rings.map fun d => (d &&& ~~~(0x300#16)) ||| (BitVec.ofNat 16 (new.core % 4) <<< 8) }

/-- The mappings of an image enter the table of their core, with their new index and lines. -/
def State.restoreMaps (s : State) (img : Image) (new : Team) (f : Fit) : State :=
  img.maps.foldl (fun s e =>
    let c := f.core + e.1
    let soff := mapSoff e.2 - img.team.stashAt (img.team.core + e.1) + new.stashAt c
    let entry := putBits (putBits e.2 88 8 new.local') 63 11 soff
    s.updCore c fun k => { k with maps := aset k.maps ((firstFree (k.maps.map fun m => m.1) 64).getD 0) entry }) s

/-- EVERY SECTION OF AN IMAGE is loaded at a place (R459). -/
def State.loadImage (s : State) (img : Image) (f : Fit) : State :=
  let t := img.team
  let new := s.movedTeam t f
  let s := { s with teams := s.teams.map fun (x : Team) => if x.key = t.key then new else x,
                    sched := { s.sched with nextSeq := s.sched.nextSeq + 1 } }
  let s := s.zeroStorage new
  let s := img.stash.foldl (fun s e => s.setSline (f.core + e.1) (new.stashAt (f.core + e.1) + e.2.1) e.2.2) s
  let s := img.tiles.foldl (fun s e =>
    let a := newSlot t f (t.core + e.1, e.2.1)
    s.updSlot a fun _ => e.2.2) s
  let s := s.restoreMaps img new f
  let quad := f.core / 4
  let s := s.updQuad quad fun q =>
    { q with acc := img.acc.foldl (fun l e => aset l (f.accBase + e.1) e.2) q.acc,
             resv := q.resv ++ img.resv.map (ResvEntry.move t f) }
  let s := { s with tileOps := s.tileOps ++ img.tileOps.map (TileOp.move t f) }
  let s := (coresOf t.quadTeam f.core).foldl State.dropL1 { s with groups := s.groups ++ (img.groups.zip f.spots).map fun e => e.1.restoredAt e.2 }
  let s := s.restoreEngines img new f img.engOps
  let s := img.queued.foldl (fun s k => s.rejoin quad k) s
  let s := match img.stream with
    | some st => s.updQuad quad fun q => { q with stream := some (st.move new) }
    | none => s
  match img.owner with
  | none => s
  | some k =>
    if img.stream.isSome then s.updQuad quad fun q => { q with owner := some k }
    else if (s.quad quad).owner.isNone && (s.quad quad).stream.isNone then s.updQuad quad fun q => { q with owner := some k }
    else s.rejoin quad k

/-- Beside its storage, an image needs room in the tables of its quad and cores. -/
def State.tablesFit (s : State) (img : Image) (f : Fit) : Bool :=
  let q := s.quad (f.core / 4)
  decide (q.ranges.length + img.ranges.length ≤ 128) && decide (q.resv.length + img.resv.length ≤ 64) &&
    decide (q.ownerQ.length + img.queued.length < 64) &&
    ((List.range 4).all fun c => decide ((s.core (f.core + c)).maps.length + (img.maps.filter fun e => e.1 == c).length ≤ 64)) &&
    (img.stream.isNone || (q.owner.isNone && q.stream.isNone && q.ownerQ.isEmpty))

/-- What a saved team's groups ask for. -/
def State.savedShape (s : State) (img : Image) : List Ask :=
  img.groups.map fun g =>
    { rows := g.budget, key := g.packKey, max := match s.launch? img.launch with
        | some l => ((l.roles[g.role]?).map fun r => r.2.2.1).getD 128
        | none => 128 }

/-- Width of a saved team's groups. -/
def Image.width (img : Image) : Nat := (img.groups.head?.map fun g => g.width).getD 8

/-- The place on a core where an image fits. -/
def State.fitImage (s : State) (skip : List (Nat × Nat)) (img : Image) (core : Nat) : Option Fit :=
  let tileQ := (img.team.slots.filter fun a => a.1 == img.team.core).length
  (s.fit skip img.team.quadTeam core img.width (s.savedShape img) img.team.stashLines tileQ img.team.accCount).filter
    fun f => s.tablesFit img f

/-! ### RESTORE (R459) -/

/-- Results of a restore. -/
def restoreOk : Nat := 0
def ctxTag : Nat := 1
def ctxStale : Nat := 2

/-- The checks of a protected image: its tag, which any change of its bytes breaks, and its counter. -/
def State.checkImage (s : State) (l : Launch) (img : Image) (edits : List ImageEdit) : Nat :=
  if !l.prot then restoreOk
  else if edits ≠ [] then ctxTag
  else if s.trusted.savedCtr.any fun e => e == (img.launch, img.team.team, fld img.header 320 64) then restoreOk
  else ctxStale

/-- A restore is refused: nothing is placed, and the context ends (R459). -/
def State.refuseRestore (s : State) (img : Image) (result : Nat) : State :=
  let s := (s.log (.restoreRefused img.launch img.team.team result)).forcedReset img.launch
  { s with sched := { s.sched with restoreResult := result } }

/-- A context may be placed now: its guest has the device, and the Hamper when its kernel is not privileged, and nothing stops
it (R410, R439, R450, R484). -/
def State.mayPlace (s : State) (l : Launch) : Bool :=
  s.sched.guest == l.guest && s.sched.switchTo.isNone && !s.inReset l.guest && l.tier == 0 && !l.reset && !l.linkFrozen && s.plat.power != .deepSleep &&
    (l.priv || s.hamper.guest.isNone || s.hamper.guest == some l.guest)

/-- The Hamper of a guest comes to the device: its key spaces, and its records in their slices (R410, R440). -/
def State.loadHamper (s : State) (guest : Nat) : State :=
  match s.hamper.saved.find? fun e => e.1 == guest with
  | none => { s with hamper := { s.hamper with guest := some guest, kspaces := [], owed := s.hamper.owed.filter fun e => e.1 != guest } }
  | some e =>
    let s := { s with hamper := { s.hamper with guest := some guest, kspaces := e.2.1, saved := s.hamper.saved.filter fun x => x.1 != guest } }
    e.2.2.foldl (fun s x => s.updQuad x.1 fun q => { q with hrecs := q.hrecs ++ [x.2] }) s

/-- A placement of a context makes its guest the Hamper's when the Hamper has none (R410). -/
def State.takeHamper (s : State) (l : Launch) : State :=
  if !l.priv && s.hamper.guest.isNone then s.loadHamper l.guest else s

/-- THE RESTORE of an image at a place. -/
def State.restoreAt (s : State) (l : Launch) (img : Image) (f : Fit) (edits : List ImageEdit) : State :=
  let r := s.checkImage l img edits
  if r ≠ restoreOk then s.refuseRestore img r
  else
    let img' := { img with groups := edits.foldl (fun gs e => applyEdit e gs) img.groups }
    let s := if l.prot then { s with trusted := s.trusted.record img.launch img.team.team none } else s
    let s := (s.takeHamper l).loadImage img' f
    { s with sched := { s.sched with restoreResult := restoreOk, images := s.sched.images.map fun (i : Image) =>
        if i.launch = img.launch ∧ i.team.team = img.team.team then { i with current := false } else i } }

/-- The team of an image is saved. -/
def State.isSaved (s : State) (launch team : Nat) : Bool :=
  s.teams.any fun t => t.launch == launch && t.team == team && !t.resident

/-- RESTORE: an image of a team is restored on a core, when the team fits there. An image of a protected context that is
not the last one of a saved team is stale; an old image of an unprotected team is restored only while the team is saved. -/
def execRestore (image core : Nat) (edits : List ImageEdit) (s : State) : Out :=
  .next (match s.sched.images.find? fun i => i.id == image with
    | none => s
    | some img =>
      match s.launch? img.launch with
      | none => s
      | some l =>
        if !s.mayPlace l then s
        else if !s.isSaved img.launch img.team.team then
          if l.prot then s.refuseRestore img (s.checkImage l img edits) else s
        else
          match s.fitImage [] img core with
          | none => s
          | some f => s.restoreAt l img f edits)

/-! ### TEAM_ROTATION (R175) -/

/-- The youngest of a list of teams. -/
def youngest : List Team → Option Team
  | [] => none
  | t :: ts =>
    match youngest ts with
    | none => some t
    | some u => if u.seq < t.seq then some t else some u

/-- The current image of a saved team. -/
def State.imageFor (s : State) (launch team : Nat) : Option Image :=
  s.sched.images.find? fun i => i.launch == launch && i.team.team == team && i.current

/-- A team is stopped for a reason, and saved as soon as its state is whole. -/
def State.stopTeam (s : State) (t : Team) (why : TeamStop) : State × Bool :=
  let s := (s.freezeTeam t).updTeam t.launch t.team fun t => { t with stopped := some why }
  let s := (s.teamGroups t).foldl (fun s g => s.abandonLocks g.gid) s
  if s.quietTeam t then
    match s.backTeam t with
    | (s, true) => (s.saveAll [t], true)
    | (s, false) => (s, false)
  else (s, false)

/-- The team that leaves its core for a saved team: the youngest resident team of its grid on a core where it fits (R175). -/
def State.rotationVictim (s : State) (launch : Nat) (img : Image) : Option Team :=
  youngest (s.teams.filter fun t => t.launch == launch && t.resident && (s.fitImage [t.key] img t.core).isSome)

/-- TEAM_ROTATION: a saved team changes places with the youngest resident team of its grid on a core where it fits. The
step comes again while the outgoing team's state is not whole. -/
def execTeamRotation (launch team : Nat) (s : State) : Out :=
  .next (match s.launch? launch, s.imageFor launch team with
    | some l, some img =>
      if !s.mayPlace l then s
      else
        match s.rotationVictim launch img with
        | none => s
        | some t =>
          match s.stopTeam t (.rotation team) with
          | (s, false) => s
          | (s, true) =>
            match s.fitImage [] img t.core with
            | none => s
            | some f => s.restoreAt l img f []
    | _, _ => s)

/-! ### GROW_DEADLOCK (R178) -/

/-- A lane waits in a grow request, at a barrier, at `conv` or at a convergent instruction. -/
def Lane.stuck (l : Lane) : Bool :=
  match l.status with
  | .waiting .conv => true
  | .waiting .converge => true
  | .waiting (.barrier _) => true
  | .waiting (.grow _) => true
  | _ => false

/-- A group that waits, as R178 asks: some lane does, and every other live lane. -/
def Group.stuck (g : Group) : Bool := g.lanes.any Lane.stuck && g.lanes.all fun l => l.stuck || !l.live

/-- The resident groups of a core. -/
def State.groupsOn (s : State) (core : Nat) : List Group := s.groups.filter fun g => g.core == core && g.resident && !g.ended

def State.growDeadlocked (s : State) (core : Nat) : Bool :=
  (s.groupsOn core).any (fun g => g.growing.isSome) && (s.groupsOn core).all Group.stuck

/-- The oldest of a list of teams. -/
def oldestTeam : List Team → Option Team
  | [] => none
  | t :: ts =>
    match oldestTeam ts with
    | none => some t
    | some u => if t.seq < u.seq then some t else some u

/-- The survivor of a core: the team placed earliest that waits in a grow request. -/
def State.survivor (s : State) (core : Nat) : Option Team :=
  oldestTeam ((s.teamsOn [] core).filter fun t => (s.teamGroups t).any fun g => g.growing.isSome)

/-- The team that is saved next in a grow deadlock: the youngest but the survivor (R178). -/
def State.deadlockVictim (s : State) (core : Nat) : Option Team :=
  match s.survivor core with
  | none => none
  | some v => youngest ((s.teamsOn [] core).filter fun t => t.key != v.key)

/-- A waiting request of a core that can be granted. -/
def State.growReady (s : State) (core : Nat) : Option Nat :=
  ((s.groupsOn core).find? fun g => !g.frozen && (s.grantable g).isSome).map fun g => g.gid

/-- Saves teams until a request can be granted, and grants what can be granted. -/
def State.breakDeadlock (s : State) (core : Nat) : Nat → State
  | 0 => s
  | n + 1 =>
    match s.growReady core with
    | some gid => s.grantGrow gid
    | none =>
      match s.deadlockVictim core with
      | none => s
      | some t =>
        match s.stopTeam t (.deadlock core) with
        | (s, false) => s
        | (s, true) => s.breakDeadlock core n

/-- GROW_DEADLOCK: the step comes again while the state of the team to be saved is not whole. -/
def execGrowDeadlock (core : Nat) (s : State) : Out :=
  .next (if s.growDeadlocked core then s.breakDeadlock core ((s.teamsOn [] core).length + 1) else s)

/-! ### Teams that need not be saved after all -/

/-- The reason for which a team was stopped still holds. -/
def State.stillStopped (s : State) (t : Team) : TeamStop → Bool
  | .rotation team =>
    (match s.launch? t.launch, s.imageFor t.launch team with
      | some l, some img => s.mayPlace l && s.isSaved t.launch team && (s.rotationVictim t.launch img).any fun v => v.team == t.team
      | _, _ => false)
  | .deadlock core => s.growDeadlocked core && (s.deadlockVictim core).any fun v => v.key == t.key
  | .repair quad => alookup s.plat.qstates quad 0 == 1#3
  | .reset guest => s.inReset guest

/-- A team that was stopped to be saved goes on when the reason has gone, unless its context is frozen (R173, R175, R178, R476, R488). -/
def State.settleStopped (s : State) : State :=
  s.teams.foldl (fun s t =>
    match t.stopped with
    | none => s
    | some why =>
      if !t.resident || s.stillStopped t why then s
      else
        let s := s.updTeam t.launch t.team fun t => { t with stopped := none }
        if (s.launch? t.launch).any fun l => l.tier == 2 || l.linkFrozen then s
        else (s.teamGroups t).foldl (fun s g => s.thawGroup g.gid) s) s

end Sys2Proof.Machine
end

