-- ==== Sys2Proof/Machine/Sched.lean ====
section
/-! DEFINITION. The scheduler (R426 to R440): submission queues, launch descriptors and their acceptance, admission
requests, the placement and the completion of launches, and the time slices of guests. -/

namespace Sys2Proof.Machine

/-! ### Submission queues (R426, R427) -/

/-- The submission queue `q` of a function; function 4,096 stands for the hypervisor's own queues. -/
def State.sq (s : State) (fn q : Nat) : Queue :=
  match s.sched.sqs.find? fun e => e.1 == fn && e.2.1 == q with
  | some e => e.2.2
  | none => Queue.empty

def State.setSq (s : State) (fn q : Nat) (x : Queue) : State :=
  { s with sched := { s.sched with sqs := (s.sched.sqs.filter fun e => !(e.1 == fn && e.2.1 == q)) ++ [(fn, q, x)] } }

/-- The firmware that serves the queues runs: the module has booted, and it is not in deep sleep (R484, R487). -/
def State.schedRuns (s : State) : Bool := !s.plat.recovery && s.plat.power != .deepSleep

/-- SQ_TAIL_WRITE: the doorbell; a write that would pass HEAD is discarded and logged (R43, R426). A doorbell wakes the
device from deep sleep (R484). -/
def execSqTailWrite (fn q : Nat) (v : BitVec 64) (s : State) : Out :=
  .next (match (s.sq fn q).advanceTail v with
    | some x =>
      let s := s.setSq fn q x
      if s.plat.power = .deepSleep then { s with plat := { s.plat with power := .active } } else s
    | none => s.log (.queueOverrun (8192 + 16 * fn + q)))

/-- SQ_ERR_CLEAR: the queue resumes at HEAD. -/
def execSqErrClear (fn q : Nat) (s : State) : Out := .next (s.setSq fn q (s.sq fn q).clearErr)

/-- A queue that holds a descriptor the scheduler may take up. -/
def State.sqReady (s : State) (fn q : Nat) : Bool :=
  let x := s.sq fn q
  x.en && !x.err && x.headN != x.tailN && !(s.sched.pending.any fun (p : Pending) => p.fn == fn && p.queue == q)

/-- The queue of a function that is served next, in round-robin order. -/
def State.nextSq (s : State) (fn : Nat) : Option Nat :=
  ((List.range 16).map fun k => (alookup s.sched.nextQueue fn 0 + k) % 16).find? fun q => s.sqReady fn q

/-- The guest of a function: the hypervisor's own launches run as guest 0 (R20, R472). -/
def guestOf (fn : Nat) : Nat := if fn = hyperQueue then 0 else fn

/-! ### Firmware accesses -/

/-- A translation for the device's own firmware and for the Stile: both stages and the checks of R38, with ACC and DIRTY
set, beside the TLBs. -/
def State.firmTrans (s : State) (guest : Nat) (va : DWord) (k : AccKind) : State × Except XErr Trans :=
  if fldN va 55 9 ≠ 0 then (s, .error (xerr cXlateMiss false 0 false))
  else
    match s.walk1 [] guest (pageOf va) with
    | .error e => ((s.useDesc guest).walkAsks e, .error e)
    | .ok o =>
      let ok := if k.writes then o.w.wr else o.w.rd
      let carved := !o.w.remote && s.inCarve (65536 * o.w.ppn + va.toNat % 65536)
      let dirty := if k.writes && ok && !carved then o.w.leaves else []
      match (s.leafChecks accBit o.w.leaves).or (s.leafChecks dirtyBit dirty) with
      | some x => ((s.useDesc guest).walkAsks x, .error x)
      | none =>
        let s := ((s.useDesc guest).setLeaves accBit o.w.leaves).setLeaves dirtyBit dirty
        if !ok then (s, .error (xerr cXlatePerm (if k.writes then o.w.wr1 else o.w.rd1) 2 false))
        else if carved then (s, .error (xerr cXlatePerm (s.guestDesc guest).s2en 2 false))
        else
          (s, .ok { ppn := o.w.ppn, coh := o.w.coh, ret := o.w.ret, mig := o.w.mig, remote := o.w.remote, node := o.w.node })

/-- Every line of a list can be read at its home now; the others are asked for. -/
def State.linesReady (s : State) (lines : List Nat) : State × Bool :=
  lines.foldl (fun x n =>
    match x.1.homeReady n ⟨false, 1, true, BitVec.allOnes 128⟩ with
    | (s, ok) => (s, x.2 && ok)) (s, true)

/-- The lines of a range of bytes. -/
def linesOf (pa n : Nat) : List Nat := if n = 0 then [] else (List.range ((pa + n - 1) / 128 - pa / 128 + 1)).map fun k => pa / 128 + k

/-- What a firmware read of virtual bytes finds. -/
inductive Found (α : Type) where
  | value (x : α)
  | fails
  /-- a line is being brought to its home -/
  | wait
  deriving DecidableEq, Repr

/-- Goes on with what a read has found. -/
def Found.andThen (r : State × Found α) (f : State → α → State × Found β) : State × Found β :=
  match r with
  | (s, .value x) => f s x
  | (s, .fails) => (s, .fails)
  | (s, .wait) => (s, .wait)

/-- A translation of the firmware's own, as it finds it. -/
def State.firmPage (s : State) (guest : Nat) (va : DWord) (k : AccKind) : State × Found Trans :=
  match s.firmTrans guest va k with
  | (s, .ok t) => (s, .value t)
  | (s, .error e) => (s, if e.waits then .wait else .fails)

/-- A byte of a line of another module, from the lines that have come. -/
def farByte (far : FarLines) (key i : Nat) : Nat :=
  match far.find? fun e => e.1 == key with
  | some e => fldN e.2 (8 * i) 8
  | none => 0

/-- Bytes of a page of another module, when all their lines have come. -/
def farRead (far : FarLines) (t : Trans) (va : DWord) (w n : Nat) : Found (BitVec w) :=
  let at' := t.pa va
  let key := fun (a : Nat) => t.key (va + BitVec.ofNat 64 (a - at'))
  if (linesOf at' n).all (fun l => far.any fun e => e.1 == key (max at' (128 * l))) then
    .value ((List.range n).foldl (fun x i =>
      x ||| BitVec.ofNat w (farByte far (key (at' + i)) ((at' + i) % 128) * 2 ^ (8 * i))) 0)
  else .wait

/-- The bytes of a page from an address: at their home on this module, or as they have come from another (R92). -/
def State.pageBytes (s : State) (far : FarLines) (guest : Nat) (va : DWord) (w n : Nat) : State × Found (BitVec w) :=
  match s.firmPage guest va .load with
  | (s, .fails) => (s, .fails)
  | (s, .wait) => (s, .wait)
  | (s, .value t) =>
    if t.remote then (s, farRead far t va w n)
    else
      match s.linesReady (linesOf (t.pa va) n) with
      | (s, false) => (s, .wait)
      | (s, true) => (s, .value (readLE s.mem (t.pa va) w n))

/-- Reads up to 64 KiB of virtual bytes, which may lie on two pages. -/
def State.virtRead (s : State) (far : FarLines) (guest : Nat) (va : DWord) (w n : Nat) : State × Found (BitVec w) :=
  let k := 65536 - va.toNat % 65536
  if n ≤ k then s.pageBytes far guest va w n
  else
    match s.pageBytes far guest va w k with
    | (s, .value x) =>
      match s.pageBytes far guest (va + BitVec.ofNat 64 k) w (n - k) with
      | (s, .value y) => (s, .value (x ||| (y <<< (8 * k))))
      | r => r
    | r => r

/-! ### The launch descriptor (R428, R429) -/

abbrev Desc := BitVec 2048

def dTag (d : Desc) : DWord := fld d 448 64
def dCpl (d : Desc) : DWord := (fld d 393 55 : BitVec 55).setWidth 64
def dArgs (d : Desc) : DWord := (fld d 329 55 : BitVec 55).setWidth 64
def dNarg (d : Desc) : Nat := fldN d 324 5
def dBtab (d : Desc) : DWord := (fld d 265 55 : BitVec 55).setWidth 64
def dCode (d : Desc) : DWord := (fld d 201 55 : BitVec 55).setWidth 64
def dNteam (d : Desc) : Nat := fldN d 160 32
def dHandler (d : Desc) : Nat := fldN d 128 32
def dKernel (d : Desc) : Nat := fldN d 104 24
def dStashQ (d : Desc) : Nat := fldN d 92 12
def dTileQ (d : Desc) : Nat := fldN d 83 9
def dAccQ (d : Desc) : Nat := fldN d 74 9
def dSticky (d : Desc) : Nat := fldN d 70 4
def dPrio (d : Desc) : Nat := fldN d 68 2
def dSuper (d : Desc) : Bool := d.getLsbD 67
def dProt (d : Desc) : Bool := d.getLsbD 66
def dMigr (d : Desc) : Bool := d.getLsbD 65
def dPriv (d : Desc) : Bool := d.getLsbD 64
def dKeyIdx (d : Desc) : Nat := fldN d 48 16
def dFence (d : Desc) : Bool := d.getLsbD 47
def dCodeReg (d : Desc) : Nat := fldN d 43 4
/-- CAPIDX of region `j`; lock entry `k` with its fields. -/
def dRegion (d : Desc) (j : Nat) : Nat := fldN d (512 + 32 * j) 20
def dLock (d : Desc) (k : Nat) : DWord := fld d (1024 + 64 * k) 64
def lkRegion (x : DWord) : Nat := fldN x 60 4
def lkOffset (x : DWord) : Nat := fldN x 0 48

/-! ### Capabilities (R21, R22) -/

abbrev Cap := BitVec 256

def capBase (c : Cap) : Nat := fldN c 0 55
def capLength (c : Cap) : Nat := fldN c 64 55
def capTenant (c : Cap) : Nat := fldN c 128 16
def capGuest (c : Cap) : Nat := fldN c 144 12
/-- WRITE, ATOM, ENGSRC, ENGDST, STASH, FLASK and CODE, from bit 0 (R222). -/
def capRights (c : Cap) : BitVec 7 := fld c 160 7
def capAtom (c : Cap) : Bool := c.getLsbD 161
def capCode (c : Cap) : Bool := c.getLsbD 166
def capLocked (c : Cap) : Bool := c.getLsbD 168
def capLockIdx (c : Cap) : Nat := fldN c 172 12
def capValid (c : Cap) : Bool := c.getLsbD 255

/-- A well-formed capability (R22). -/
def capOk (c : Cap) : Bool :=
  let shared := capTenant c == 0xFFFF
  fldN c 0 7 == 0 && fldN c 55 9 == 0 && fldN c 119 9 == 0 && fldN c 156 4 == 0 && fldN c 167 1 == 0 && fldN c 169 3 == 0 &&
    fldN c 184 8 == 0 && fldN c 224 31 == 0 && capLength c != 0 && capLength c % 128 == 0 &&
    decide (capBase c + capLength c ≤ 2 ^ 55) && !(shared && (capRights c &&& 0b0111011#7 != 0#7 || capLocked c)) &&
    !(capLocked c && !(capAtom c && decide (8 * capLockIdx c + 8 ≤ capLength c)))

/-- A launch of a guest and tenant may name the capability. -/
def capFor (c : Cap) (guest tenant : Nat) : Bool :=
  capOk c && capValid c && capGuest c == guest && (capTenant c == tenant || capTenant c == 0xFFFF)

def State.cap (s : State) (i : Nat) : Cap := alookup s.trusted.caps i 0

/-! ### The block table header and the kernel table (R222, R252) -/

def bhCodeLen (h : BitVec 512) : Nat := fldN h 480 32
def bhNBlock (h : BitVec 512) : Nat := fldN h 464 16
def bhPoolLen (h : BitVec 512) : Nat := fldN h 432 32
def bhNRegion (h : BitVec 512) : Nat := fldN h 428 4 + 1
def bhNRole (h : BitVec 512) : Nat := fldN h 426 2 + 1
def bhWidth (h : BitVec 512) : BitVec 2 := fld h 424 2
def bhQuad (h : BitVec 512) : Bool := h.getLsbD 423
def bhNTile (h : BitVec 512) : BitVec 8 := fld h 415 8
def bhNLock (h : BitVec 512) : Nat := fldN h 411 4
def bhTiled (h : BitVec 512) : Bool := h.getLsbD 410
def bhRights (h : BitVec 512) (j : Nat) : BitVec 8 := fld h (256 + 8 * j) 8
def bhLockDecl (h : BitVec 512) (k : Nat) : BitVec 8 := fld h (192 + 8 * k) 8
def bhRoles (h : BitVec 512) : BitVec 160 := fld h 0 160

abbrev KEntry := BitVec 2048

def keMinLen (e : KEntry) (j : Nat) : Nat := fldN e (896 + 48 * j) 48
def keStashMin (e : KEntry) : Nat := fldN e 884 12
def keKernel (e : KEntry) : Nat := fldN e 860 24
def keGuest (e : KEntry) : Nat := fldN e 848 12
def keTenant (e : KEntry) : Nat := fldN e 832 16
def kePriv (e : KEntry) : Bool := e.getLsbD 831
def keValid (e : KEntry) : Bool := e.getLsbD 830
def keRoles (e : KEntry) : BitVec 160 := fld e 670 160
def keWidth (e : KEntry) : BitVec 2 := fld e 668 2
def keQuad (e : KEntry) : Bool := e.getLsbD 667
def keNTile (e : KEntry) : BitVec 8 := fld e 659 8
def keRights (e : KEntry) (j : Nat) : BitVec 8 := fld e (531 + 8 * j) 8
def keLockDecl (e : KEntry) (k : Nat) : BitVec 8 := fld e (467 + 8 * k) 8
def keTiled (e : KEntry) : Bool := e.getLsbD 466

def State.kernelEntry (s : State) (kernel : Nat) : KEntry := alookup s.trusted.kernels (kernel % 65536) 0

/-- A role of ROLES: entry block, groups, minimum and maximum budget (R222). -/
def roleOf (roles : BitVec 160) (k : Nat) : Nat × Nat × Nat × Nat :=
  (fldN roles (40 * k + 24) 16, fldN roles (40 * k + 20) 4 + 1, fldN roles (40 * k + 12) 8, fldN roles (40 * k + 4) 8)

/-- The declared roles: a declared role has a minimum budget of at least 16 (R159, R511). -/
def declaredRoles (roles : BitVec 160) : List (Nat × Nat × Nat × Nat) :=
  ((List.range 4).map (roleOf roles)).takeWhile fun r => r.2.2.1 != 0

/-- The roles meet R159. -/
def rolesOk (rs : List (Nat × Nat × Nat × Nat)) : Bool :=
  rs != [] && decide ((rs.map fun r => r.2.1).sum ≤ 16) && rs.all fun r =>
    decide (16 ≤ r.2.2.1) && r.2.2.1 % 8 == 0 && decide (r.2.2.1 ≤ r.2.2.2) && decide (r.2.2.2 ≤ 128) && r.2.2.2 % 8 == 0

/-- Lanes of a WIDTH code. -/
def widthOf (w : BitVec 2) : Nat := 8 * 2 ^ w.toNat

/-- What the groups of a team ask for, in their order: groups and budgets of each role, and whose kernel they run. -/
def groupAsks (kernel guest tenant : Nat) (rs : List (Nat × Nat × Nat)) : List Ask :=
  rs.zipIdx.flatMap fun e => List.replicate e.1.1 { rows := e.1.2.1, max := e.1.2.2, key := (kernel, guest, tenant, e.2) }

/-! ### Acceptance (R431) -/

def cplDone : Nat := 0
def cplCapability : Nat := 1
def cplAdmission : Nat := 2
def cplRoles : Nat := 3
def cplFit : Nat := 4
def cplLength : Nat := 5
def cplFormat : Nat := 6
def cplReset : Nat := 7
def cplPrivilege : Nat := 8

/-- What the checks of a descriptor decide. -/
inductive Verdict where
  | accept
  | refuse (status rule : Nat)
  /-- the kernel must be admitted first -/
  | needsAdmission
  deriving DecidableEq, Repr

/-- What the checks of a descriptor look at: the descriptor, the launching guest and tenant, and the block table header as
it can be read. -/
structure Asked where
  fn : Nat
  guest : Nat
  tenant : Nat
  desc : Desc
  header : Option (BitVec 512)
  /-- OFFSET of the entry block of each declared role -/
  entries : List (Option Nat)
  /-- RULE of a rejection that has arrived -/
  rejected : Option Nat
  /-- seal-table KERNEL of the page at CODE, when it is sealed -/
  sealed : Option Nat
  /-- the handler is absent, or names a landing block -/
  handlerOk : Bool
  deriving DecidableEq, Repr

/-- Regions and locks that the kernel declares; a header that cannot be read declares the regions up to CODEREG's and no
lock (log 40). -/
def Asked.regions (a : Asked) : Nat :=
  match a.header with
  | some h => bhNRegion h
  | none => dCodeReg a.desc + 1
def Asked.locks (a : Asked) : Nat :=
  match a.header with
  | some h => bhNLock h
  | none => 0

/-- Check 1. -/
def Asked.formatOk (a : Asked) : Bool :=
  let d := a.desc
  fldN d 384 9 == 0 && fldN d 320 4 == 0 && fldN d 256 9 == 0 && fldN d 192 9 == 0 && fldN d 0 43 == 0 && fldN d 1536 512 == 0 &&
    ((List.range 16).all fun j => fldN d (532 + 32 * j) 12 == 0 && (decide (j < a.regions) || dRegion d j == 0)) &&
    ((List.range 8).all fun k => fldN (dLock d k) 48 12 == 0 && (decide (k < a.locks) || dLock d k == 0)) &&
    decide (dNarg d ≤ 24) && decide (1 ≤ dNteam d) && decide (dStashQ d ≤ 2048) && decide (dTileQ d ≤ 256) &&
    decide (dAccQ d ≤ 256) && (dCode d).toNat % 65536 == 0

/-- The capability of a region of the descriptor. -/
def State.regionCap (s : State) (d : Desc) (j : Nat) : Cap := s.cap (dRegion d j)

/-- The security state (R484): protected contexts are resident or saved from acceptance to the end of their launch. -/
def State.security (s : State) : Security :=
  if !s.plat.fused then .open'
  else if s.sched.launches.any fun l => l.prot && !l.reset then .protectedPresent
  else .production

/-- Protected launches are refused in the open security state, and in production while a debugger is in (R484). -/
def State.refusesProtected (s : State) : Bool :=
  match s.security, s.plat.debug with
  | .open', _ => true
  | .production, .off => false
  | .production, _ => true
  | .protectedPresent, _ => false

/-- Check 3. -/
def State.capsOk (s : State) (a : Asked) : Bool :=
  let d := a.desc
  let code := s.regionCap d (dCodeReg d)
  ((List.range a.regions).all fun j => capFor (s.regionCap d j) a.guest a.tenant) && decide (dCodeReg d < a.regions) &&
    capCode code && decide (capBase code ≤ (dCode d).toNat) && decide ((dCode d).toNat < capBase code + capLength code) &&
    !(dProt d && s.refusesProtected)

/-- Check 4. -/
def State.locksOk (s : State) (a : Asked) : Bool :=
  (List.range a.locks).all fun k =>
    let x := dLock a.desc k
    let c := s.regionCap a.desc (lkRegion x)
    decide (lkRegion x < a.regions) && capAtom c && lkOffset x % 8 == 0 && decide (lkOffset x + 8 ≤ capLength c)

/-- Check 5 on a valid entry (R434). -/
def Asked.admitted (a : Asked) (e : KEntry) : Bool :=
  keKernel e == dKernel a.desc && keGuest e == a.guest && keTenant e == a.tenant && kePriv e == dPriv a.desc &&
    a.sealed == some (dKernel a.desc)

/-- Check 6. -/
def Asked.rolesMatch (a : Asked) (e : KEntry) : Bool :=
  match a.header with
  | none => false
  | some h =>
    bhWidth h == keWidth e && bhQuad h == keQuad e && bhNTile h == keNTile e && bhRoles h == keRoles e &&
      rolesOk (declaredRoles (keRoles e)) && a.entries.all Option.isSome

/-- Check 7. -/
def State.rightsOk (s : State) (a : Asked) (e : KEntry) : Bool :=
  (List.range a.regions).all fun j =>
    let c := s.regionCap a.desc j
    let r := keRights e j
    (r.setWidth 7 &&& ~~~(capRights c) == 0#7) && (!capLocked c || (r.getLsbD 7 && (List.range a.locks).any fun k =>
      fldN (keLockDecl e k) 0 4 == j && lkRegion (dLock a.desc k) == j && lkOffset (dLock a.desc k) == 8 * capLockIdx c))

/-- Check 9. -/
def State.lengthsOk (s : State) (a : Asked) (e : KEntry) : Bool :=
  ((List.range a.regions).all fun j => decide (128 * keMinLen e j ≤ capLength (s.regionCap a.desc j))) &&
    decide (keStashMin e ≤ dStashQ a.desc) && (!keTiled e || decide ((keNTile e).toNat + 1 ≤ dTileQ a.desc))

/-- Check 10: one team fits an empty core or quad. -/
def fitsEmpty (d : Desc) (e : KEntry) : Bool :=
  (State.reset.fit [] (keQuad e) 0 (widthOf (keWidth e))
    (groupAsks (keKernel e) (keGuest e) (keTenant e) ((declaredRoles (keRoles e)).map fun r => r.2))
    (dStashQ d) (dTileQ d) (dAccQ d)).isSome

/-- THE CHECKS OF R431, in their order. -/
def State.verdict (s : State) (a : Asked) : Verdict :=
  let d := a.desc
  let e := s.kernelEntry (dKernel d)
  if !a.formatOk then .refuse cplFormat 0xFFFF
  else if dPriv d && a.fn != hyperQueue then .refuse cplPrivilege 0xFFFF
  else if !s.capsOk a then .refuse cplCapability 0xFFFF
  else if !s.locksOk a then .refuse cplFormat 0xFFFF
  else
    match a.rejected with
    | some rule => .refuse cplAdmission rule
    | none =>
      if !keValid e then .needsAdmission
      else if !a.admitted e then .refuse cplAdmission 0xFFFF
      else if !a.rolesMatch e then .refuse cplRoles 0xFFFF
      else if !s.rightsOk a e then .refuse cplCapability 0xFFFF
      else if !a.handlerOk then .refuse cplFormat 0xFFFF
      else if !s.lengthsOk a e then .refuse cplLength 0xFFFF
      else if !fitsEmpty d e then .refuse cplFit 0xFFFF
      else .accept

/-! ### Completion records (R433) -/

def completionRecord (tag : DWord) (status rule : Nat) : BitVec 128 :=
  0#40 ++ BitVec.ofNat 16 rule ++ BitVec.ofNat 8 status ++ tag

/-- A physical address with the node above its line when the page is remote. -/
def Trans.place (t : Trans) (va : DWord) : Nat := 128 * t.key va + va.toNat % 128

/-- A completion record is written; it goes to its module when its page is remote, and one for a host-window page is dropped
and logged while the host is lost (R478). False when its line is still being brought to its home. -/
def State.writeRecord (s : State) (place : Nat) (x : BitVec 128) : State × Bool :=
  match keyNode (place / 128) with
  | some node =>
    (s.send (.remoteWrite node (keyLine (place / 128)) false (byteMask (place % 128) 16) ((x.setWidth 1024) <<< (8 * (place % 128)))), true)
  | none =>
    if s.unreachable (place / 128) then (s.log (.droppedWrite (place / 128)), true) else s.devWrite place 16 x

/-! ### LAUNCH_DESCRIPTOR -/

/-- No descriptor of a queue is being served any more. -/
def State.giveUp (s : State) (fn q : Nat) : State :=
  { s with sched := { s.sched with taken := s.sched.taken.filter fun e => !(e.1 == fn && e.2.1 == q) } }

/-- HEAD passes the descriptor, and the function's next queue is served (R427). -/
def State.passDescriptor (s : State) (fn q : Nat) : State :=
  let s := s.setSq fn q (s.sq fn q).next
  { s with sched := { s.sched with nextQueue := aset s.sched.nextQueue fn ((q + 1) % 16),
                                   pending := s.sched.pending.filter fun (p : Pending) => !(p.fn == fn && p.queue == q) } }.giveUp fn q

/-- A refused launch places no team and writes its completion record at once. -/
def State.refuseLaunch (s : State) (fn q : Nat) (tag : DWord) (place status rule : Nat) : State :=
  match s.writeRecord place (completionRecord tag status rule) with
  | (s, false) => s
  | (s, true) => s.passDescriptor fn q

/-- An argument word; the manual states no result for one that cannot be read, and it is a free value (log 40). -/
def State.argument (s : State) (far : FarLines) (guest : Nat) (va : DWord) : State × Found DWord :=
  match s.virtRead far guest va 64 8 with
  | (s, .fails) => ({ s with fresh := s.fresh + 1 }, .value (Config.unstated s.fresh))
  | r => r

/-- The argument words in order, or none while a line is on its way. -/
def State.arguments (s : State) (far : FarLines) (guest : Nat) (d : Desc) : State × Option (List DWord) :=
  (List.range (dNarg d)).foldl (fun x i =>
    match x.2 with
    | none => x
    | some l =>
      match x.1.argument far guest (dArgs d + BitVec.ofNat 64 (8 * i)) with
      | (s, .value v) => (s, some (l ++ [v]))
      | (s, _) => (s, none)) (s, some [])

/-- The scalars of the launch image (R245, R430). -/
def State.imageScalars (s : State) (a : Asked) (args : List DWord) : Vector DWord 64 :=
  Vector.ofFn fun (i : Fin 64) =>
    let n := i.val
    if n < 32 then
      if n / 2 < a.regions then BitVec.ofNat 64 ((if n % 2 = 0 then capBase else capLength) (s.regionCap a.desc (n / 2))) else 0
    else if n < 40 then
      let x := dLock a.desc (n - 32)
      if n - 32 < a.locks then BitVec.ofNat 64 (capBase (s.regionCap a.desc (lkRegion x)) + lkOffset x) else 0
    else (args[n - 40]?).getD 0

/-- The launch of an accepted descriptor, with the approval of the trusted firmware (R486). -/
def State.acceptLaunch (s : State) (a : Asked) (q place : Nat) (args : List DWord) : State :=
  let d := a.desc
  let e := s.kernelEntry (dKernel d)
  let id := s.sched.nextLaunch
  let l : Launch :=
    { id := id, fn := a.fn, queue := q, guest := a.guest, tenant := a.tenant, kernel := dKernel d, priv := dPriv d, prot := dProt d,
      migr := dMigr d, super := dSuper d, fence := dFence d, prio := dPrio d, sticky := dSticky d, keyIdx := dKeyIdx d,
      nteam := dNteam d, stashQ := dStashQ d, tileQ := dTileQ d, accQ := dAccQ d, code := dCode d, btab := dBtab d,
      cpl := dCpl d, cplPA := place, tag := dTag d,
      trapVec := if dHandler d = 0xFFFFFFFF then 0 else dCode d + BitVec.ofNat 64 (4 * dHandler d),
      image := s.imageScalars a args, caps := (List.range a.regions).map (dRegion d), width := widthOf (keWidth e),
      quadTeam := keQuad e, handles := if keTiled e then (keNTile e).toNat + 1 else 0,
      roles := ((declaredRoles (keRoles e)).zip a.entries).map fun r =>
        (r.1.2.1, r.1.2.2.1, r.1.2.2.2, dCode d + BitVec.ofNat 64 (r.2.getD 0)),
      nextTeam := 0, teamsDone := 0, tier := 0, quiesced := false, stoppedFor := none, touchedHost := false, linkFrozen := false,
      reset := false, waitLimit := false }
  ({ s with sched := { s.sched with launches := s.sched.launches ++ [l], nextLaunch := id + 1 },
            trusted := { s.trusted with approved := s.trusted.approved ++ [id],
                                        saveCtrs := if dProt d then aset s.trusted.saveCtrs id 0 else s.trusted.saveCtrs } } : State).passDescriptor a.fn q

/-- Physical address of the result record of an admission (R434): the scheduler's own choice, outside the carve-out. -/
def resultAddr (n : Nat) : Nat := 64 * (Config.resultSlot n % 0x2C0000000)

/-- An admission request (R434). -/
def admissionWords (d : Desc) (submit : DWord) (result guest tenant cap : Nat) : BitVec 512 :=
  submit ++ BitVec.ofNat 48 result ++ 0#16 ++ (dBtab d).setWidth 55 ++ 0#9 ++ (dCode d).setWidth 55 ++ 0#9 ++
    BitVec.ofNat 24 (dKernel d) ++ BitVec.ofNat 12 guest ++ BitVec.ofNat 16 tenant ++ bit (dPriv d) ++ BitVec.ofNat 20 cap ++ 0#183

/-- The base die whose engine serves a kernel: that of the home slice of its first line (R219); die 0 when the address has
no translation on this module. -/
def State.stileDie (s : State) (guest : Nat) (code : DWord) : State × Found Nat :=
  match s.firmPage guest code .load with
  | (s, .value t) => (s, .value (if t.remote then 0 else dieOfSlice (sliceOf (t.pa code / 128))))
  | (s, .fails) => (s, .value 0)
  | (s, .wait) => (s, .wait)

/-- The descriptor at a queue's HEAD waits for the admission that a request asks for, and the next queue is served. -/
def State.putOff (s : State) (p : Pending) : State :=
  { s with sched := { s.sched with nextQueue := aset s.sched.nextQueue p.fn ((p.queue + 1) % 16),
                                   pending := (s.sched.pending.filter fun (x : Pending) => !(x.fn == p.fn && x.queue == p.queue)) ++ [p] } }.giveUp p.fn p.queue

/-- The launch waits for the admission of its kernel: for a request in progress, or for a new one (R434). -/
def State.awaitAdmission (s : State) (a : Asked) (q place : Nat) : State :=
  let d := a.desc
  match s.sched.pending.find? fun (p : Pending) => p.kernel == dKernel d with
  | some p => s.putOff { p with fn := a.fn, queue := q, desc := d, cplPA := place, tenant := a.tenant }
  | none =>
    match s.stileDie a.guest (dCode d) with
    | (s, .value die) =>
      let p : Pending :=
        { fn := a.fn, queue := q, desc := d, cplPA := place, tenant := a.tenant, kernel := dKernel d,
          tag := BitVec.ofNat 64 (s.sched.nextLaunch + s.fresh + 1), result := resultAddr s.fresh }
      let r := admissionWords d p.tag p.result a.guest a.tenant (dRegion d (dCodeReg d))
      let s := s.updDie die fun x => { x with stileQ := x.stileQ ++ [r] }
      { s with fresh := s.fresh + 1 }.putOff p
    | (s, _) => s

/-- The tenant of a launch, which the descriptor does not name: that of the code region's capability, or of the first region
that has a tenant (log 40). -/
def State.tenantOf (s : State) (d : Desc) (regions : Nat) : Nat :=
  ((((dCodeReg d :: List.range regions).map fun j => capTenant (s.regionCap d j)).find? fun t => t != 0xFFFF)).getD 0

/-- The seal-table KERNEL of the page at an address, and whether an address is a landing block (R246, R434). -/
def State.sealAt (s : State) (guest : Nat) (va : DWord) : State × Found DWord :=
  Found.andThen (s.firmPage guest va .load) fun s t =>
    (s, if !t.remote && isHbm t.ppn && sealedBit (s.seal t.ppn) then .value (s.seal t.ppn) else .fails)
def State.landsAt (s : State) (guest kernel : Nat) (va : DWord) : State × Found Bool :=
  match s.sealAt guest va with
  | (s, .value e) =>
    (s, .value (sealKernel e == kernel && va.toNat % 4 == 0 && (alookup s.trusted.bitmaps (sealBitmap e) 0).getLsbD (fldN va 2 14)))
  | (s, .fails) => (s, .value false)
  | (s, .wait) => (s, .wait)

/-- Whether the handler of a descriptor is absent, or names a landing block (R431, check 8). -/
def State.handlerLands (s : State) (guest : Nat) (d : Desc) : State × Found Bool :=
  if dHandler d = 0xFFFFFFFF then (s, .value true)
  else s.landsAt guest (dKernel d) (dCode d + BitVec.ofNat 64 (4 * dHandler d))

/-- The OFFSET of each declared role's entry block, as the block table gives it; none while a line is on its way. -/
def State.roleEntries (s : State) (far : FarLines) (guest : Nat) (d : Desc) (rs : List (Nat × Nat × Nat × Nat)) :
    State × Option (List (Option Nat)) :=
  rs.foldl (fun x r =>
    match x.2 with
    | none => x
    | some l =>
      match x.1.virtRead far guest (dBtab d + BitVec.ofNat 64 (64 + 16 * r.1 + 12)) 32 4 with
      | (s, .value v) => (s, some (l ++ [some v.toNat]))
      | (s, .fails) => (s, some (l ++ [none]))
      | (s, .wait) => (s, none)) (s, some [])

/-- What the checks of a descriptor look at, with the block table read. -/
def State.asked (s : State) (far : FarLines) (fn : Nat) (d : Desc) (rejected : Option Nat) : State × Option Asked :=
  let guest := guestOf fn
  match s.virtRead far guest (dBtab d) 512 64 with
  | (s, .wait) => (s, none)
  | (s, h) =>
    let header := match h with
      | .value x => some x
      | _ => none
    let e := s.kernelEntry (dKernel d)
    match s.roleEntries far guest d (if keValid e then declaredRoles (keRoles e) else []) with
    | (s, none) => (s, none)
    | (s, some es) =>
      match s.sealAt guest (dCode d) with
      | (s, .wait) => (s, none)
      | (s, k) =>
        match s.handlerLands guest d with
        | (s, .value ok) =>
          let a : Asked := { fn := fn, guest := guest, tenant := 0, desc := d, header := header, entries := es, rejected := rejected,
                             handlerOk := ok, sealed := match k with
                               | .value x => some (sealKernel x)
                               | _ => none }
          (s, some { a with tenant := s.tenantOf d a.regions })
        | (s, _) => (s, none)

/-- A descriptor whose completion address is good is decided. -/
def State.decideLaunch (s : State) (far : FarLines) (fn q : Nat) (d : Desc) (place : Nat) (rejected : Option Nat) : State :=
  match s.asked far fn d rejected with
  | (s, none) => s
  | (s, some a) =>
    match s.verdict a with
    | .refuse status rule => s.refuseLaunch fn q (dTag d) place status rule
    | .needsAdmission => s.awaitAdmission a q place
    | .accept =>
      match s.arguments far a.guest d with
      | (s, none) => s
      | (s, some args) => s.acceptLaunch a q place args

/-- The physical address of the descriptor at HEAD, unless its ring page fails (R426). -/
def State.descriptorAt (s : State) (fn q : Nat) : State × Found Nat :=
  let x := s.sq fn q
  let page := x.page + x.headN / 256
  let off := 256 * (x.headN % 256)
  let d := s.guestDesc fn
  let inHbm := fun (p : Nat) => isHbm p && !s.inCarve (65536 * p + off)
  let stop := fun (e : XErr) => if e.waits then (s.walkAsks e, .wait) else (s, .fails)
  if fn = hyperQueue then (s, if inHbm page then .value (65536 * page + off) else .fails)
  else
    match s.descWaits fn with
    | some e => stop e
    | none =>
      if !d.valid || !d.ok then (s, .fails)
      else if !d.s2en then (s, if inHbm page then .value (65536 * page + off) else .fails)
      else
        match s.walk2 [] fn d.s2root page with
        | .error e => stop e
        | .ok (e, a2, _) =>
          let leaf : List Leaf := [⟨a2, e, none⟩]
          if !leafRd e || leafRemote e || !inHbm (leafPpn e) then (s, .fails)
          else
            match s.leafChecks accBit leaf with
            | some x => stop x
            | none => (s.setLeaves accBit leaf, .value (65536 * leafPpn e + off))

/-- A queue stops at its descriptor, with ERR set. -/
def State.stopSq (s : State) (fn q : Nat) : State := (s.giveUp fn q).setSq fn q (s.sq fn q).stop

/-- A descriptor that has been read: its completion address is checked, and it is decided (R431). -/
def State.judgeDescriptor (s : State) (far : FarLines) (fn q : Nat) (d : Desc) : State :=
  if (dCpl d).toNat % 16 ≠ 0 then s.stopSq fn q
  else
    match s.firmPage (guestOf fn) (dCpl d) .store with
    | (s, .fails) => s.stopSq fn q
    | (s, .wait) => s
    | (s, .value t) => s.decideLaunch far fn q d (t.place (dCpl d)) none

/-- The descriptor at HEAD is read, once (R427), and judged. -/
def State.takeDescriptor (s : State) (far : FarLines) (fn q : Nat) : State :=
  match s.sched.taken.find? fun e => e.1 == fn && e.2.1 == q with
  | some e => s.judgeDescriptor far fn q e.2.2
  | none =>
    match s.descriptorAt fn q with
    | (s, .fails) => s.stopSq fn q
    | (s, .wait) => s
    | (s, .value pa) =>
      match s.linesReady (linesOf pa 256) with
      | (s, false) => s
      | (s, true) =>
        let d : Desc := readLE s.mem pa 2048 256
        ({ s with sched := { s.sched with taken := s.sched.taken ++ [(fn, q, d)] } } : State).judgeDescriptor far fn q d

/-- The result record of an admission, once it has been written: rejected, and RULE (R253). -/
def State.admissionRecord (s : State) (p : Pending) : Option (Bool × Nat) :=
  let r : BitVec 512 := readLE s.mem p.result 512 64
  if fld r 0 64 = p.tag then some (fldN r 304 8 != 0, fldN r 456 16) else none

/-- LAUNCH_DESCRIPTOR, with the lines of other modules that its reads of the block table and the arguments have brought. -/
def execLaunchDescriptor (fn : Nat) (q : QueueCall) (s : State) : Out :=
  let far := q.far
  let q := q.queue
  .next (if !s.schedRuns || s.inReset (guestOf fn) then s
    else
      match s.sched.pending.find? fun (p : Pending) => p.fn == fn && p.queue == q with
      | some p =>
        match s.admissionRecord p with
        | none => s
        | some (true, rule) => s.decideLaunch far fn q p.desc p.cplPA (some rule)
        | some (false, _) =>
          let others := s.sched.pending.filter fun (x : Pending) => !(x.fn == fn && x.queue == q)
          if keValid (s.kernelEntry p.kernel) then s.decideLaunch far fn q p.desc p.cplPA none
          else ({ s with sched := { s.sched with pending := others } } : State).decideLaunch far fn q p.desc p.cplPA none
      | none =>
        let begun := s.sched.taken.any fun e => e.1 == fn && e.2.1 == q
        if s.nextSq fn = some q ∧ (begun || !s.sched.handover) then s.takeDescriptor far fn q else s)

/-! ### PLACEMENT (R435 to R437) -/

/-- A launch has placed every team, or ended by forced reset. -/
def Launch.moreTeams (l : Launch) : Bool := !l.reset && decide (l.nextTeam < l.nteam)

/-- FENCE holds a launch back until every earlier launch of its queue has completed. -/
def State.fenced (s : State) (l : Launch) : Bool :=
  l.fence && s.sched.launches.any fun m => m.fn == l.fn && m.queue == l.queue && decide (m.id < l.id)

/-- The next new team of a launch may be placed. -/
def State.mayPlaceNew (s : State) (l : Launch) : Bool :=
  l.moreTeams && s.mayPlace l && !s.fenced l && s.trusted.approved.contains l.id

/-- Frozen teams whose storage a launch may claim: those that were stopped for it or for a request (R453). -/
def State.claimable (s : State) (launch : Nat) : List Team :=
  s.teams.filter fun t => t.resident && ((s.teamGroups t).all fun g => g.frozen) &&
    match s.launch? t.launch with
    | some l => l.tier == 2 && l.quiesced && !l.linkFrozen && (l.stoppedFor == none || l.stoppedFor == some launch)
    | none => false

/-- A place for the next new team of a launch: without a claim where there is one, and then with frozen storage claimed. -/
def State.placeFor (s : State) (l : Launch) : Option Fit :=
  let shape := groupAsks l.kernel l.guest l.tenant (l.roles.map fun r => (r.1, r.2.1, r.2.2.1))
  match s.bestCore [] l.quadTeam l.width shape l.stashQ l.tileQ l.accQ with
  | some f => some f
  | none => s.bestCore ((s.claimable l.id).map Team.key) l.quadTeam l.width shape l.stashQ l.tileQ l.accQ

/-- A place for a saved team: the first core where it fits (R175). -/
def State.placeForSaved (s : State) (l : Launch) (img : Image) : Option Fit :=
  match (candidates img.team.quadTeam).findSome? fun c => s.fitImage [] img c with
  | some f => some f
  | none => (candidates img.team.quadTeam).findSome? fun c => s.fitImage ((s.claimable l.id).map Team.key) img c

/-- The frozen teams in the way of a place. -/
def State.inTheWay (s : State) (launch : Nat) (quadTeam : Bool) (f : Fit) (accQ : Nat) : List Team :=
  (s.claimable launch).filter fun t => t.core / 4 == f.core / 4 &&
    ((t.cores.any fun c => (coresOf quadTeam f.core).contains c) || !rowsApart f.accBase accQ t.accBase t.accCount)

/-- Saved teams of the resident guest that may be placed, with their launch and image. -/
def State.savedWaiting (s : State) : List (Launch × Image) :=
  s.sched.launches.flatMap fun l =>
    if s.mayPlace l then
      (s.teams.filter fun t => t.launch == l.id && !t.resident).filterMap fun t => (s.imageFor l.id t.team).map fun i => (l, i)
    else []

/-- Whether something of a class that comes before a waiting team can be placed: saved teams go before new ones of the same
class, and launches of one class go in their order (R437, R438). -/
def State.goesFirst (s : State) (l : Launch) (saved : Bool) (team : Nat) : Bool :=
  (s.savedWaiting.any fun x =>
    (decide (x.1.prio < l.prio) || (x.1.prio == l.prio && (!saved || decide (x.1.id < l.id) || (x.1.id == l.id && decide (x.2.team.team < team))))) &&
      (s.placeForSaved x.1 x.2).isSome) ||
  (s.sched.launches.any fun m =>
    (decide (m.prio < l.prio) || (m.prio == l.prio && !saved && decide (m.id < l.id))) && s.mayPlaceNew m && (s.placeFor m).isSome)

/-- A group at placement (R85, R160, R430, R436). -/
def Launch.newGroup (l : Launch) (gid team index role rank : Nat) (entry : DWord) (x : Spot) : Group :=
  { Group.placed gid with
    launch := l.id, team := team, index := index, role := role, rank := rank, width := l.width, core := x.core, slot := x.slot,
    pos := x.pos, pack := x.pack, row := x.row, budget := x.rows, lanes := List.replicate l.width { Lane.zero with pc := entry }, s := l.image,
    trapVec := l.trapVec,
    ctxId := BitVec.ofNat 12 l.guest ++ BitVec.ofNat 16 l.tenant ++ bit l.priv ++ bit l.prot ++ 0#10 ++ BitVec.ofNat 24 l.kernel }

/-- The groups of a new team in their order: role, rank and entry address. -/
def Launch.members (l : Launch) : List (Nat × Nat × DWord) :=
  (l.roles.zipIdx).flatMap fun r => (List.range r.1.1).map fun k => (r.2, k, r.1.2.2.2)

/-- The Hamper of a guest leaves the device. -/
def State.storeHamper (s : State) (guest : Nat) : State :=
  if s.hamper.guest = some guest then
    let recs := s.allRecords
    { s with quads := s.quads.map fun (e : Nat × Quad) => (e.1, { e.2 with hrecs := [] }),
             hamper := { s.hamper with guest := none, kspaces := [],
                                       saved := (s.hamper.saved.filter fun x => x.1 != guest) ++ [(guest, s.hamper.kspaces, recs)] } }
  else s

/-- A new team takes its place (R436). -/
def State.placeNew (s : State) (l : Launch) (f : Fit) : State :=
  let s := s.saveAll (s.inTheWay l.id l.quadTeam f l.accQ)
  let t : Team :=
    { launch := l.id, team := l.nextTeam, quadTeam := l.quadTeam, core := f.core, local' := s.freeLocal [] (coresOf l.quadTeam f.core),
      seq := s.sched.nextSeq, resident := true, ended := false, stashBases := f.stashBases, stashLines := l.stashQ, slots := f.slots,
      accBase := f.accBase, accCount := l.accQ, handles := l.handles, rename := [], boxes := List.replicate 4 [], flaskRefs := [], stopped := none }
  let s := s.takeHamper l
  let s := ({ s with teams := s.teams ++ [t] } : State).zeroStorage t
  let base := s.sched.nextGid
  let gs := ((l.members.zip f.spots).zipIdx).map fun e =>
    l.newGroup (base + e.2) l.nextTeam e.2 e.1.1.1 e.1.1.2.1 e.1.1.2.2 e.1.2
  let s := { s with groups := s.groups ++ gs, sched := { s.sched with nextGid := base + gs.length, nextSeq := s.sched.nextSeq + 1 } }
  s.updLaunch l.id fun l => { l with nextTeam := l.nextTeam + 1, waitLimit := false }

/-- A saved team takes its place. -/
def State.placeSaved (s : State) (l : Launch) (img : Image) (f : Fit) : State :=
  let s := s.saveAll (s.inTheWay l.id img.team.quadTeam f img.team.accCount)
  (s.restoreAt l img f []).updLaunch l.id fun l => { l with waitLimit := false }

/-- PLACEMENT: the team that is next under R435 to R437 takes the core that R175 or R436 gives it; a step that names another
team or core is none that the scheduler takes. -/
def execPlacement (launch team core : Nat) (s : State) : Out :=
  .next (match s.launch? launch with
    | none => s
    | some l =>
      if !s.schedRuns || !s.mayPlace l then s
      else
        match (if s.isSaved launch team then s.imageFor launch team else none) with
        | some img =>
          if s.goesFirst l true team then s
          else
            match s.placeForSaved l img with
            | some f => if f.core = core then s.placeSaved l img f else s
            | none => s
        | none =>
          if team ≠ l.nextTeam || !s.mayPlaceNew l || s.goesFirst l false team then s
          else
            match s.placeFor l with
            | some f => if f.core = core then s.placeNew l f else s
            | none => s)

/-! ### PLACEMENT_WAIT_LIMIT (R438) -/

/-- Whether some team of a launch fits now. -/
def State.launchFits (s : State) (l : Launch) : Bool :=
  (s.savedWaiting.any fun x => x.1.id == l.id && (s.placeForSaved l x.2).isSome) || (s.mayPlaceNew l && (s.placeFor l).isSome)

/-- A launch has a team that waits for placement. -/
def State.waits (s : State) (l : Launch) : Bool :=
  s.mayPlaceNew l || (s.savedWaiting.any fun x => x.1.id == l.id)

/-- The team that is pre-empted next for a launch: of the highest class number above the launch's, and the youngest. -/
def State.nextVictim (s : State) (l : Launch) : Option Team :=
  let cls := fun (t : Team) => match s.launch? t.launch with
    | some m => if m.guest = l.guest ∧ m.tier = 0 ∧ !m.reset then some m.prio else none
    | none => none
  let ts := s.teams.filter fun t => t.resident && (match cls t with
    | some c => decide (l.prio < c)
    | none => false)
  let top := ts.foldl (fun m t => max m ((cls t).getD 0)) 0
  youngest (ts.filter fun t => (cls t).getD 0 == top)

/-- Pre-emption for a launch that has waited too long, one context at a time, until a team of it fits. -/
def State.pressOn (s : State) (l : Launch) : State :=
  let stopping := s.sched.launches.any fun m => m.stoppedFor == some l.id && !(m.tier == 2 && m.quiesced)
  if !l.waitLimit || stopping || !s.waits l || s.launchFits l then s
  else
    match s.nextVictim l with
    | none => s
    | some t => s.preempt t.launch (if l.prio = 0 then 2 else 1) (some l.id)

def execPlacementWaitLimit (launch : Nat) (s : State) : Out :=
  .next (match s.launch? launch with
    | none => s
    | some l =>
      if s.waits l then (s.updLaunch launch fun l => { l with waitLimit := true }).pressOn { l with waitLimit := true } else s)

/-! ### LAUNCH_COMPLETION (R433, R453) -/

/-- Every group of the grid and every engine operation has ended. -/
def State.launchOver (s : State) (l : Launch) : Bool :=
  !s.inReset l.guest && (l.reset || l.teamsDone == l.nteam) && s.teams.all fun t => t.launch != l.id

/-- The launch is gone: its records in the scheduler and in the security controller end, and what was frozen for it thaws. -/
def State.endLaunch (s : State) (l : Launch) : State :=
  let s := { s with sched := { s.sched with launches := s.sched.launches.filter fun m => m.id != l.id },
                    trusted := { s.trusted with approved := s.trusted.approved.filter fun k => k != l.id,
                                                savedCtr := s.trusted.savedCtr.filter fun e => e.1 != l.id } }
  ((s.sched.launches.filter fun m => m.stoppedFor == some l.id && m.tier == 2).map fun m => m.id).foldl State.thawLaunch s

def execLaunchCompletion (launch : Nat) (s : State) : Out :=
  .next (match s.launch? launch with
    | none => s
    | some l =>
      if !s.launchOver l then s
      else
        match s.writeRecord l.cplPA (completionRecord l.tag (if l.reset then cplReset else cplDone) 0xFFFF) with
        | (s, false) => s
        | (s, true) => s.endLaunch l)

/-! ### QUANTUM_EXPIRY (R439, R440) -/

/-- A guest has accepted launches or saved contexts. -/
def State.hasWork (s : State) (guest : Nat) : Bool := s.sched.launches.any fun l => l.guest == guest

/-- The next guest with work after the resident one, in round-robin order. -/
def State.nextGuest (s : State) : Option Nat :=
  ((List.range 4095).map fun k => (s.sched.guest + 1 + k) % 4096).find? s.hasWork

/-- The switch to a guest begins: every context of the outgoing guest drains. -/
def State.startSwitch (s : State) (guest : Nat) : State :=
  let out := (s.sched.launches.filter fun l => l.guest == s.sched.guest && s.teams.any fun t => t.launch == l.id && t.resident).map fun l => l.id
  out.foldl (fun s k => s.preempt k 1 none) { s with sched := { s.sched with switchTo := some guest } }

/-- QUANTUM_EXPIRY: the device goes to the next guest that has work; with no other it stays. -/
def execQuantumExpiry (s : State) : Out :=
  .next (if s.sched.switchTo.isSome then s
    else
      match s.nextGuest with
      | some g => s.startSwitch g
      | none => s)

/-- The switch ends when no context of the outgoing guest has state that is not whole: they are saved, the Hamper moves, and
the incoming guest has the device (R440). -/
def State.finishSwitch (s : State) (guest : Nat) : State :=
  let out := s.sched.launches.filter fun l => l.guest == s.sched.guest
  let mine := s.teams.filter fun t => t.resident && out.any fun l => l.id == t.launch
  let whole := mine.all fun t => out.any fun l => l.id == t.launch && l.tier == 2 && l.quiesced
  if !whole then s
  else
    let s := s.saveAll mine
    let s := s.storeHamper s.sched.guest
    let s := if s.hamper.guest.isNone && (s.hamper.saved.any fun e => e.1 == guest) then s.loadHamper guest else s
    { s with sched := { s.sched with guest := guest, switchTo := none, launches := s.sched.launches.map fun (l : Launch) =>
        if (out.any fun m => m.id == l.id) && !l.reset then { l with tier := 0, quiesced := false, stoppedFor := none } else l } }

/-- What the scheduler goes on with of its own accord: a switch under way, a switch away from a guest that has no work, and
the pre-emption for launches that have waited too long. -/
def State.settleSwitch (s : State) : State :=
  let s := match s.sched.switchTo with
    | some g => s.finishSwitch g
    | none =>
      if s.hasWork s.sched.guest then s
      else
        match s.nextGuest with
        | some g => s.startSwitch g
        | none => s
  s.sched.launches.foldl (fun s l => if l.waitLimit && s.mayPlace l then s.pressOn l else s) s

end Sys2Proof.Machine
end

