-- ==== Sys2Proof/Machine/Platform.lean ====
section
/-! DEFINITION. The platform (R472 to R489): function-level resets, the host link, the Otger ports and the domain, power,
the management commands, firmware, debug and security states, maintenance, and the writes of registers; and the transfer of
keys between modules (R465). -/

namespace Sys2Proof.Machine

/-! ### Admissions that are aborted (R221) -/

/-- PENDING of pages is cleared. -/
def State.clearPending (s : State) (pages : List Nat) : State :=
  { s with trusted := { s.trusted with seals := pages.foldl (fun l p => aset l p (alookup l p 0 &&& ~~~(2#64))) s.trusted.seals } }

/-- GUEST of an admission request (R434). -/
def rqGuest (r : BitVec 512) : Nat := fldN r 220 12

/-- Every admission in progress that satisfies a condition aborts, with no result record. -/
def State.abortAdmissions (s : State) (p : BitVec 512 → Bool) : State :=
  [0, 1, 2, 3].foldl (fun s d =>
    let die := s.die d
    let s := match die.stile with
      | some a => if p a.request then (s.clearPending a.pages).updDie d fun x => { x with stile := none } else s
      | none => s
    s.updDie d fun x => { x with stileQ := x.stileQ.filter fun r => !p r }) s

/-! ### Function-level reset (R476, R477) -/

/-- Steps 1 and 2 for the contexts of a guest: they freeze, with no deadline, and what its engines do ends (R476). -/
def State.freezeGuest (s : State) (guest : Nat) : State :=
  let s := s.abortAdmissions fun r => rqGuest r == guest
  let gids := (s.groups.filter fun g => g.resident && g.guest == guest).map fun g => g.gid
  let s := ((s.sched.launches.filter fun l => l.guest == guest).map fun l => l.id).foldl State.freezeLaunch s
  let s := s.engOps.foldl (fun s o => if gids.contains o.gid then s.updQuad o.quad fun q => q.unregister o.opid else s) s
  { s with engOps := s.engOps.filter fun o => !gids.contains o.gid }

/-- The steps of a Function Level Reset of a guest after its cores are clear, on the queues of a function (R476). -/
def State.resetGuest (s : State) (guest : Nat) (fns : List Nat) : State :=
  let s := s.abortAdmissions fun r => rqGuest r == guest
  let s := (s.sched.launches.filter fun l => l.guest == guest).foldl (fun s l => (s.forcedReset l.id).endLaunch l) s
  let s := if s.hamper.guest = some guest then
      { s with quads := s.quads.map fun (e : Nat × Quad) => (e.1, { e.2 with hrecs := [] }),
               hamper := { s.hamper with guest := none, kspaces := [] } } else s
  { s with hamper := { s.hamper with saved := s.hamper.saved.filter fun e => e.1 != guest,
                                     owed := s.hamper.owed.filter fun e => e.1 != guest },
           xlate := { s.xlate with iqs := s.xlate.iqs.filter fun e => !fns.contains e.1,
                                   syncs := s.xlate.syncs.filter fun e => !fns.contains e.1 },
           sched := { s.sched with sqs := s.sched.sqs.filter fun e => !fns.contains e.1,
                                   pending := s.sched.pending.filter fun (p : Pending) => !fns.contains p.fn,
                                   taken := s.sched.taken.filter fun e => !fns.contains e.1,
                                   nextQueue := s.sched.nextQueue.filter fun e => !fns.contains e.1,
                                   switchTo := if s.sched.switchTo = some guest then none else s.sched.switchTo } }

/-- A Function Level Reset of a guest begins: its contexts freeze, and contexts of other guests leave its quads. -/
def State.startReset (s : State) (guest : Nat) : State :=
  if s.inReset guest then s
  else
    let quads := ((s.groups.filter fun g => g.resident && g.guest == guest).map fun g => g.core / 4).eraseDups
    (s.freezeGuest guest).mapPlat fun p => { p with resets := p.resets ++ [(guest, quads)] }

/-- A Function Level Reset goes on: contexts of other guests are saved as soon as their state is whole, and the reset ends
when none is left on its quads (R476). FREEZE_DEADLINE ends those that are not saved in time. -/
def State.goOnReset (s : State) (e : Nat × List Nat) : State :=
  let others := fun (s : State) => s.teams.filter fun t => t.resident && e.2.contains (t.core / 4) && (match s.launch? t.launch with
    | some l => l.guest != e.1
    | none => false)
  let s := (others s).foldl (fun s t => (s.stopTeam t (.reset e.1)).1) s
  if others s = [] then
    (s.resetGuest e.1 [e.1]).mapPlat fun p => { p with resets := p.resets.filter fun x => x.1 != e.1 }
  else s

/-- The Function Level Resets under way. -/
def State.settleResets (s : State) : State := s.plat.resets.foldl State.goOnReset s

/-- The guests that the state knows of. -/
def State.guests (s : State) : List Nat :=
  (s.sched.launches.map fun l => l.guest) ++ (s.xlate.iqs.map fun e => e.1) ++ (s.sched.sqs.map fun e => e.1) ++
    (s.hamper.saved.map fun e => e.1) ++ s.hamper.guest.toList

/-- FLR of function 0: every guest is reset, at once since no other guest's contexts are to be saved; the module is lost to
its domain and comes back under a new incarnation, and it discards its cached remote lines (R477, R123). -/
def State.resetFunction0 (s : State) : State :=
  let s := s.abortAdmissions fun _ => true
  let s := s.guests.eraseDups.foldl (fun s g => s.resetGuest g [g]) s
  let s := s.resetGuest 0 [0, hyperQueue]
  let s := s.mapPlat fun p => { p with resets := [] }
  let s := (s.reportAgent s.thisNode).wasDead (s.incOf s.thisNode + 1).toNat
  { s with cores := s.cores.map fun (c : Nat × Core) => (c.1, { c.2 with l1 := c.2.l1.filter fun x => (keyNode x.line).isNone }) }

/-- A Function Level Reset of a function. -/
def State.functionReset (s : State) (n : Nat) : State :=
  if n = 0 then s.resetFunction0 else if n < 4096 then s.startReset n else s

def execFlrVf (n : Nat) (s : State) : Out := .next (if n = 0 then s else s.functionReset n)
def execFlrPf (s : State) : Out := .next (s.functionReset 0)

/-! ### The host link (R478, R479) -/

/-- COUNT of HLOSS goes up, saturating, and FROZEN is set. -/
def countLoss (h : DWord) : DWord :=
  BitVec.ofNat 32 (min (2 ^ 32 - 1) (fldN h 32 32 + 1)) ++ (fld h 0 32 ||| 1#32)

/-- LINK_LOSS: the four steps of R478, in their order. -/
def execLinkLoss (s : State) : Out :=
  let s := { s with regs := { s.regs with hloss := countLoss s.regs.hloss }, plat := { s.plat with linkUp := false } }
  let s := s.hostDies
  let touched := (s.sched.launches.filter fun l => l.touchedHost && !l.reset).map fun l => l.id
  let s := touched.foldl (fun s k =>
    ((s.launchGids k).foldl (fun s g => s.freezeGroup g) s).updLaunch k fun l => { l with linkFrozen := true }) s
  .next (s.send (.linkLoss (fldN s.regs.hloss 32 32)))

/-- LINK_DOWN_HANDSHAKE: the link goes down in order, and nothing is lost. -/
def execLinkDownHandshake (s : State) : Out := .next { s with plat := { s.plat with linkUp := false } }

/-- LINK_UP: the link trains again, and the host is treated as new (R123). -/
def execLinkUp (s : State) : Out :=
  .next { s with plat := { s.plat with linkUp := true, dead := s.plat.dead.filter fun n => n != hostAgent } }

/-- The contexts that the loss froze go on, unless a pre-emption holds them. -/
def State.hlossThaw (s : State) : State :=
  let ks := (s.sched.launches.filter fun l => l.linkFrozen).map fun l => l.id
  let s := { s with regs := { s.regs with hloss := s.regs.hloss &&& ~~~(1#64) } }
  ks.foldl (fun s k =>
    let s := s.updLaunch k fun l => { l with linkFrozen := false }
    match s.launch? k with
    | some l => if l.tier = 2 then s else (s.launchGids k).foldl (fun s g => s.thawGroup g) s
    | none => s) s

def execHlossThaw (s : State) : Out := .next s.hlossThaw

/-! ### Otger ports and the domain (R480, R481) -/

def State.portState (s : State) (port : Nat) : PortState := alookup s.plat.ports port .off
def State.setPort (s : State) (port : Nat) (x : PortState) : State :=
  s.mapPlat fun p => { p with ports := aset p.ports port x }
/-- DOM.CTRL.EN. -/
def State.portsEnabled (s : State) : Bool := s.regs.domCtrl.getLsbD 0

/-- A write of EN: the ports begin to train once it is 1. -/
def State.writeEn (s : State) (v : Bool) : State :=
  let s := { s with regs := { s.regs with domCtrl := if v then s.regs.domCtrl ||| 1#64 else s.regs.domCtrl &&& ~~~(1#64) } }
  if v then (List.range 144).foldl (fun s p => if s.portState p = .off then s.setPort p .training else s) s else s

/-- A write of FORMED. -/
def State.writeFormed (s : State) (v : Bool) : State :=
  { s with regs := { s.regs with domCtrl := if v then s.regs.domCtrl ||| 2#64 else s.regs.domCtrl &&& ~~~(2#64) } }

def execDomEnWrite (v : Bool) (s : State) : Out := .next (s.writeEn v)
def execDomFormedWrite (v : Bool) (s : State) : Out := .next (s.writeFormed v)

/-- PORT_TRAINED: an attempt succeeds with the node at the other end, or fails. Two modules of one node are both refused. -/
def execPortTrained (port node : Nat) (ok : Bool) (s : State) : Out :=
  .next (if s.portState port ≠ .training || !s.portsEnabled then s
    else if !ok then s.setPort port .awaitingRetry
    else if node = s.thisNode then (s.setPort port .down).log (.identityConflict port)
    else (s.setPort port .up).mapPlat fun p =>
      { p with portNode := aset p.portNode port node, flits := adel p.flits port,
               nodes := if p.nodes.contains node then p.nodes else p.nodes ++ [node] })

/-- PORT_TRAIN_RETRY: a failed attempt, or a port that was taken down, trains again. -/
def execPortTrainRetry (port : Nat) (s : State) : Out :=
  .next (if s.portsEnabled && (s.portState port == .awaitingRetry || s.portState port == .down) then s.setPort port .training else s)

/-- FLIT_CHECK_FAILURE: the flit is sent again on the same port, and the failure is counted. -/
def execFlitCheckFailure (port : Nat) (s : State) : Out :=
  .next (if s.portState port = .up then s.mapPlat fun p => { p with flits := aset p.flits port (alookup p.flits port 0 + 1) } else s)

/-- Some port towards a node is up. -/
def State.reaches (s : State) (node : Nat) : Bool :=
  s.plat.portNode.any fun e => e.2 == node && s.portState e.1 == .up

/-- PORT_TAKEDOWN: traffic moves to the remaining ports; an agent that none reaches any more is reported (R117). -/
def execPortTakedown (port : Nat) (s : State) : Out :=
  .next (if s.portState port = .off then s
    else
      let was := s.portState port
      let s := ((s.setPort port .down).log (.portDown port)).mapPlat fun p => { p with flits := adel p.flits port }
      match s.plat.portNode.find? fun e => e.1 == port with
      | some e => if was = .up && !s.reaches e.2 then s.reportAgent e.2 else s
      | none => s)

/-! ### Power and temperature (R483) -/

/-- POWER_WINDOW: vote points and dispatches are withheld while power is above its limit. -/
def execPowerWindow (above : Bool) (s : State) : Out := .next (s.mapPlat fun p => { p with throttled := above })

/-- A cold reset of the module; the management controller and what the surroundings hold are kept where `keep` says so. The
model's own fields go on. -/
def State.coldReset (s : State) (keep recovery : Bool) : State :=
  { State.reset with
    agenda := s.agenda, fresh := s.fresh, outbox := s.outbox,
    plat := { Plat.reset with fused := s.plat.fused, recovery := recovery, firmware := s.plat.firmware,
                              mirror := if keep then s.plat.mirror else [] } }

/-- TEMP_CRITICAL: the management controller logs the cause and resets the module. -/
def execTempCritical (die : Nat) (s : State) : Out := .next ((s.log (.overTemperature die)).coldReset true false)

/-! ### Management commands (R485) -/

def execMgmtFlr (n : Nat) (s : State) : Out := .next (s.functionReset n)
def execModuleReset (s : State) : Out := .next (s.coldReset true false)
def execReadFaultLog (s : State) : Out := .next (s.send (.faultLog s.plat.mirror))

/-- What a refused command is: 0 dump state, 1 recover, 2 a firmware image, 3 a debug state. -/
def execDumpState (s : State) : Out :=
  .next (match s.plat.debug with
    | .device => s.send (.stateDump (s.sched.launches.map fun l => l.id))
    | .tenant t => s.send (.stateDump ((s.sched.launches.filter fun l => l.tenant == t && !l.prot).map fun l => l.id))
    | .off => s.send (.refusal 0))

/-- RECOVER: an image from the recovery path enters the slot, where the security state allows it. -/
def execRecover (ok : Bool) (s : State) : Out :=
  .next (if s.security = .protectedPresent then s.send (.refusal 1)
    else if ok then s.mapPlat fun p => { p with firmware := p.firmware + 1, recovery := false, pendingImage := false }
    else s.send (.refusal 1))

/-- SPDM_REQUEST: the digests of the firmware and of the admitted kernels (R252). -/
def execSpdmRequest (_nonce : BitVec 256) (s : State) : Out :=
  .next (s.send (.measurements (Config.firmwareDigest s.plat.firmware ::
    ((s.trusted.kernels.filter fun e => keValid e.2).map fun e => fld e.2 1664 384))))

def execPldmTelemetry (s : State) : Out := .next (s.send (.telemetry s.regs.hloss))

/-! ### Firmware (R487, R488) -/

/-- PLDM_FIRMWARE_UPDATE: an image whose signatures and version pass waits to take over. -/
def execPldmFirmwareUpdate (ok : Bool) (s : State) : Out :=
  .next (if ok then { s with plat := { s.plat with pendingImage := true }, sched := { s.sched with handover := true } }
    else s.send (.refusal 2))

/-- FIRMWARE_HANDOVER: at a point where no descriptor is half read; queues, doorbells and saved images are kept. -/
def execFirmwareHandover (s : State) : Out :=
  .next (if s.plat.pendingImage && s.sched.pending.isEmpty && s.sched.taken.isEmpty then
      { s with plat := { s.plat with firmware := s.plat.firmware + 1, pendingImage := false }, sched := { s.sched with handover := false } }
    else s)

/-- COLD_RESET: the module boots, or stands in the boot ROM's recovery path when its image fails to verify. -/
def execColdReset (ok : Bool) (s : State) : Out := .next (s.coldReset false (!ok))

/-! ### Debug and power states (R484) -/

/-- A debug state may be entered. -/
def State.mayDebug (s : State) (st : Nat) (token : Bool) : Bool :=
  match s.security, st with
  | _, 0 => true
  | .open', _ => true
  | .production, _ => token
  | .protectedPresent, 1 => true
  | .protectedPresent, _ => false

/-- DEBUG_STATE_REQUEST: 0 off, 1 tenant-debug, 2 device-debug. -/
def execDebugStateRequest (st : Nat) (token : Bool) (tenant : Nat) (s : State) : Out :=
  .next (if 2 < st then s
    else if s.mayDebug st token then
      s.mapPlat fun p => { p with debug := if st = 0 then .off else if st = 1 then .tenant tenant else .device }
    else (s.log .debugRefused).send (.refusal 3))

/-- DEEP_SLEEP_ENTRY: with no context resident. -/
def execDeepSleepEntry (s : State) : Out :=
  .next (if s.teams.any fun t => t.resident then s else s.mapPlat fun p => { p with power := .deepSleep })

def execDeepSleepWake (s : State) : Out := .next (s.mapPlat fun p => { p with power := .active })

/-! ### Quad repair (R488, R489) -/

def qServing : BitVec 3 := 0
def qDraining : BitVec 3 := 1
def qDrained : BitVec 3 := 2
def qTesting : BitVec 3 := 3
def qFailed : BitVec 3 := 4
def qRepaired : BitVec 3 := 5

def State.qstate (s : State) (quad : Nat) : BitVec 3 := alookup s.plat.qstates quad qServing
def State.setQstate (s : State) (quad : Nat) (x : BitVec 3) : State :=
  s.mapPlat fun p => { p with qstates := aset p.qstates quad x }

/-- The register that a discarded command was written to: QREP or HBM.RETIRE, by its offset. -/
def offHbmRetire : Nat := 0xC0008
def offQrep : Nat := 0xC0010

/-- QUAD of QREP names the quad of the last command. -/
def State.nameQuad (s : State) (quad : Nat) : State :=
  { s with regs := { s.regs with qrep := (s.regs.qrep &&& ~~~(0xFF#64)) ||| BitVec.ofNat 64 (quad % 256) } }

/-- A QREP command is taken in some states alone; in any other it is discarded and logged. -/
def State.qrepCommand (s : State) (quad : Nat) (from' : List (BitVec 3)) (f : State → State) : State :=
  let s := s.nameQuad quad
  if quad < 160 && from'.contains (s.qstate quad) then f s else s.log (.commandDiscarded offQrep)

def State.qrepDrain (s : State) (quad : Nat) : State :=
  s.qrepCommand quad [qServing] fun s =>
    let s := s.setQstate quad qDraining
    { s with sched := { s.sched with withdrawn := quad :: s.sched.withdrawn } }

def State.qrepRetest (s : State) (quad : Nat) : State :=
  s.qrepCommand quad [qDrained, qFailed] fun s => s.setQstate quad qTesting

/-- The quad serves again, with power. -/
def State.qrepReturn (s : State) (quad : Nat) : State :=
  s.qrepCommand quad [qDrained, qRepaired] fun s =>
    let s := (s.setQstate quad qServing).updQuad quad fun q => { q with off := false }
    { s with sched := { s.sched with withdrawn := s.sched.withdrawn.filter fun k => k != quad } }

def execQrepDrain (quad : Nat) (s : State) : Out := .next (s.qrepDrain quad)
def execQrepRetest (quad : Nat) (s : State) : Out := .next (s.qrepRetest quad)
def execQrepReturn (quad : Nat) (s : State) : Out := .next (s.qrepReturn quad)

/-- The drain of a quad ends its first tier, in which its teams run on: those that are left stop and are saved, and with none
left it is drained (R450, R488). The step comes again while the state of a team is not whole. -/
def State.drainQuad (s : State) (quad : Nat) : State :=
  let s := (s.teams.filter fun t => t.resident && t.core / 4 == quad).foldl (fun s t => (s.stopTeam t (.repair quad)).1) s
  if s.teams.any fun t => t.resident && t.core / 4 == quad then s else s.setQstate quad qDrained

def execQrepDrainDone (s : State) : Out :=
  .next (((s.plat.qstates.filter fun e => e.2 == qDraining).map fun e => e.1).foldl State.drainQuad s)

/-- Spare cores of the compute die of a quad that have been swapped in; a die has four (R3, R15). -/
def State.sparesUsed (s : State) (quad : Nat) : Nat := alookup s.plat.spares (quad / 20) 0

/-- QREP_RETEST_DONE: every core passes, or a spare of the same die replaces the failing core, when one is left. -/
def execQrepRetestDone (ok spare : Bool) (s : State) : Out :=
  .next (match s.plat.qstates.find? fun e => e.2 == qTesting with
    | none => s
    | some e =>
      if ok then s.setQstate e.1 qRepaired
      else if spare && decide (s.sparesUsed e.1 < 4) then
        (s.mapPlat fun p => { p with spares := aset p.spares (e.1 / 20) (s.sparesUsed e.1 + 1) }).setQstate e.1 qRepaired
      else s.setQstate e.1 qFailed)

/-- OFF of QREP: a drained quad is powered down, and its state is lost (R484). -/
def State.powerQuad (s : State) (quad : Nat) (off : Bool) : State :=
  if quad < 160 && s.qstate quad == qDrained then
    if off then
      let s := s.setQuad quad { Quad.empty with off := true }
      [0, 1, 2, 3].foldl (fun s c => s.setCore (4 * quad + c) Core.empty) s
    else s.updQuad quad fun q => { q with off := false }
  else s

/-! ### HBM.RETIRE (R488, R489) -/

def hrState (r : DWord) : Nat := fldN r 12 2
def hrFirst (r : DWord) : Nat := fldN r 16 32
/-- The register with its FIRST, STATE, CHANNEL and STACK. -/
def mkRetire (first st : Nat) (sel : BitVec 9) : DWord :=
  0#16 ++ BitVec.ofNat 32 first ++ 0#2 ++ BitVec.ofNat 2 st ++ 0#3 ++ sel

def State.setRetire (s : State) (r : DWord) : State := { s with regs := { s.regs with hbmRetire := r } }

/-- The request names the 2 GiB range of the channel, which the manual leaves to the device: a free one (log 41). -/
def State.retireRequest (s : State) (v : DWord) : State :=
  if hrState s.regs.hbmRetire = 0 ∨ hrState s.regs.hbmRetire = 3 then
    let first := 32768 * ((Config.unstated s.fresh).toNat % 384)
    ({ s with fresh := s.fresh + 1 } : State).setRetire (mkRetire first 1 (fld v 0 9))
  else s.log (.commandDiscarded offHbmRetire)

def State.retireCommit (s : State) : State :=
  let r := s.regs.hbmRetire
  if hrState r = 1 then s.setRetire (mkRetire (hrFirst r) 2 (fld r 0 9)) else s.log (.commandDiscarded offHbmRetire)

def execHbmRetireRequest (v : BitVec 64) (s : State) : Out := .next (s.retireRequest v)
def execHbmRetireCommit (_v : BitVec 64) (s : State) : Out := .next s.retireCommit

/-- RESTRIPE_DONE: the range is retired, and a leaf that names it is malformed from now on. -/
def execRestripeDone (s : State) : Out :=
  .next (let r := s.regs.hbmRetire
    if hrState r = 2 then
      (s.setRetire (mkRetire (hrFirst r) 3 (fld r 0 9))).mapPlat fun p => { p with retired := p.retired ++ [hrFirst r] }
    else s)

/-! ### FEAT.MASK (R463) -/

/-- A write of a guest's mask takes effect while its guest descriptor is not valid; any other is ignored and logged. -/
def State.writeFeatMask (s : State) (guest : Nat) (v : BitVec 256) : State :=
  if (s.guestDesc guest).valid then s.log (.featMaskIgnored guest)
  else { s with regs := { s.regs with featMask := aset s.regs.featMask guest v } }

def execFeatMaskWrite (guest : Nat) (v : BitVec 256) (s : State) : Out := .next (s.writeFeatMask guest v)

/-! ### KEY_TRANSFER (R465) -/

/-- KEY_TRANSFER: out, the recorded CTRs of a context leave with its key and are deleted; in, they are recorded. -/
def execKeyTransfer (launch idx : Nat) (out_ : Bool) (key : BitVec 256) (ctrs : List (Nat × BitVec 64)) (s : State) : Out :=
  .next (if out_ then
      let mine := s.trusted.savedCtr.filter fun e => e.1 == launch
      let s := s.send (.keyTransfer launch idx (mine.map fun e => (e.2.1, e.2.2)))
      { s with trusted := { s.trusted with savedCtr := s.trusted.savedCtr.filter fun e => e.1 != launch } }
    else
      let rest := s.trusted.savedCtr.filter fun e => !(e.1 == launch && ctrs.any fun c => c.1 == e.2.1)
      let new := ctrs.map fun c => (launch, c.1, c.2)
      { s with trusted := { s.trusted with keys := aset s.trusted.keys idx key, savedCtr := rest ++ new } })

/-! ### REGISTER_WRITE (R474, R475) -/

/-- The writable bits of a register take the value. -/
def writeBits (old v mask : DWord) : DWord := (old &&& ~~~mask) ||| (v &&& mask)

/-- BASE fields of page registers. -/
def pageMask : DWord := 0x0000FFFFFFFF0000#64

/-- A write of the EN and ERR bits of a queue's control register. -/
def Queue.writeCtrl (q : Queue) (v : DWord) (en : Bool) : Queue :=
  let c := if en then writeBits q.ctrl v 1#64 else q.ctrl
  { q with ctrl := if v.getLsbD 1 then c &&& ~~~(2#64) else c }

/-- A write to a function window: the invalidation queue, whose BASE and EN the hypervisor alone writes, and the
submission queues. -/
def State.writeWindow (s : State) (fn off : Nat) (v : DWord) (hyper : Bool) (sqAt : Nat) : State :=
  if off = 0 then if hyper then s.setIq fn { s.iq fn with base := v &&& pageMask } else s
  else if off = 8 then s.setIq fn ((s.iq fn).writeCtrl v hyper)
  else if off = 16 then
    match (s.iq fn).advanceTail v with
    | some q => s.setIq fn q
    | none => s.log (.queueOverrun fn)
  else if sqAt ≤ off ∧ off < sqAt + 0x200 then
    let q := (off - sqAt) / 0x20
    match (off - sqAt) % 0x20 with
    | 0 => s.setSq fn q { s.sq fn q with base := v &&& pageMask }
    | 8 => s.setSq fn q ((s.sq fn q).writeCtrl v true)
    | 16 =>
      match (s.sq fn q).advanceTail v with
      | some x => s.setSq fn q x
      | none => s.log (.queueOverrun (8192 + 16 * fn + q))
    | _ => s
  else s

/-- Device control (R475). -/
def State.writeControl (s : State) (off : Nat) (v : DWord) : State :=
  match off with
  | 0x00 => { s with regs := { s.regs with gdtBase := v &&& pageMask } }
  | 0x08 => { s with regs := { s.regs with preDL := v } }
  | 0x10 => if v.getLsbD 1 then s.hlossThaw else s
  | 0x18 => if s.formed then s else { s with regs := { s.regs with domNode := v &&& 0xFFF#64 } }
  | 0x20 =>
    let s := if s.formed then s else { s with regs := { s.regs with domCtrl := writeBits s.regs.domCtrl v 0xFFF00000#64 } }
    let s := if v.getLsbD 0 = s.portsEnabled then s else s.writeEn (v.getLsbD 0)
    s.writeFormed (v.getLsbD 1)
  | 0x28 => { s with regs := { s.regs with pwrLimit := v &&& 0xFFFF#64 } }
  | _ => s

/-- The registers of a base die (R124). -/
def State.writeDie (s : State) (die off : Nat) (v : DWord) : State :=
  match off with
  | 0x08 => s.updDie die fun d =>
      let c := writeBits d.migCtrl v 0xFFFFFFFF00000001#64
      { d with migCtrl := if v.getLsbD 1 then c &&& ~~~(2#64) else c }
  | 0x10 => s.updDie die fun d => { d with pqBase := v &&& pageMask }
  | 0x18 => s.updDie die fun d => { d with pqHead := v &&& 0xFFF#64 }
  | 0x28 =>
    match (s.die die).requests.advanceTail v with
    | some q => s.updDie die fun d => { d with rqTail := q.tail }
    | none => s.log (.queueOverrun (8192 + die))
  | _ => s

/-- A write of QREP: its fields, OFF, and its command. -/
def State.writeQrep (s : State) (v : DWord) : State :=
  let quad := fldN v 0 8
  let s := s.nameQuad quad
  let s := { s with regs := { s.regs with qrep := writeBits s.regs.qrep v 0x400#64 } }
  let s := s.powerQuad quad (v.getLsbD 10)
  match fldN v 14 2 with
  | 1 => s.qrepDrain quad
  | 2 => s.qrepRetest quad
  | 3 => s.qrepReturn quad
  | _ => s

/-- A write of HBM.RETIRE. -/
def State.writeRetire (s : State) (v : DWord) : State :=
  match fldN v 14 2 with
  | 1 => s.retireRequest v
  | 2 => s.retireCommit
  | _ => s.setRetire (writeBits s.regs.hbmRetire v 0x1FF#64)

/-- A 64-bit write in function 0's BAR 0 (R474). -/
def State.write64 (s : State) (off : Nat) (v : DWord) : State :=
  let blk := off / 65536
  let o := off % 65536
  if blk = 0 then s.writeControl o v
  else if blk = 1 then s.writeWindow hyperQueue o v true 0x100
  else if 0x40020 ≤ off ∧ off < 0x40020 + 32 * 4096 then
    let g := (off - 0x40020) / 32
    let w := (off - 0x40020) % 32 / 8
    let old := alookup s.regs.featMask g (BitVec.allOnes 256)
    s.writeFeatMask g ((old &&& ~~~((BitVec.allOnes 64).setWidth 256 <<< (64 * w))) ||| (v.setWidth 256 <<< (64 * w)))
  else if 8 ≤ blk ∧ blk < 12 then s.writeDie (blk - 8) o v
  else if blk = 12 then
    if o = 0 then { s with regs := { s.regs with collBase := v &&& pageMask } }
    else if o = 8 then s.writeRetire v
    else if o = 16 then s.writeQrep v
    else s
  else if blk = 13 then
    let g := o / 16
    if o % 16 = 0 then s.setIq g { s.iq g with base := v &&& pageMask } else s.setIq g ((s.iq g).writeCtrl v true)
  else if blk = 14 then s.writeWindow 0 o v false 0x1000
  else s

/-- A 32-bit write in function 0's BAR 0: the registers whose tables state 32 bits. -/
def State.write32 (s : State) (off : Nat) (v : Word) : State :=
  if 0x20000 ≤ off ∧ off < 0x20040 then
    { s with regs := { s.regs with stickyQuota := aset s.regs.stickyQuota ((off - 0x20000) / 4) (v &&& 0x7F#32) } }
  else if 0x30000 ≤ off ∧ off < 0x34000 then
    { s with regs := { s.regs with schedQuant := aset s.regs.schedQuant ((off - 0x30000) / 4) (v &&& 0xFFFFF#32) } }
  else if 8 ≤ off / 65536 ∧ off / 65536 < 12 ∧ off % 65536 = 0 then
    s.updDie (off / 65536 - 8) fun d => { d with purgeDL := v &&& 0xFFFFF#32 }
  else s

/-- REGISTER_WRITE: a write of `size` bytes at an offset of the BAR 0 of a function, function 0 below 64 MiB and function *n*
at *n* times 64 MiB. An access of another size or alignment is discarded. -/
def execRegisterWrite (off size : Nat) (v : BitVec 64) (s : State) : Out :=
  let fn := off / 2 ^ 26
  let o := off % 2 ^ 26
  .next (if size = 8 ∧ o % 8 = 0 then
      if fn = 0 then s.write64 o v else if fn < 4096 ∧ o < 65536 then s.writeWindow fn o v false 0x1000 else s
    else if size = 4 ∧ o % 4 = 0 ∧ fn = 0 then s.write32 o (v.setWidth 32)
    else s)

end Sys2Proof.Machine
end

