-- ==== Sys2Proof/Machine/Agenda.lean ====
section
/-! DEFINITION. Which step comes next: the agenda's order, and a free choice among the enabled steps of the
device's own units when the agenda is empty (log 1, log 16). -/

namespace Sys2Proof.Machine

/-- A request's arrival needs nothing from another module. -/
def State.arrivesAlone (s : State) (r : Req) : Bool := !s.needsAnswer r.line (.req r.id)

/-- Steps of the cores' units: results, stores and stash lines on their way. -/
def State.memorySteps (s : State) : List Instr :=
  (s.reqs.filter s.arrivesAlone).map (fun r => .homeRequest (.own r.id false 0)) ++
    s.reqs.flatMap (fun r =>
    [.resultReturn r.gid r.op, .ticketGrant r.id true, .outstandingEntryFree r.core r.id,
     .stashFillReturn r.core r.op, .flaskRequestAtHome r.id, .hamperAtHome r.id [], .hamperResultReturn r.id]) ++
    s.cores.flatMap (fun c => c.2.cbuf.flatMap fun e => [.coalesceTimeout c.1 e.line, .storeDrain c.1 e.line]) ++
    s.home.tags.flatMap fun t =>
      match t.owner with
      | some c => [.stashReadRecall c t.line, .stashWriteRecall c t.line]
      | none => []

/-- Steps of the groups: votes, grants, retries and the delivery of traps. -/
def State.groupSteps (s : State) : List Instr :=
  s.groups.flatMap fun g =>
    (if s.plat.throttled then [] else [.votePoint g.core g.slot]) ++
      [.trapDelivery g.gid, .growGrant g.gid, .lockRetry g.gid, .ringWaitResume g.gid]

/-- Steps of the engines, the tile store and the matrix engines. -/
def State.engineSteps (s : State) : List Instr :=
  s.engOps.flatMap (fun o => [.engineStart o.id, .engineLinePerform o.id [] [], .engineComplete o.id]) ++
    s.tileOps.map (fun o => .tileOpComplete o.op) ++
    s.quads.flatMap fun q =>
      (if s.plat.throttled then [] else [.reservationDispatch q.1]) ++ [.streamCommand q.1, .streamEnd q.1] ++
        q.2.resv.map fun e => .passComplete q.1 e.id

/-- Steps of the queues' consumers, the Stile engines and the migration engines. -/
def State.queueSteps (s : State) : List Instr :=
  s.xlate.iqs.flatMap (fun q => [.invS1Va q.1, .invS1All q.1, .invS2Ipa q.1, .invS2All q.1, .sync q.1, .syncComplete q.1]) ++
    s.sched.sqs.map (fun q => .launchDescriptor q.1 ⟨q.2.1, []⟩) ++
    s.dies.flatMap fun d =>
      (d.2.stileQ.map fun r => .admissionRequest ⟨r, []⟩) ++ [.admissionResult d.1, .migrate d.1, .release d.1]

/-- Steps of the scheduler for one launch. -/
def State.launchSteps (s : State) (l : Launch) : List Instr :=
  let new := match (if s.mayPlaceNew l then s.placeFor l else none) with
    | some f => [.placement l.id l.nextTeam f.core]
    | none => []
  let saved := s.savedWaiting.filterMap fun x =>
    if x.1.id = l.id then (s.placeForSaved l x.2).map fun f => .placement l.id x.2.team.team f.core else none
  new ++ saved ++ [.rollcallComplete l.id, .freezeQuiesced l.id, .launchCompletion l.id]

/-- The steps that the device's own units can take in a state. -/
def State.enabled (s : State) : List Instr :=
  s.groupSteps ++ s.memorySteps ++ s.engineSteps ++ s.queueSteps ++ s.sched.launches.flatMap s.launchSteps ++ [.qrepDrainDone]

/-- The free choice among the ports' turn and the enabled steps. -/
noncomputable def State.chooseTurn (s : State) : Turn :=
  let options := (if s.ports = [] then [] else [none]) ++ s.enabled.map some
  let s := s.tick
  match options[Config.choice s.fresh % options.length]? with
  | some (some e) => .event e s
  | some none => s.portTurn
  | none => .idle s

/-- The next turn. -/
noncomputable def State.nextTurn (s : State) : Turn :=
  match s.agenda with
  | [] => s.chooseTurn
  | none :: rest => ({ s with agenda := rest }).tick.portTurn
  | some e :: rest =>
    if e.isInstruction then .notAnEvent else .event e ({ s with agenda := rest }).tick

/-- What follows every step: what waits for a condition that now holds goes on, teams that have ended give up their storage,
the scheduler and the resets go on with what they have begun, and lanes that waited for a resource try again. -/
def State.settle (s : State) : State :=
  let s := { s with groups := s.groups.map Group.settle }
  let s := s.settleTouches.settleFences.settleFallbacks.settleBarriers.settleEngines.settleOwners
  let s := s.settleInflight.settleTeams.settleStopped.settleSwitch.settleResets
  s.settleInbox.settleHost.settleProposals.retryHeld

end Sys2Proof.Machine
end

