-- ==== Sys2Proof/Machine/CrossLane.lean ====
section
/-! DEFINITION. Class 1, across the lanes of a group: exchanges, reductions, min-with-index, scans and polls
(R314 to R319). All are convergent (R170). -/

namespace Sys2Proof.Machine

/-- The contributing lanes of one performance: those at the instruction whose guard is true (R314). -/
def contributing (g : Group) (m : BitVec 64) : BitVec 64 := g.maskOf fun i l => m.getLsbD i && l.guard

/-- The contributing lanes, lowest first. -/
def contributors (g : Group) (m : BitVec 64) : List (Nat × Lane) :=
  (g.lanes.zipIdx).filterMap fun e => if m.getLsbD e.2 && e.1.guard then some (e.2, e.1) else none

/-- One performance: every lane's result is computed from the group as it was before any is written (R314). -/
def State.crossLanes (s : State) (f : Group → BitVec 64 → Nat → Lane → Lane) : State :=
  s.converge 1 fun s gid m => s.updGroup gid fun g => g.mapLanes m (f g m)

/-- A lane exchange (R315): `src` gives the source lane from the width, the lane and its b. -/
def State.exchange (s : State) (d : BitVec 7) (w : BitVec 1) (a b : BitVec 8) (src : Nat → Nat → Nat → Nat) :
    State :=
  s.crossLanes fun g m i l =>
    let k := src g.width i (src32 g i l b).toNat
    l.result32 d.toNat w (if (contributing g m).getLsbD k then
      match g.lanes[k]? with
      | some lk => src32 g k lk a
      | none => 0#32
      else 0#32)

/-- A reduction of the contributing values (R316). -/
def State.reduce (s : State) (d : BitVec 7) (w : BitVec 1) (a : BitVec 8) (f : List Word → Word) : State :=
  s.crossLanes fun g m _ l =>
    l.result32 d.toNat w (f ((contributors g m).map fun e => src32 g e.1 e.2 a))

/-- The total order of `minidx.f32`: every NaN is greatest, and −0 is less than +0 (R317). -/
def fltTotal (a b : Word) : Bool :=
  if (xf a).isNaN then false
  else if (xf b).isNaN then true
  else (xf a).cmp (xf b) < 0 || ((xf a).cmp (xf b) == 0 && (xf a).sign && !(xf b).sign)

/-- The least of a list of values with their lanes; the first of equals stands. -/
def leastOf (lt : Word → Word → Bool) : List (Nat × Word) → Option (Nat × Word)
  | [] => none
  | e :: es =>
    match leastOf lt es with
    | none => some e
    | some r => if lt r.2 e.2 then some r else some e

/-- A NaN is written as the canonical NaN (R263). -/
def nanCanon (x : Word) : Word := if (xf x).isNaN then 0x7FC00000#32 else x

/-- `minidx`: the identity of a lane that does not contribute never wins (R317). -/
def State.minIndex (s : State) (d : BitVec 6) (w : BitVec 1) (a : BitVec 8) (canon : Word → Word)
    (lt : Word → Word → Bool) : State :=
  s.crossLanes fun g m _ l =>
    l.result64 (2 * d.toNat) w
      (match leastOf lt ((contributors g m).map fun e => (e.1, src32 g e.1 e.2 a)) with
       | some (i, x) => BitVec.ofNat 32 i ++ canon x
       | none => 0)

/-- A scan over the lanes below `i + k` (R318). -/
def State.scan (s : State) (d : BitVec 7) (w : BitVec 1) (a : BitVec 8) (k : Nat) (e : Word)
    (f : Word → Word → Word) : State :=
  s.crossLanes fun g m i l =>
    l.result32 d.toNat w
      (((contributors g m).filter fun c => c.1 < i + k).foldl (fun x c => f x (src32 g c.1 c.2 a)) e)

/-- A poll (R319). -/
def State.poll (s : State) (p : BitVec 3) (f : Group → List (Nat × Lane) → Bool) : State :=
  s.crossLanes fun g m _ l => l.resultPred p.toNat (f g (contributors g m))

/-- `xl.pick` (R315). -/
def execXlPick (d : BitVec 7) (w : BitVec 1) (a b : BitVec 8) (s : State) : Out :=
  .next (s.exchange d w a b (fun n _ k => k % n))

/-- `xl.rol` (R315). -/
def execXlRol (d : BitVec 7) (w : BitVec 1) (a b : BitVec 8) (s : State) : Out :=
  .next (s.exchange d w a b (fun n i k => (i + k % n) % n))

/-- `xl.ror` (R315). -/
def execXlRor (d : BitVec 7) (w : BitVec 1) (a b : BitVec 8) (s : State) : Out :=
  .next (s.exchange d w a b (fun n i k => (i + n - k % n) % n))

/-- `xl.bfly` (R315). -/
def execXlBfly (d : BitVec 7) (w : BitVec 1) (a b : BitVec 8) (s : State) : Out :=
  .next (s.exchange d w a b (fun n i k => i ^^^ (k % n)))

/-- `red.add.b32` (R316). -/
def execRedAddB32 (d : BitVec 7) (w : BitVec 1) (a : BitVec 8) (s : State) : Out :=
  .next (s.reduce d w a fun vs => vs.foldl (fun x y => x + y) 0x00000000#32)

/-- `red.min.i32` (R316). -/
def execRedMinI32 (d : BitVec 7) (w : BitVec 1) (a : BitVec 8) (s : State) : Out :=
  .next (s.reduce d w a fun vs => vs.foldl (minS) 0x7FFFFFFF#32)

/-- `red.max.i32` (R316). -/
def execRedMaxI32 (d : BitVec 7) (w : BitVec 1) (a : BitVec 8) (s : State) : Out :=
  .next (s.reduce d w a fun vs => vs.foldl (maxS) 0x80000000#32)

/-- `red.min.n32` (R316). -/
def execRedMinN32 (d : BitVec 7) (w : BitVec 1) (a : BitVec 8) (s : State) : Out :=
  .next (s.reduce d w a fun vs => vs.foldl (minU) 0xFFFFFFFF#32)

/-- `red.max.n32` (R316). -/
def execRedMaxN32 (d : BitVec 7) (w : BitVec 1) (a : BitVec 8) (s : State) : Out :=
  .next (s.reduce d w a fun vs => vs.foldl (maxU) 0x00000000#32)

/-- `red.and.b32` (R316). -/
def execRedAndB32 (d : BitVec 7) (w : BitVec 1) (a : BitVec 8) (s : State) : Out :=
  .next (s.reduce d w a fun vs => vs.foldl (fun x y => x &&& y) 0xFFFFFFFF#32)

/-- `red.or.b32` (R316). -/
def execRedOrB32 (d : BitVec 7) (w : BitVec 1) (a : BitVec 8) (s : State) : Out :=
  .next (s.reduce d w a fun vs => vs.foldl (fun x y => x ||| y) 0x00000000#32)

/-- `red.xor.b32` (R316). -/
def execRedXorB32 (d : BitVec 7) (w : BitVec 1) (a : BitVec 8) (s : State) : Out :=
  .next (s.reduce d w a fun vs => vs.foldl (fun x y => x ^^^ y) 0x00000000#32)

/-- `red.add.rn.f32`: one rounding of the exact sum, from the identity −0 (R316, R268). -/
def execRedAddF32 (d : BitVec 7) (w : BitVec 1) (a : BitVec 8) (s : State) : Out :=
  .next (s.reduce d w a fun vs =>
    toF32 .ne (vs.foldl (fun x y => x.add false (xf y)) (xf 0x80000000#32)))

/-- `red.min.f32` (R316). -/
def execRedMinF32 (d : BitVec 7) (w : BitVec 1) (a : BitVec 8) (s : State) : Out :=
  .next (s.reduce d w a fun vs => vs.foldl (fminmax false) 0x7FC00000#32)

/-- `red.max.f32` (R316). -/
def execRedMaxF32 (d : BitVec 7) (w : BitVec 1) (a : BitVec 8) (s : State) : Out :=
  .next (s.reduce d w a fun vs => vs.foldl (fminmax true) 0x7FC00000#32)

/-- `minidx.n32` (R317). -/
def execMinidxN32 (d : BitVec 6) (w : BitVec 1) (a : BitVec 8) (s : State) : Out :=
  .next (s.minIndex d w a id ltU)

/-- `minidx.i32` (R317). -/
def execMinidxI32 (d : BitVec 6) (w : BitVec 1) (a : BitVec 8) (s : State) : Out :=
  .next (s.minIndex d w a id ltS)

/-- `minidx.f32`: a NaN result is the canonical NaN (R317). -/
def execMinidxF32 (d : BitVec 6) (w : BitVec 1) (a : BitVec 8) (s : State) : Out :=
  .next (s.minIndex d w a nanCanon fltTotal)

/-- `scan.incl.add.b32` (R318). -/
def execScanInclAddB32 (d : BitVec 7) (w : BitVec 1) (a : BitVec 8) (s : State) : Out :=
  .next (s.scan d w a 1 0#32 fun x y => x + y)

/-- `scan.excl.add.b32` (R318). -/
def execScanExclAddB32 (d : BitVec 7) (w : BitVec 1) (a : BitVec 8) (s : State) : Out :=
  .next (s.scan d w a 0 0#32 fun x y => x + y)

/-- `scan.incl.max.i32` (R318). -/
def execScanInclMaxI32 (d : BitVec 7) (w : BitVec 1) (a : BitVec 8) (s : State) : Out :=
  .next (s.scan d w a 1 0x80000000#32 maxS)

/-- `scan.incl.min.i32` (R318). -/
def execScanInclMinI32 (d : BitVec 7) (w : BitVec 1) (a : BitVec 8) (s : State) : Out :=
  .next (s.scan d w a 1 0x7FFFFFFF#32 minS)

/-- `poll.all` (R319). -/
def execPollAll (p a : BitVec 3) (s : State) : Out :=
  .next (s.poll p fun _ ls => ls.all fun e => e.2.pred a.toNat)

/-- `poll.any` (R319). -/
def execPollAny (p a : BitVec 3) (s : State) : Out :=
  .next (s.poll p fun _ ls => ls.any fun e => e.2.pred a.toNat)

/-- `poll.mask` (R319). -/
def execPollMask (d : BitVec 6) (w : BitVec 1) (a : BitVec 3) (s : State) : Out :=
  .next (s.crossLanes fun g m _ l =>
    l.result64 (2 * d.toNat) w (g.maskOf fun i k => (contributing g m).getLsbD i && k.pred a.toNat))

/-- `poll.same` (R319). -/
def execPollSame (p : BitVec 3) (a : BitVec 8) (s : State) : Out :=
  .next (s.poll p fun g ls =>
    match ls with
    | [] => true
    | (i, l) :: _ => ls.all fun e => src32 g e.1 e.2 a == src32 g i l a)

end Sys2Proof.Machine
end

