-- ==== Sys2Proof/Machine/StileTypes.lean ====
section
/-! DEFINITION. What the Stile knows of a kernel (R222 to R231): types, symbols, facts and their entailment, the block
table, and the state of the walk at one point. -/

namespace Sys2Proof.Machine.Stile

/-! ### Rejections (R253) -/

/-- A rejection: the rule's number and the fields of the result record that it gives. -/
structure Fail where
  rule : Nat
  block : Option Nat := none
  offset : Option Nat := none
  reg : Option Nat := none
  regKind : Option Nat := none
  word : Option Nat := none
  expect : Option Nat := none
  found : Option Nat := none
  fact : Option Nat := none
  target : Option Nat := none
  deriving DecidableEq, Repr

/-- The result of a check. -/
abbrev Chk := Except Fail

/-- Passes when the condition holds. -/
def must (ok : Bool) (f : Fail) : Chk Unit := if ok then .ok () else .error f

/-- A rejection lies at a place unless it already names one. -/
def Fail.place (f : Fail) (block : Option Nat) (offset word : Nat) : Fail :=
  { f with block := f.block <|> block, offset := f.offset <|> some offset, word := f.word <|> some word }

/-- Adds the place of a rejection. -/
def located (block : Option Nat) (offset word : Nat) (x : Chk α) : Chk α :=
  match x with
  | .error f => .error (f.place block offset word)
  | .ok a => .ok a

/-! ### Types (R225, R226) -/

/-- A type; a register without one is dead. -/
inductive Ty where
  | i8 | i32 | n32 | i64 | n64 | b32 | b64
  | f32 | f16 | bf16 | f16x2 | bf16x2 | f8a | f8b | f4 | q8 | q4
  | pred
  | code
  | lock (l : Nat)
  /-- log2 of the width, and the region -/
  | ptr (w : Nat) (region : Nat)
  /-- by its format code (R351) -/
  | tile (fmt : Nat)
  deriving DecidableEq, Repr

/-- Format of a tile of a format code. -/
def tileFormat (fmt : Nat) : Nat :=
  [0x2001, 0x1002, 0x2002, 0x2003, 0x2006, 0x2007, 0x1001, 0x2009, 0x2008, 0x200A].getD fmt 0
/-- Shape code of a tile: 32x32, 32x64, 32x128, 16x32. -/
def tileShape (fmt : Nat) : Nat := if fmt < 2 then 3 else if fmt < 4 then 0 else if fmt < 8 then 1 else 2
def tileRowsOf (fmt : Nat) : Nat := if fmt < 2 then 16 else 32
def tileKOf (fmt : Nat) : Nat := if fmt < 4 then 32 else if fmt < 8 then 64 else 128
def tileRowBytes (fmt : Nat) : Nat := if fmt < 2 then 128 else 64

/-- The type code (R226). -/
def Ty.code16 : Ty → Nat
  | .i8 => 0x1001 | .i32 => 0x1002 | .n32 => 0x1003 | .i64 => 0x1004 | .n64 => 0x1005 | .b32 => 0x1006 | .b64 => 0x1007
  | .f32 => 0x2001 | .f16 => 0x2002 | .bf16 => 0x2003 | .f16x2 => 0x2004 | .bf16x2 => 0x2005 | .f8a => 0x2006
  | .f8b => 0x2007 | .f4 => 0x2008 | .q8 => 0x2009 | .q4 => 0x200A
  | .pred => 0x3000
  | .code => 0x4000
  | .lock l => 0x5000 + l
  | .ptr w r => 0x6000 + 256 * w + r
  | .tile t => 0x7000 + 256 * tileShape t + 16 * (tileFormat t / 4096) + tileFormat t % 16

/-- The code of a register's type, dead included. -/
def codeOfTy : Option Ty → Nat
  | none => 0
  | some t => t.code16

/-- The 64-bit types, which occupy a vector pair. -/
def Ty.wide : Ty → Bool
  | .i64 | .n64 | .b64 | .code | .lock _ | .ptr _ _ => true
  | _ => false

/-- A type may stand where another is required (R225). -/
def Ty.stands (t u : Ty) : Bool :=
  match t, u with
  | .ptr w r, .ptr w' r' => r == r' && decide (w' ≤ w)
  | t, u => t == u

/-- Every type but locks, pointers and tiles. -/
def plainTypes : List Ty :=
  [.i8, .i32, .n32, .i64, .n64, .b32, .b64, .f32, .f16, .bf16, .f16x2, .bf16x2, .f8a, .f8b, .f4, .q8, .q4, .pred, .code]

/-- The type of a code with the numbers of regions and locks that the kernel declares; none for a code that names an
undeclared one or is reserved. -/
def tyOfCode (regions locks code : Nat) : Option (Option Ty) :=
  if code = 0 then some none
  else
    match plainTypes.find? fun t => t.code16 == code with
    | some t => some (some t)
    | none =>
      match ((List.range 10).map Ty.tile).find? fun t => t.code16 == code with
      | some t => some (some t)
      | none =>
        if code / 4096 = 5 ∧ code % 4096 < locks then some (some (.lock (code % 4096)))
        else if code / 4096 = 6 ∧ code / 256 % 16 ≤ 4 ∧ code / 16 % 16 = 0 ∧ code % 16 < regions then
          some (some (.ptr (code / 256 % 16) (code % 16)))
        else none

/-- The integer types. -/
def Ty.isInt : Ty → Bool
  | .i8 | .i32 | .n32 | .i64 | .n64 | .b32 | .b64 => true
  | _ => false

/-- The types whose registers carry integer facts (R227). -/
def Ty.hasFacts : Ty → Bool
  | .i8 | .i32 | .n32 | .i64 | .n64 => true
  | _ => false

/-- Range of the integer types of the add rows of R230. -/
def Ty.range : Ty → Option (Int × Int)
  | .i32 => some (-(2 ^ 31), 2 ^ 31 - 1)
  | .n32 => some (0, 2 ^ 32 - 1)
  | .i64 => some (-(2 ^ 63), 2 ^ 63 - 1)
  | .n64 => some (0, 2 ^ 64 - 1)
  | _ => none

/-! ### Registers, symbols and facts (R224, R227) -/

/-- A register: vector, scalar, predicate or handle. -/
inductive Reg where
  | v (n : Nat)
  | s (n : Nat)
  | p (n : Nat)
  | h (n : Nat)
  deriving DecidableEq, Repr

/-- REGKIND and the number that the result record gives (R253). -/
def Reg.inRecord : Reg → Nat × Nat
  | .v n => (0, n)
  | .s n => (0, 0xC0 + n)
  | .p n => (1, n)
  | .h n => (2, n)

/-- A rejection that names a register. -/
def Fail.ofReg (rule : Nat) (r : Reg) : Fail :=
  { rule := rule, reg := some r.inRecord.2, regKind := some r.inRecord.1 }

/-- A rejection that names a lock. -/
def Fail.ofLock (rule l : Nat) : Fail := { rule := rule, reg := some l, regKind := some 3 }

inductive Sym where
  | zero
  | vreg (n : Nat)
  | sreg (n : Nat)
  | len (region : Nat)
  | laneId
  | gsize
  | roleRank
  | teamId
  | pass
  deriving DecidableEq, Repr

/-- The symbol of a register. -/
def Reg.sym : Reg → Option Sym
  | .v n => some (.vreg n)
  | .s n => some (.sreg n)
  | _ => none

inductive Fact where
  /-- `a − b ≤ c` -/
  | diff (a b : Sym) (c : Int)
  /-- `r = base(region) + w·b + c` -/
  | affine (r : Reg) (region w : Nat) (b : Sym) (c : Int)
  deriving DecidableEq, Repr

/-- A register appears in a fact. -/
def Fact.names (f : Fact) (r : Reg) : Bool :=
  match f with
  | .diff a b _ => r.sym == some a || r.sym == some b
  | .affine q _ _ b _ => q == r || r.sym == some b

/-- `pass` appears in a fact. -/
def Fact.namesPass : Fact → Bool
  | .diff a b _ => a == .pass || b == .pass
  | .affine _ _ _ b _ => b == .pass

/-- A symbol in place of `pass`. -/
def Sym.at0 (x : Sym) : Sym := if x = .pass then .zero else x

/-- A loop's fact with 0 in place of `pass` (R248). -/
def Fact.atEntry : Fact → Fact
  | .diff a b c => .diff a.at0 b.at0 c
  | .affine r g w b c => .affine r g w b.at0 c

/-- A loop's fact with `pass` + 1 in place of `pass` (R248). -/
def Fact.atEnd : Fact → Fact
  | .diff a b c => .diff a b (c + (if b = .pass then 1 else 0) - (if a = .pass then 1 else 0))
  | .affine r g w b c => .affine r g w b (if b = .pass then c + w else c)

/-- A predicate's relation: the facts when it is 1 and when it is 0 (R230). -/
structure Rel where
  yes : List Fact
  no : List Fact
  deriving DecidableEq, Repr

def Rel.pick (r : Rel) (neg : Bool) : List Fact := if neg then r.no else r.yes

/-! ### The block table (R222 to R224) -/

/-- An entry of the block table with its items. -/
structure Entry where
  idx : Nat
  off : Nat
  loop : Bool
  epi : Nat
  lockset : BitVec 8
  budget : Nat
  types : List (Reg × Option Ty)
  facts : List Fact
  deriving DecidableEq, Repr

/-- Handles that an entry types. -/
def Entry.handles (e : Entry) : List Reg :=
  e.types.filterMap fun t =>
    match t with
    | (.h n, some _) => some (.h n)
    | _ => none

/-- A clause of the kernel: its offset from the first code byte, its header and words, and its instructions, each with
the number of its first word after the header. -/
structure Clause where
  off : Nat
  hdr : Word
  words : List Word
  instrs : List (Nat × Except Reject Instr)
  deriving DecidableEq, Repr

def Clause.next (c : Clause) : Nat := c.off + 4 * (1 + c.words.length)
def Clause.unguarded (c : Clause) : Bool := hdrPred c.hdr == 7 && !hdrNeg c.hdr
/-- The last instruction. -/
def Clause.last (c : Clause) : Option (Nat × Instr) :=
  match c.instrs.getLast? with
  | some (k, .ok i) => some (k, i)
  | _ => none

/-- A kernel as the Stile reads it. -/
structure Kern where
  header : BitVec 512
  entries : List Entry
  clauses : List Clause
  priv : Bool
  feat : BitVec 256
  /-- virtual address of the first code byte -/
  code : DWord
  deriving DecidableEq, Repr

def Kern.width (k : Kern) : Nat := widthOf (bhWidth k.header)
def Kern.regions (k : Kern) : Nat := bhNRegion k.header
def Kern.locks (k : Kern) : Nat := bhNLock k.header
def Kern.rights (k : Kern) (j : Nat) : BitVec 8 := if j < k.regions then bhRights k.header j else 0
/-- Guarded region and scope of a lock. -/
def Kern.lockRegion (k : Kern) (l : Nat) : Nat := fldN (bhLockDecl k.header l) 0 4
def Kern.lockScope (k : Kern) (l : Nat) : Nat := fldN (bhLockDecl k.header l) 4 3
/-- The roles of the header. -/
def Kern.roles (k : Kern) : List (Nat × Nat × Nat × Nat) := (List.range (bhNRole k.header)).map (roleOf (bhRoles k.header))
def Kern.minBudget (k : Kern) : Nat := (k.roles.map fun r => r.2.2.1).foldl min 128

def Kern.clause (k : Kern) (off : Nat) : Option Clause := k.clauses.find? fun c => c.off == off
def Kern.blocks (k : Kern) : List Entry := k.entries.filter fun e => !e.loop
def Kern.block (k : Kern) (off : Nat) : Option Entry := k.blocks.find? fun e => e.off == off
def Kern.loopEntry (k : Kern) (off : Nat) : Option Entry := k.entries.find? fun e => e.loop && e.off == off
/-- A clause header with BSTART lies at an offset. -/
def Kern.startsAt (k : Kern) (off : Nat) : Bool :=
  match k.clause off with
  | some c => hdrBstart c.hdr
  | none => false

/-- The entry block of a role. -/
def Kern.roleEntry (k : Kern) (r : Nat × Nat × Nat × Nat) : Option Entry := k.entries.find? fun e => e.idx == r.1 && !e.loop

/-! ### What is known at one point of the walk (R227 to R230, R243) -/

/-- A pending mark: its counter, and for c0 how many c0-counted instructions came before. -/
structure Mark where
  counter : Nat
  seq : Nat
  deriving DecidableEq, Repr

/-- What a bypass latch holds: a whole 32-bit result, or the low or high half of a 64-bit one (R191). -/
inductive LatchTy where
  | whole (t : Ty)
  | low (t : Ty)
  | high (t : Ty)
  deriving DecidableEq, Repr

structure Know where
  types : List (Reg × Ty)
  /-- facts besides the standing ones, the earliest first -/
  facts : List Fact
  /-- the relation of the clause's guard, or of the edge (R233, R234) -/
  given : List Fact
  /-- in a loop body, the greatest value of `pass` -/
  passMax : Option Int
  aligns : List (Reg × Nat)
  rels : List (Nat × Rel)
  locks : BitVec 8
  budget : Nat
  marks : List (Reg × Mark)
  latches : List (Option LatchTy)
  deriving DecidableEq, Repr

/-- What the walk has recorded so far. -/
structure Seen where
  /-- largest minimum length of each region, in bytes (R237) -/
  minLen : List (Nat × Nat)
  /-- minimum stash, in bytes (R239) -/
  stashMin : Nat
  /-- warnings, as rule numbers (R249) -/
  warns : List Nat
  /-- c0-counted instructions so far (R243) -/
  c0 : Nat
  deriving DecidableEq, Repr

/-- The walk at one point. -/
structure Walk where
  k : Know
  seen : Seen
  /-- registers that the clause has written (R234) -/
  touched : List Reg
  deriving DecidableEq, Repr

def noLatches : List (Option LatchTy) := [none, none, none, none]

def Know.empty : Know :=
  { types := [], facts := [], given := [], passMax := none, aligns := [], rels := [], locks := 0, budget := 16, marks := [], latches := noLatches }

/-- Type of a register; `p7` always holds a predicate. -/
def Know.ty (k : Know) (r : Reg) : Option Ty :=
  if r = .p 7 then some .pred
  else
    match k.types.find? fun e => e.1 == r with
    | some e => some e.2
    | none => none
def Know.align (k : Know) (r : Reg) : Nat :=
  match k.aligns.find? fun e => e.1 == r with
  | some e => e.2
  | none => 1
def Know.rel (k : Know) (p : Nat) : Option Rel :=
  match k.rels.find? fun e => e.1 == p with
  | some e => some e.2
  | none => none
def Know.marked (k : Know) (r : Reg) : Bool := k.marks.any fun e => e.1 == r
/-- Registers that hold a handle. -/
def Know.handles (k : Know) : List Reg :=
  k.types.filterMap fun e =>
    match e with
    | (.h n, _) => some (.h n)
    | _ => none

/-- The standing facts (R227), with those of `pass` in a loop body (R248): the constant for an ordered pair. -/
def Kern.standing (g : Kern) (k : Know) (a b : Sym) : Option Int :=
  match a, b with
  | .zero, .laneId => some 0
  | .laneId, .zero => some (g.width - 1)
  | .zero, .gsize => some (-g.width)
  | .gsize, .zero => some g.width
  | .zero, .roleRank => some 0
  | .roleRank, .zero => some 15
  | .zero, .teamId => some 0
  | .zero, .len j => if j < g.regions then some (-128) else none
  | .len j, .zero => if j < g.regions then some (2 ^ 55) else none
  | .zero, .pass => if k.passMax.isSome then some 0 else none
  | .pass, .zero => k.passMax
  | _, _ => none

/-- The tighter of two constants that may be known. -/
def tighter (x y : Option Int) : Option Int :=
  match x, y with
  | some c, some d => some (min c d)
  | some c, none => some c
  | none, d => d

/-- The facts of a point besides the standing ones. -/
def Know.all (k : Know) : List Fact := k.facts ++ k.given

/-- The tightest constant known for a pair of symbols. -/
def Kern.bound (g : Kern) (k : Know) (a b : Sym) : Option Int :=
  k.all.foldl (fun best f =>
    match f with
    | .diff x y c => if x == a && y == b then tighter best (some c) else best
    | .affine .. => best) (g.standing k a b)

/-- A constant upper bound of a symbol. -/
def Kern.upper (g : Kern) (k : Know) (a : Sym) : Option Int := if a = .zero then some 0 else g.bound k a .zero
/-- A constant `c` with `0 − a ≤ c`. -/
def Kern.lower (g : Kern) (k : Know) (a : Sym) : Option Int := if a = .zero then some 0 else g.bound k .zero a

/-- ENTAILMENT (R229): one lookup, never a combination of facts. -/
def Kern.entails (g : Kern) (k : Know) (f : Fact) : Bool :=
  match f with
  | .diff a b c =>
    (a == b && decide (0 ≤ c)) || (match g.bound k a b with
      | some d => decide (d ≤ c)
      | none => false)
  | f => k.all.contains f

/-! ### Adding and removing facts (R228, R230) -/

/-- The constant of a pair that is present becomes the smaller. -/
def tighten (a b : Sym) (c : Int) (f : Fact) : Fact :=
  match f with
  | .diff x y d => if x = a ∧ y = b then .diff x y (min c d) else f
  | .affine .. => f

/-- The pair of a difference fact, or the whole of an affine fact, is present. -/
def Fact.sameAs (f e : Fact) : Bool :=
  match f, e with
  | .diff a b _, .diff x y _ => a == x && b == y
  | f, e => f == e

/-- Adds a fact; a full set drops the earliest and records ST-902. -/
def Walk.add (w : Walk) (f : Fact) : Walk :=
  if w.k.facts.any f.sameAs then
    match f with
    | .diff a b c => { w with k := { w.k with facts := w.k.facts.map (tighten a b c) } }
    | .affine .. => w
  else if w.k.facts.length < 256 then { w with k := { w.k with facts := w.k.facts ++ [f] } }
  else { w with k := { w.k with facts := w.k.facts.drop 1 ++ [f] }, seen := { w.seen with warns := w.seen.warns ++ [902] } }

def Walk.addAll (w : Walk) (fs : List Fact) : Walk := fs.foldl Walk.add w

/-- Removes what names a register: facts, its alignment and predicate relations (R230). -/
def Know.forget (k : Know) (r : Reg) : Know :=
  { k with facts := k.facts.filter fun f => !f.names r,
           given := k.given.filter fun f => !f.names r,
           aligns := k.aligns.filter fun e => e.1 != r,
           rels := k.rels.filter fun e => !(r == .p e.1 || (e.2.yes ++ e.2.no).any fun f => f.names r) }

/-- Gives a register a type, or makes it dead. -/
def Know.setTy (k : Know) (r : Reg) (t : Option Ty) : Know :=
  { k with types := (k.types.filter fun e => e.1 != r) ++ (match t with
      | some t => [(r, t)]
      | none => []) }

def Know.setAlign (k : Know) (r : Reg) (a : Nat) : Know := { k with aligns := (k.aligns.filter fun e => e.1 != r) ++ [(r, a)] }
def Know.setRel (k : Know) (p : Nat) (x : Rel) : Know := { k with rels := (k.rels.filter fun e => e.1 != p) ++ [(p, x)] }

/-- The vector registers whose value a write to some of them ends: the pair that the register is half of included. -/
def Know.ended (k : Know) (d n : Nat) : List Reg :=
  let own := (List.range n).map fun i => Reg.v (d + i)
  if d % 2 = 1 ∧ (k.ty (.v (d - 1))).any Ty.wide then .v (d - 1) :: own
  else if n = 1 ∧ (k.ty (.v d)).any Ty.wide then own ++ [.v (d + 1)]
  else own

/-- A write of a register removes what was known of it (R230). -/
def Know.clear (k : Know) (rs : List Reg) : Know := rs.foldl (fun k r => (k.forget r).setTy r none) k

/-- The relation of a compare is known of a predicate, or nothing is. -/
def Know.setPred (k : Know) (p : Nat) (rel : Option Rel) : Know :=
  if p = 7 then k
  else
    let k := (k.forget (.p p)).setTy (.p p) (some .pred)
    match rel with
    | some r => k.setRel p r
    | none => k

end Sys2Proof.Machine.Stile
end

