-- ==== Sys2Proof/Machine/StileRules.lean ====
section
/-! DEFINITION. The typing rules of the Stile (R235 to R244 and the rules that the instruction chapters give): what each
instruction reads, what the rule of its class requires, and what is known after it. -/

namespace Sys2Proof.Machine.Stile

/-! ### What an instruction accepts as a source -/

/-- The types that a source accepts. -/
structure Want where
  types : List Ty := []
  ptr : Bool := false
  lock : Bool := false
  any : Bool := false
  deriving DecidableEq, Repr

def Want.takes (x : Want) (t : Ty) : Bool :=
  x.any || x.types.contains t || (match t with
    | .ptr _ _ => x.ptr
    | .lock _ => x.lock
    | _ => false)

/-- EXPECT of a rejection: the first type accepted, or any pointer or lock. -/
def Want.expect (x : Want) : Nat :=
  match x.types with
  | t :: _ => t.code16
  | [] => if x.ptr then 0x6FFF else 0x5FFF

/-- A source of an instruction: its field (0 D, 1 SA, 2 SB, 3 another), its selector, whether it reads 64 bits, and the
types accepted. Predicate `n` stands as 0x100 + `n`. -/
structure Src where
  slot : Nat
  sel : Nat
  wide : Bool
  want : Want
  deriving DecidableEq, Repr

/-- The register that a selector names. -/
def regOf (sel : Nat) : Option Reg :=
  if sel < 0x80 then some (.v sel)
  else if sel < 0xC0 then none
  else if sel < 0x100 then some (.s (sel - 0xC0))
  else some (.p (sel - 0x100))

/-- A rejection that names a source. -/
def failAt (rule sel : Nat) : Fail :=
  match regOf sel with
  | some r => Fail.ofReg rule r
  | none => { rule := rule, reg := some sel, regKind := some 0 }

/-! ### Constants (R231) and latches (R191) -/

/-- The largest power of two up to 16 that divides a value. -/
def pow2Of (k : Int) : Nat :=
  if k % 16 = 0 then 16 else if k % 8 = 0 then 8 else if k % 4 = 0 then 4 else if k % 2 = 0 then 2 else 1

/-- The integer value of a constant selector other than `%lane`, `%gsize` and all ones. -/
def constValue (sel : Nat) : Option Int :=
  if sel = 0x84 then some 0
  else if 0x90 ≤ sel ∧ sel ≤ 0xAF then some (sel - 0x90)
  else if 0xB0 ≤ sel ∧ sel ≤ 0xBF then some ((sel : Int) - 0xC0)
  else none

/-- The types that a constant is accepted at. -/
def constTypes (sel : Nat) (wide : Bool) : List Ty :=
  if sel = 0x84 then if wide then [.i64, .n64, .b64] else [.i32, .n32, .i8, .b32, .f32, .f16x2, .bf16x2]
  else if sel = 0x85 ∨ sel = 0x86 then if wide then [.n64, .i64, .b64] else [.n32, .i32, .b32]
  else if sel = 0x87 then if wide then [.b64, .i64] else [.n32, .b32, .i32]
  else if sel ≤ 0x8F then if wide then [] else [.f32, .b32]
  else if sel ≤ 0xAF then if wide then [.i64, .n64, .b64] else [.i32, .n32, .i8, .b32]
  else if wide then [.i64, .b64] else [.i32, .i8, .b32]

/-- The symbol and constant that a constant stands as. -/
def constSym (sel : Nat) : Option (Sym × Int) :=
  if sel = 0x85 then some (.laneId, 0)
  else if sel = 0x86 then some (.gsize, 0)
  else (constValue sel).map fun v => (.zero, v)

def constAlign (g : Kern) (sel : Nat) : Nat :=
  if sel = 0x86 then min g.width 16
  else match constValue sel with
    | some v => pow2Of v
    | none => 1

/-- The type of the value in a latch position: none where it holds no value, and no type where a pair of positions does not
hold one 64-bit result. -/
def Know.latchTy (k : Know) (sel : Nat) (wide : Bool) : Option (Option Ty) :=
  let place := fun (i : Nat) => (k.latches[i]?).join
  match place (sel - 0x80), wide with
  | none, _ => none
  | some (.whole t), false => some (some t)
  | some (.low t), false => some (some t)
  | some (.high t), false => some (some t)
  | some (.low t), true =>
    match place (sel - 0x7F) with
    | some (.high u) => some (if t = u then some t else none)
    | some _ => some none
    | none => none
  | some _, true => some none

/-- The type of a source, as the instruction takes it. -/
def Know.srcTy (k : Know) (x : Src) : Option Ty :=
  match regOf x.sel with
  | some r => k.ty r
  | none =>
    if x.sel < 0x84 then (k.latchTy x.sel x.wide).join
    else
      let ts := constTypes x.sel x.wide
      match ts.find? x.want.takes with
      | some t => some t
      | none => ts.head?

/-! ### The first row of R235 -/

def checkAll (xs : List α) (f : α → Chk Unit) : Chk Unit :=
  match xs with
  | [] => .ok ()
  | x :: xs =>
    match f x with
    | .error e => .error e
    | .ok _ => checkAll xs f

def Know.checkLive (k : Know) (x : Src) : Chk Unit :=
  match regOf x.sel with
  | some r => must (k.ty r).isSome (failAt 20 x.sel)
  | none => must (decide (0x84 ≤ x.sel) || (k.latchTy x.sel x.wide).isSome) (failAt 7 x.sel)

def Know.checkBudget (k : Know) (x : Src) : Chk Unit :=
  must (decide (0x80 ≤ x.sel) || decide (x.sel + (if x.wide then 1 else 0) < k.budget)) (failAt 22 x.sel)

def Know.checkMark (k : Know) (x : Src) : Chk Unit :=
  match regOf x.sel with
  | some (.v n) => must (!(k.marked (.v n) || (x.wide && k.marked (.v (n + 1))))) (failAt 42 x.sel)
  | some r => must (!k.marked r) (failAt 42 x.sel)
  | none => .ok ()

def Know.checkType (k : Know) (x : Src) : Chk Unit :=
  match k.srcTy x with
  | some t => must (x.want.takes t) { failAt 21 x.sel with expect := some x.want.expect, found := some t.code16 }
  | none => .error { failAt 21 x.sel with expect := some x.want.expect, found := some 0 }

/-- ST-020, ST-022, ST-042 and ST-021, each over every source. -/
def Know.firstRow (k : Know) (xs : List Src) : Chk Unit := do
  checkAll xs k.checkLive
  checkAll xs k.checkBudget
  checkAll xs k.checkMark
  checkAll xs k.checkType

/-! ### Operands -/

/-- An operand as a rule sees it. -/
structure Opnd where
  sel : Nat
  reg : Option Reg
  ty : Ty
  sym : Option (Sym × Int)
  align : Nat
  /-- a stepped field: no fact applies to it (R248) -/
  hidden : Bool
  deriving DecidableEq, Repr

def Opnd.none : Opnd := { sel := 0x84, reg := Option.none, ty := .i32, sym := some (.zero, 0), align := 16, hidden := false }

def Kern.opnd (g : Kern) (k : Know) (hidden : List Nat) (x : Src) : Opnd :=
  let t := (k.srcTy x).getD .pred
  match regOf x.sel with
  | some r =>
    let h := hidden.contains x.slot
    { sel := x.sel, reg := some r, ty := t, sym := if h || !t.hasFacts then Option.none else r.sym.map fun y => (y, 0),
      align := if h then 1 else k.align r, hidden := h }
  | Option.none =>
    { sel := x.sel, reg := Option.none, ty := t, sym := if 0x84 ≤ x.sel ∧ t.hasFacts then constSym x.sel else Option.none,
      align := if 0x84 ≤ x.sel then constAlign g x.sel else 1, hidden := false }

/-- An immediate of an integer value. -/
def immOpnd (v : Int) : Opnd := { sel := 0x84, reg := Option.none, ty := .i32, sym := some (.zero, v), align := pow2Of v, hidden := false }

def Opnd.fail (o : Opnd) (rule : Nat) : Fail := failAt rule o.sel

/-- The literal value of an operand. -/
def Opnd.literal (o : Opnd) : Option Int :=
  match o.sym with
  | some (.zero, v) => some v
  | _ => Option.none

/-- Log2 of the width, and the region, of a pointer. -/
def Opnd.ptr (o : Opnd) : Nat × Nat :=
  match o.ty with
  | .ptr w r => (w, r)
  | _ => (0, 0)

/-- The affine facts of a pointer in its region: stride, symbol and constant. -/
def Know.affines (k : Know) (o : Opnd) : List (Nat × Sym × Int) :=
  if o.hidden then []
  else k.all.filterMap fun f =>
    match f with
    | .affine r g w b c => if some r == o.reg && g == o.ptr.2 then some (w, b, c) else Option.none
    | .diff .. => Option.none

/-- The greatest value of an operand, where the set holds a constant bound. -/
def Kern.greatest (g : Kern) (k : Know) (o : Opnd) : Option Int :=
  match o.sym with
  | some (x, v) => (g.upper k x).map fun u => u + v
  | Option.none => Option.none

/-! ### The surroundings of an instruction -/

structure Ctx where
  g : Kern
  /-- in an epilogue (R381) -/
  epi : Bool
  /-- roles that reach the block (R509) -/
  roles : List (Nat × Nat × Nat × Nat)
  /-- offset of the clause that follows -/
  next : Nat
  guarded : Bool
  /-- stepped fields of the instruction, by slot -/
  hidden : List Nat
  /-- offsets of the landing blocks, and the landing annotation (R246) -/
  landing : List Nat
  landAnn : Option Entry
  deriving DecidableEq, Repr

/-! ### Edges (R233) -/

def Know.checkItem (k : Know) (rule : Nat) (target : Nat) (x : Nat × Reg × Option Ty) : Chk Unit :=
  let t := k.ty x.2.1
  let ok := match t, x.2.2 with
    | none, none => true
    | some t, some u => t.stands u
    | _, _ => false
  must ok { Fail.ofReg rule x.2.1 with expect := some (codeOfTy x.2.2), found := some (codeOfTy t), fact := some x.1, target := some target }

def Kern.checkFact (g : Kern) (k : Know) (rule : Nat) (target : Nat) (x : Nat × Fact) : Chk Unit :=
  must (g.entails k x.2) { rule := rule, fact := some x.1, target := some target }

/-- The lowest lock in which two lock sets differ. -/
def lockDiff (a b : BitVec 8) : Nat := ((List.range 8).find? fun i => a.getLsbD i != b.getLsbD i).getD 0

/-- The items of an annotation: types, then facts. -/
def Kern.checkItems (g : Kern) (k : Know) (rt rf target : Nat) (types : List (Reg × Option Ty)) (facts : List Fact) : Chk Unit := do
  checkAll ((List.range types.length).zip types) (k.checkItem rt target)
  checkAll ((List.range facts.length).zip facts) fun x => g.checkFact k rf target (types.length + x.1, x.2)

/-- The lock set, the handles and the budget of an annotation. -/
def Know.checkRest (k : Know) (e : Entry) : Chk Unit := do
  must (k.locks == e.lockset) { Fail.ofLock 27 (lockDiff k.locks e.lockset) with target := some e.off }
  match (k.handles.find? fun h => !e.handles.contains h) <|> (e.handles.find? fun h => !k.handles.contains h) with
  | some h => .error { Fail.ofReg 28 h with target := some e.off }
  | none => must (decide (e.budget ≤ k.budget)) { rule := 33, target := some e.off }

/-- The checks of an edge on a state, marks apart. -/
def Kern.edge (g : Kern) (k : Know) (e : Entry) : Chk Unit := do
  g.checkItems k 31 32 e.off e.types e.facts
  k.checkRest e

def passes (x : Chk Unit) : Bool :=
  match x with
  | .ok _ => true
  | .error _ => false

/-! ### Writes (R230, R234, R243) -/

/-- Marks of registers that an instruction writes. -/
def Know.mark (k : Know) (guarded : Bool) (rs : List Reg) (m : Option Mark) : Know :=
  let old := if guarded then k.marks else k.marks.filter fun e => !rs.contains e.1
  { k with marks := old ++ (match m with
      | some m => rs.map fun r => (r, m)
      | none => []) }

/-- A write of registers: what was known of them goes, and they take their new types. A register that shares a pair with
one of them goes with it. -/
def Walk.write (c : Ctx) (w : Walk) (rs : List Reg) (tys : List (Reg × Ty)) (counter : Option Nat) : Walk :=
  let all := rs.flatMap fun r =>
    match r with
    | .v d => w.k.ended d 1
    | r => [r]
  let m := counter.map fun n => { counter := n, seq := w.seen.c0 : Mark }
  let k := (w.k.clear all).mark c.guarded rs m
  { k := tys.foldl (fun k t => k.setTy t.1 (some t.2)) k,
    seen := if counter = some 0 then { w.seen with c0 := w.seen.c0 + 1 } else w.seen,
    touched := w.touched ++ all }

/-- A run of vector registers. -/
def vregs (d n : Nat) : List Reg := (List.range n).map fun i => .v (d + i)

/-- Values enter the latches, the first into `b0`. -/
def Walk.enter (w : Walk) (ls : List LatchTy) : Walk :=
  { w with k := { w.k with latches := (ls.map some ++ w.k.latches).take 4 } }

def Walk.align (w : Walk) (r : Reg) (a : Option Nat) : Walk :=
  match a with
  | some a => { w with k := w.k.setAlign r a }
  | none => w

/-- A 32-bit vector result. -/
def Walk.res32 (c : Ctx) (w : Walk) (d : Nat) (ws : BitVec 1) (t : Ty) (facts : List Fact := []) (a : Option Nat := none) : Walk :=
  let w := w.enter [.whole t]
  if ws = 1#1 then w else (((w.write c [.v d] [(.v d, t)] none).addAll facts).align (.v d) a)

/-- A 64-bit vector result, to an even register and the next. -/
def Walk.res64 (c : Ctx) (w : Walk) (d : Nat) (ws : BitVec 1) (t : Ty) (facts : List Fact := []) (a : Option Nat := none) : Walk :=
  let w := w.enter [.low t, .high t]
  if ws = 1#1 then w else (((w.write c (vregs d 2) [(.v d, t)] none).addAll facts).align (.v d) a)

def Walk.resPred (w : Walk) (p : Nat) (rel : Option Rel) : Walk :=
  { w with k := w.k.setPred p rel, touched := w.touched ++ [.p p] }

def Walk.resScalar (c : Ctx) (w : Walk) (s : Nat) (t : Ty) (counter : Option Nat := none) : Walk :=
  w.write c [.s s] [(.s s, t)] counter

/-! ### Facts of results (R230) -/

/-- The facts of a symbol, moved to a register and shifted. -/
def Kern.shifted (g : Kern) (k : Know) (x : Sym) (r : Sym) (v : Int) : List Fact :=
  let own := k.all.filterMap fun f =>
    match f with
    | .diff a b c =>
      if a == x && b == x then some (.diff r r c)
      else if a == x && b != r then some (.diff r b (c + v))
      else if b == x && a != r then some (.diff a r (c - v))
      else none
    | .affine q g w b c => if b == x && q.sym != some r then some (.affine q g w r (c - w * v)) else none
  let standing := if x = .zero ∨ x = r then []
    else ((g.standing k x .zero).map fun c => Fact.diff r .zero (c + v)).toList ++
      ((g.standing k .zero x).map fun c => Fact.diff .zero r (c - v)).toList
  let same := if x = r then [] else [Fact.diff r x v, Fact.diff x r (-v)]
  own ++ standing ++ same

/-- Facts and alignment of a copy of an operand into a register. -/
def Kern.copied (g : Kern) (k : Know) (o : Opnd) (d : Reg) : List Fact × Option Nat :=
  let r := (d.sym).getD .zero
  match o.sym with
  | some (.zero, v) => ([.diff r .zero v, .diff .zero r (-v)], some o.align)
  | some (x, _) => (g.shifted k x r 0, some o.align)
  | none => ((k.affines o).map fun a => .affine d o.ptr.2 a.1 a.2.1 a.2.2, if o.reg.isSome then some o.align else none)

/-- Facts of `add` and `sub` of a literal (R230). -/
def Kern.added (g : Kern) (k : Know) (o : Opnd) (t : Ty) (r : Sym) (v : Int) : List Fact :=
  match o.sym, t.range with
  | some (.zero, _), _ => []
  | some (x, _), some (lo, hi) =>
    let ok := if 0 < v then (match g.upper k x with
        | some u => decide (u + v ≤ hi)
        | none => false)
      else if v < 0 then (match g.lower k x with
        | some l => decide (lo ≤ -l + v)
        | none => false)
      else true
    if ok then g.shifted k x r v else []
  | _, _ => []

/-- `a ≤ b + c` of two operands, as a fact between their symbols. -/
def leFact (a b : Sym × Int) (c : Int) : List Fact := [.diff a.1 b.1 (b.2 - a.2 + c)]

/-- The conditions of `setp`. -/
inductive Cond where
  | eq
  | ne
  | lt
  | le
  | gt
  | ge
  deriving DecidableEq, Repr

/-- The relation of a compare, and its negation. -/
def Cond.rel (x : Cond) (a b : Sym × Int) : Rel :=
  let lt := leFact a b (-1)
  let le := leFact a b 0
  let gt := leFact b a (-1)
  let ge := leFact b a 0
  match x with
  | .eq => { yes := le ++ ge, no := [] }
  | .ne => { yes := [], no := le ++ ge }
  | .lt => { yes := lt, no := ge }
  | .le => { yes := le, no := gt }
  | .gt => { yes := gt, no := le }
  | .ge => { yes := ge, no := lt }

/-- Signed types. -/
def Ty.signed : Ty → Bool
  | .i8 | .i32 | .i64 => true
  | _ => false

/-- A value that is known not to be negative. -/
def Kern.nonneg (g : Kern) (k : Know) (o : Opnd) : Bool :=
  match o.sym with
  | some (x, v) => (match g.lower k x with
      | some l => decide (l ≤ v)
      | none => false)
  | none => false

/-- The relation that a compare gives its predicate; an unsigned compare gives one only for values that are known not to be
negative (R230). -/
def Kern.relation (g : Kern) (k : Know) (x : Cond) (unsigned : Bool) (a b : Opnd) : Option Rel :=
  match a.sym, b.sym with
  | some sa, some sb =>
    if !unsigned || (g.nonneg k a && (b.reg.isNone || g.nonneg k b)) then some (x.rel sa sb) else none
  | _, _ => none

/-! ### Accesses (R236 to R240) -/

def rWrite : Nat := 1
def rAtom : Nat := 2
def rEngSrc : Nat := 4
def rEngDst : Nat := 8
def rStash : Nat := 16
def rFlask : Nat := 32

def Kern.checkRights (g : Kern) (p : Opnd) (need : Nat) : Chk Unit :=
  let have' := (g.rights p.ptr.2).toNat % 128
  must ((BitVec.ofNat 7 need &&& ~~~(BitVec.ofNat 7 have')) == 0#7) { p.fail 24 with expect := some need, found := some have' }

/-- The effective facts of an address: stride, symbol and constant. -/
def Know.effective (k : Know) (p : Opnd) (j : Option Opnd) : List (Nat × Sym × Int) :=
  (k.affines p).filterMap fun a =>
    match j with
    | none => some a
    | some j =>
      match j.sym with
      | some (.zero, v) => some (a.1, a.2.1, a.2.2 + v)
      | some (x, _) => if a.2.1 = .zero then some (1, x, a.2.2) else none
      | none => none

def Kern.lowerOk (g : Kern) (k : Know) (off : Int) (a : Nat × Sym × Int) : Bool :=
  match g.lower k a.2.1 with
  | some l => decide (0 ≤ a.2.2 + off - a.1 * l)
  | none => false

def Kern.lenOk (g : Kern) (k : Know) (region : Nat) (off n : Int) (a : Nat × Sym × Int) : Bool :=
  a.1 == 1 && (match g.bound k a.2.1 (.len region) with
    | some u => decide (u + a.2.2 + off + n ≤ 0)
    | none => false)

/-- A minimum length is recorded. -/
def Seen.needLen (s : Seen) (region : Nat) (n : Int) : Seen :=
  { s with minLen := aset s.minLen region (max (alookup s.minLen region 0) n.toNat) }

/-- Bounds (R237); `n` is none where no bound on the length is known. -/
def Kern.checkBounds (g : Kern) (w : Walk) (p : Opnd) (j : Option Opnd) (off : Int) (n : Option Int) : Chk Walk :=
  let bad := ((j.filter fun o => o.reg.isSome).getD p).fail 23
  match n with
  | none => .error bad
  | some n =>
    let fs := (w.k.effective p j).filter (g.lowerOk w.k off)
    if fs.any (g.lenOk w.k p.ptr.2 off n) then .ok w
    else
      match fs.findSome? fun a => (g.upper w.k a.2.1).map fun u => a.1 * u + a.2.2 + off + n with
      | some m => .ok { w with seen := w.seen.needLen p.ptr.2 m }
      | none => .error bad

/-- Alignment (R238). -/
def checkAligned (p : Opnd) (j : Option Opnd) (off : Int) (n : Nat) : Chk Unit :=
  must (2 ^ p.ptr.1 % n == 0 && (match j with
    | some j => j.align % n == 0
    | none => true) && off % n == 0) (p.fail 25)

/-- The lock of a region whose RIGHTS byte has LOCKED set (R240). -/
def Kern.checkLock (g : Kern) (k : Know) (region : Nat) : Chk Unit :=
  if (g.rights region).getLsbD 7 then
    let ls := (List.range g.locks).filter fun l => g.lockRegion l == region
    must (ls.any fun l => k.locks.getLsbD l) (match ls with
      | l :: _ => Fail.ofLock 26 l
      | [] => { rule := 26 })
  else .ok ()

/-- An access: rights, bounds, alignment (where `al` is not 0), lock. -/
def Kern.access (g : Kern) (w : Walk) (p : Opnd) (j : Option Opnd) (off : Int) (n : Option Int) (need al : Nat) : Chk Walk := do
  g.checkRights p need
  let w ← g.checkBounds w p j off n
  if al ≠ 0 then checkAligned p j off al
  g.checkLock w.k p.ptr.2
  return w

/-- A minimum stash is recorded. -/
def Walk.needStash (w : Walk) (n : Nat) : Walk := { w with seen := { w.seen with stashMin := max w.seen.stashMin n } }

/-- A range of the stash quota (R239): at most one part of its address varies. -/
def Kern.stash (g : Kern) (w : Walk) (a : Opnd) (j : Option Opnd) (off n : Int) (al : Nat) : Chk Walk := do
  let parts := a :: j.toList
  let bad := ((parts.filter fun o => o.reg.isSome).getLast?.getD a).fail 35
  let fixed := (parts.filterMap Opnd.literal).sum
  let (x, v) ← match parts.filter fun o => o.literal.isNone with
    | [] => .ok (Sym.zero, 0)
    | [o] => (match o.sym with
        | some s => .ok s
        | none => .error (o.fail 35))
    | _ => .error bad
  match g.lower w.k x, g.upper w.k x with
  | some l, some u =>
    let last := u + v + fixed + off + n
    must (decide (0 ≤ v + fixed + off - l) && decide (last ≤ 262144)) bad
    if al ≠ 0 then must (parts.all (fun o => o.align % al == 0) && off % al == 0) (a.fail 25)
    return w.needStash last.toNat
  | _, _ => .error bad

/-- The buffer that a pointer and the length after it describe (R344, R345): it begins at a constant and ends in its region. -/
def Kern.checkBuffer (g : Kern) (k : Know) (p len : Opnd) : Chk Unit :=
  must ((k.affines p).any fun a => a.1 == 1 && a.2.1 == .zero && (match len.sym with
    | some (x, v) => g.entails k (.diff x (.len p.ptr.2) (-a.2.2 - v))
    | none => false)) (p.fail 23)

/-! ### Tiles (R241, R351, R364, R369) -/

def Know.handle (k : Know) (h : BitVec 5) : Chk Nat :=
  match k.ty (.h h.toNat) with
  | some (.tile t) => .ok t
  | _ => .error (Fail.ofReg 28 (.h h.toNat))

def tileFail (h : BitVec 5) : Fail := Fail.ofReg 29 (.h h.toNat)

/-- A slice of a conversion names a rectangle of the larger tile (R364). -/
def sliceOk (t u slice : Nat) : Bool :=
  let size := fun x => tileRowsOf x * tileKOf x
  let (l, m) := if size u ≤ size t then (t, u) else (u, t)
  tileRowsOf l % tileRowsOf m == 0 && tileKOf l % tileKOf m == 0 &&
    decide (slice < (tileRowsOf l / tileRowsOf m) * (tileKOf l / tileKOf m))

/-- The operand formats of a pass (R369). -/
def passOk (a b slice : Nat) : Bool :=
  let fmt := ([2, 3, 4, 5, 8].contains a && [2, 3, 4, 5, 7, 8, 9].contains b) || (a == 6 && b == 6)
  let k := min (tileKOf a) (tileKOf b)
  fmt && [a, b].all fun x => tileKOf x == k || decide (slice < tileKOf x / k)

/-! ### What each instruction reads and writes -/

def all32 : List Ty := [.i8, .i32, .n32, .b32, .f32, .f16, .bf16, .f16x2, .bf16x2, .f8a, .f8b, .f4, .q8, .q4]
/-- Every 32-bit type but the packed pairs. -/
def single32 : List Ty := all32.filter fun t => t != .f16x2 && t != .bf16x2
def tI32 : List Ty := [.i32, .i8]
def tN32 : List Ty := [.n32]
def tB32 : List Ty := [.i8, .i32, .n32, .b32]
def tI64 : List Ty := [.i64]
def tN64 : List Ty := [.n64]
def tB64 : List Ty := [.i64, .n64, .b64]
def tF32 : List Ty := [.f32, .b32]
def tH2 : List Ty := [.f16x2, .b32]
def tG2 : List Ty := [.bf16x2, .b32]
def tBits : List Ty := [.n32, .b32]
def tInts : List Ty := tB32 ++ tB64
def tToken : List Ty := [.n64, .b64]

def src32 (slot : Nat) (x : BitVec n) (ts : List Ty) : Src := { slot := slot, sel := x.toNat, wide := false, want := { types := ts } }
def src64' (slot : Nat) (x : BitVec n) (ts : List Ty) : Src := { slot := slot, sel := x.toNat, wide := true, want := { types := ts } }
/-- A pointer. -/
def srcPtr (slot : Nat) (x : BitVec n) : Src := { slot := slot, sel := x.toNat, wide := true, want := { ptr := true } }
/-- Any type. -/
def srcAny (slot : Nat) (x : BitVec n) (wide : Bool) : Src := { slot := slot, sel := x.toNat, wide := wide, want := { any := true } }
def srcPred (slot : Nat) (x : BitVec n) : Src := { slot := slot, sel := 0x100 + x.toNat, wide := false, want := { types := [.pred] } }
/-- A pair of vector registers by its half number. -/
def srcPair (slot : Nat) (d : BitVec n) (ts : List Ty) : Src := { slot := slot, sel := 2 * d.toNat, wide := true, want := { types := ts } }
/-- A register so many places above the one that a field names. -/
def srcUp (s : Src) (k : Nat) : Src := { s with sel := s.sel + k }
/-- An integer of a scalar, or a constant read as 64 bits. -/
def srcInt (slot : Nat) (x : BitVec n) : Src := src64' slot x tInts

/-- The index of an address (R322). -/
def srcIdx (b : BitVec 8) (x : XM) : Src :=
  if 0xC0 ≤ b.toNat then src64' 2 b [.i64, .n64] else if x.mode.getLsbD 0 then src32 2 b tI32 else src32 2 b tN32

/-- A source of `chkb` (R298). -/
def srcBound (slot : Nat) (x : BitVec 1) (a : BitVec 8) : Src :=
  if 0x84 ≤ a.toNat then src64' slot a tInts else if x = 1#1 then src64' slot a tB64 else src32 slot a tB32

/-- The source of `chkaln`, of 32 or 64 bits as the register's type is. -/
def Know.srcAlign (k : Know) (a : BitVec 8) : Src :=
  let wide := decide (0xC0 ≤ a.toNat) || (match regOf a.toNat with
    | some r => (k.ty r).any Ty.wide
    | none => false)
  { slot := 1, sel := a.toNat, wide := wide, want := { types := tInts, ptr := true } }

/-- A destination of a copy or gather, or the source of a copy: a stash offset or a pointer. -/
def srcRange (slot : Nat) (a : BitVec 8) (stash : Bool) : Src := if stash then srcInt slot a else srcPtr slot a

/-- The payload of `keep` and `last`: eight words, of which an even register and the next may hold one 64-bit value. -/
def Know.payload (k : Know) (r : Nat) : Nat → List Src
  | 0 => []
  | 1 => [src32 1 (BitVec.ofNat 8 r) all32]
  | n + 2 =>
    if r % 2 = 0 ∧ (k.ty (.v r)).any Ty.wide then src64' 1 (BitVec.ofNat 8 r) tB64 :: k.payload (r + 2) n
    else src32 1 (BitVec.ofNat 8 r) all32 :: k.payload (r + 1) (n + 1)

/-- The payload words that a put reads (R390). -/
def Know.putWords (k : Know) (r : Nat) (op : Nat) : List Src :=
  let one := fun ts => [src32 1 (BitVec.ofNat 8 r) ts]
  if op = 0x01 then [src64' 1 (BitVec.ofNat 8 r) tB64]
  else if op = 0x02 ∨ op = 0x04 ∨ op = 0x05 then one tI32
  else if op = 0x03 ∨ op = 0x06 ∨ op = 0x07 then one tN32
  else if op = 0x0B ∨ op = 0x0C ∨ op = 0x0D then one tF32
  else if op = 0x0E ∨ op = 0x0F then k.payload r 8
  else if op = 0x10 then []
  else if 0x11 ≤ op then (List.range (op - 0x10)).map fun i => src32 1 (BitVec.ofNat 8 (r + i)) tB32
  else one tB32

/-- Key and entry label of a record block. -/
def srcRecord (a : BitVec 8) : List Src :=
  [src64' 1 (a + 2) tB64, srcAny 1 (a + 4) true]

/-- The result of an instruction whose rule adds no fact: a destination with a fixed type, or with that of the first source. -/
inductive Res where
  | none
  | v32 (d : Nat) (ws : BitVec 1) (t : Option Ty)
  | v64 (d : Nat) (ws : BitVec 1) (t : Option Ty)
  | pred (p : Nat)
  deriving DecidableEq, Repr

structure Shape where
  srcs : List Src
  res : Res
  deriving DecidableEq, Repr

def sh (srcs : List Src) : Shape := { srcs := srcs, res := .none }
def op2 (d : BitVec 7) (ws : BitVec 1) (a b : BitVec 8) (ts : List Ty) (t : Option Ty) : Shape :=
  { srcs := [src32 1 a ts, src32 2 b ts], res := .v32 d.toNat ws t }
def op1 (d : BitVec 7) (ws : BitVec 1) (a : BitVec 8) (ts : List Ty) (t : Option Ty) : Shape :=
  { srcs := [src32 1 a ts], res := .v32 d.toNat ws t }
/-- With the destination as an operand too. -/
def op3 (d : BitVec 7) (ws : BitVec 1) (a b : BitVec 8) (ts : List Ty) (t : Ty) : Shape :=
  { srcs := [src32 1 a ts, src32 2 b ts, src32 0 d ts], res := .v32 d.toNat ws (some t) }
def wide2 (d : BitVec 6) (ws : BitVec 1) (a b : BitVec 8) (ts : List Ty) (t : Option Ty) : Shape :=
  { srcs := [src64' 1 a ts, src64' 2 b ts], res := .v64 (2 * d.toNat) ws t }
def wideShift (d : BitVec 6) (ws : BitVec 1) (a b : BitVec 8) (ts : List Ty) (t : Option Ty) : Shape :=
  { srcs := [src64' 1 a ts, src32 2 b tB32], res := .v64 (2 * d.toNat) ws t }
def cmp32 (p : BitVec 3) (a b : BitVec 8) (ts : List Ty) : Shape := { srcs := [src32 1 a ts, src32 2 b ts], res := .pred p.toNat }
def cmp64 (p : BitVec 3) (a b : BitVec 8) (ts : List Ty) : Shape := { srcs := [src64' 1 a ts, src64' 2 b ts], res := .pred p.toNat }
def cmpImm (p : BitVec 3) (a : BitVec 8) (ts : List Ty) : Shape := { srcs := [src32 1 a ts], res := .pred p.toNat }
/-- Address and index, then data. -/
def mem (a b : BitVec 8) (x : XM) (data : List Src) : Shape := sh ([srcPtr 1 a, srcIdx b x] ++ data)
def stashMem (a b : BitVec 8) (x : XM) (data : List Src) : Shape := sh ([src32 1 a tB32, srcIdx b x] ++ data)
def four (d : BitVec 7) : List Src := (List.range 4).map fun i => srcUp (src32 0 d all32) i

/-- The sources of an instruction, in their order, and its result where the rule of its class adds nothing to it. -/
def Know.shape (k : Know) (i : Instr) : Shape :=
  match i with
  -- class 0 (R272 to R299)
  | .addB32 d w a b => op2 d w a b tB32 none
  | .subB32 d w a b => op2 d w a b tB32 none
  | .mulLoB32 d w a b => op2 d w a b tB32 none
  | .andB32 d w a b => op2 d w a b tB32 none
  | .orB32 d w a b => op2 d w a b tB32 none
  | .xorB32 d w a b => op2 d w a b tB32 none
  | .addB32Imm d w a _ => op1 d w a tB32 none
  | .subB32Imm d w a _ => op1 d w a tB32 none
  | .andB32Imm d w a _ => op1 d w a tB32 none
  | .orB32Imm d w a _ => op1 d w a tB32 none
  | .xorB32Imm d w a _ => op1 d w a tB32 none
  | .addSatI32 d w a b => op2 d w a b tI32 (some .i32)
  | .subSatI32 d w a b => op2 d w a b tI32 (some .i32)
  | .mulHiI32 d w a b => op2 d w a b tI32 (some .i32)
  | .divI32 d w a b => op2 d w a b tI32 (some .i32)
  | .remI32 d w a b => op2 d w a b tI32 (some .i32)
  | .minI32 d w a b => op2 d w a b tI32 (some .i32)
  | .maxI32 d w a b => op2 d w a b tI32 (some .i32)
  | .addSatN32 d w a b => op2 d w a b tN32 (some .n32)
  | .subSatN32 d w a b => op2 d w a b tN32 (some .n32)
  | .mulHiN32 d w a b => op2 d w a b tN32 (some .n32)
  | .divN32 d w a b => op2 d w a b tN32 (some .n32)
  | .remN32 d w a b => op2 d w a b tN32 (some .n32)
  | .minN32 d w a b => op2 d w a b tN32 (some .n32)
  | .maxN32 d w a b => op2 d w a b tN32 (some .n32)
  | .mulWideI32 d w a b => { srcs := [src32 1 a tI32, src32 2 b tI32], res := .v64 (2 * d.toNat) w (some .i64) }
  | .mulWideN32 d w a b => { srcs := [src32 1 a tN32, src32 2 b tN32], res := .v64 (2 * d.toNat) w (some .n64) }
  | .shlB32 d w a b => op2 d w a b tB32 none
  | .shrN32 d w a b => op2 d w a b tN32 (some .n32)
  | .shrI32 d w a b => op2 d w a b tI32 (some .i32)
  | .rotlB32 d w a b => op2 d w a b tB32 (some .b32)
  | .rotrB32 d w a b => op2 d w a b tB32 (some .b32)
  | .shlB32Imm d w a _ => op1 d w a tB32 none
  | .shrN32Imm d w a _ => op1 d w a tN32 (some .n32)
  | .shrI32Imm d w a _ => op1 d w a tI32 (some .i32)
  | .rotlB32Imm d w a _ => op1 d w a tB32 (some .b32)
  | .rotrB32Imm d w a _ => op1 d w a tB32 (some .b32)
  | .popcB32 d w a => op1 d w a tB32 (some .n32)
  | .clzB32 d w a => op1 d w a tB32 (some .n32)
  | .ctzB32 d w a => op1 d w a tB32 (some .n32)
  | .brevB32 d w a => op1 d w a tB32 none
  | .bfxN32 d w a _ _ => op1 d w a tN32 (some .n32)
  | .bfxI32 d w a _ _ => op1 d w a tI32 (some .i32)
  | .bfiB32 d w a b _ _ => op2 d w a b tB32 none
  | .ternB32 d w a b c _ =>
    { srcs := [src32 1 a tB32, src32 2 b tB32, src32 3 c tB32], res := .v32 d.toNat w none }
  | .notB32 d w a => op1 d w a tB32 none
  | .movB32 d w a => op1 d w a all32 none
  | .movB32Imm _ _ _ _ => sh []
  | .addB64 d w a b => wide2 d w a b tB64 none
  | .subB64 d w a b => wide2 d w a b tB64 none
  | .mulLoB64 d w a b => wide2 d w a b tB64 none
  | .minI64 d w a b => wide2 d w a b tI64 (some .i64)
  | .maxI64 d w a b => wide2 d w a b tI64 (some .i64)
  | .minN64 d w a b => wide2 d w a b tN64 (some .n64)
  | .maxN64 d w a b => wide2 d w a b tN64 (some .n64)
  | .shlB64 d w a b => wideShift d w a b tB64 none
  | .shrN64 d w a b => wideShift d w a b tN64 (some .n64)
  | .shrI64 d w a b => wideShift d w a b tI64 (some .i64)
  | .movB64Imm _ _ _ => sh []
  | .smovB64 _ a => sh [{ slot := 1, sel := a.toNat, wide := true, want := { types := .code :: tB64, ptr := true, lock := true } }]
  | .selB32 _ _ a b p => sh [src32 1 a all32, src32 2 b all32, srcPred 3 p]
  | .selB64 _ _ a b p =>
    let t : Want := { types := tB64, lock := true }
    sh [{ src64' 1 a [] with want := t }, { src64' 2 b [] with want := t }, srcPred 3 p]
  | .setpEqB32 p a b => cmp32 p a b tB32
  | .setpNeB32 p a b => cmp32 p a b tB32
  | .setpLtI32 p a b => cmp32 p a b tI32
  | .setpLeI32 p a b => cmp32 p a b tI32
  | .setpGtI32 p a b => cmp32 p a b tI32
  | .setpGeI32 p a b => cmp32 p a b tI32
  | .setpLtN32 p a b => cmp32 p a b tN32
  | .setpLeN32 p a b => cmp32 p a b tN32
  | .setpGtN32 p a b => cmp32 p a b tN32
  | .setpGeN32 p a b => cmp32 p a b tN32
  | .setpEqB64 p a b => cmp64 p a b tB64
  | .setpNeB64 p a b => cmp64 p a b tB64
  | .setpLtI64 p a b => cmp64 p a b tI64
  | .setpLeI64 p a b => cmp64 p a b tI64
  | .setpLtN64 p a b => cmp64 p a b tN64
  | .setpLeN64 p a b => cmp64 p a b tN64
  | .setpEqB32Imm p a _ => cmpImm p a tB32
  | .setpNeB32Imm p a _ => cmpImm p a tB32
  | .setpLtI32Imm p a _ => cmpImm p a tI32
  | .setpLeI32Imm p a _ => cmpImm p a tI32
  | .setpGtI32Imm p a _ => cmpImm p a tI32
  | .setpGeI32Imm p a _ => cmpImm p a tI32
  | .andPred p a b => { srcs := [srcPred 1 a, srcPred 2 b], res := .pred p.toNat }
  | .orPred p a b => { srcs := [srcPred 1 a, srcPred 2 b], res := .pred p.toNat }
  | .xorPred p a b => { srcs := [srcPred 1 a, srcPred 2 b], res := .pred p.toNat }
  | .notPred p a => { srcs := [srcPred 1 a], res := .pred p.toNat }
  | .ptrAdd _ _ a b _ e =>
    sh [srcPtr 1 a, if e = 2#2 then src64' 2 b [.i64, .n64] else if e = 1#2 then src32 2 b tI32 else src32 2 b tN32]
  | .ptrDiff _ _ a b => sh [srcPtr 1 a, srcPtr 2 b]
  | .ptrAddImm _ _ a _ => sh [srcPtr 1 a]
  | .bra p _ _ => sh [srcPred 3 p]
  | .jmp a => sh [src64' 1 a [.code]]
  | .call _ _ => sh []
  | .callInd _ a => sh [src64' 1 a [.code]]
  | .ret a => sh [src64' 1 a [.code]]
  | .conv => sh []
  | .exit => sh []
  | .loop _ cnt _ => sh [srcAny 3 cnt false]
  | .chkb x a b => sh [srcBound 1 x a, srcBound 2 x b]
  | .chkland a => sh [src64' 1 a [.b64, .i64, .n64, .code]]
  | .chkaln a _ => sh [k.srcAlign a]
  -- class 1 (R304)
  | .addF32 _ d w a b => op2 d w a b tF32 (some .f32)
  | .subF32 _ d w a b => op2 d w a b tF32 (some .f32)
  | .mulF32 _ d w a b => op2 d w a b tF32 (some .f32)
  | .fmaF32 _ d w a b => op3 d w a b tF32 .f32
  | .addF16x2 _ d w a b => op2 d w a b tH2 (some .f16x2)
  | .mulF16x2 _ d w a b => op2 d w a b tH2 (some .f16x2)
  | .fmaF16x2 _ d w a b => op3 d w a b tH2 .f16x2
  | .addBf16x2 _ d w a b => op2 d w a b tG2 (some .bf16x2)
  | .mulBf16x2 _ d w a b => op2 d w a b tG2 (some .bf16x2)
  | .fmaBf16x2 _ d w a b => op3 d w a b tG2 .bf16x2
  | .minF32 d w a b => op2 d w a b tF32 (some .f32)
  | .maxF32 d w a b => op2 d w a b tF32 (some .f32)
  | .absF32 d w a => op1 d w a tF32 (some .f32)
  | .negF32 d w a => op1 d w a tF32 (some .f32)
  | .rcpApproxF32 d w a => op1 d w a tF32 (some .f32)
  | .rsqrtApproxF32 d w a => op1 d w a tF32 (some .f32)
  | .sqrtApproxF32 d w a => op1 d w a tF32 (some .f32)
  | .exp2ApproxF32 d w a => op1 d w a tF32 (some .f32)
  | .log2ApproxF32 d w a => op1 d w a tF32 (some .f32)
  | .sinApproxF32 d w a => op1 d w a tF32 (some .f32)
  | .cosApproxF32 d w a => op1 d w a tF32 (some .f32)
  | .tanhApproxF32 d w a => op1 d w a tF32 (some .f32)
  | .sqrtF32 _ d w a => op1 d w a tF32 (some .f32)
  | .setpEqF32 p a b => cmp32 p a b tF32
  | .setpNeF32 p a b => cmp32 p a b tF32
  | .setpLtF32 p a b => cmp32 p a b tF32
  | .setpLeF32 p a b => cmp32 p a b tF32
  | .setpGtF32 p a b => cmp32 p a b tF32
  | .setpGeF32 p a b => cmp32 p a b tF32
  | .setpNanF32 p a b => cmp32 p a b tF32
  | .cvtF32I32 _ d w a => op1 d w a tI32 (some .f32)
  | .cvtF32N32 _ d w a => op1 d w a tN32 (some .f32)
  | .cvtI32F32 _ d w a => op1 d w a tF32 (some .i32)
  | .cvtN32F32 _ d w a => op1 d w a tF32 (some .n32)
  | .cvtF16F32 _ d w a => op1 d w a tF32 (some .f16)
  | .cvtBf16F32 _ d w a => op1 d w a tF32 (some .bf16)
  | .cvtF32F16 d w a => op1 d w a (.f16 :: tBits) (some .f32)
  | .cvtF32Bf16 d w a => op1 d w a (.bf16 :: tBits) (some .f32)
  | .cvtSatF8aF32 d w a => op1 d w a tF32 (some .f8a)
  | .cvtNanF8aF32 d w a => op1 d w a tF32 (some .f8a)
  | .cvtSatF8bF32 d w a => op1 d w a tF32 (some .f8b)
  | .cvtNanF8bF32 d w a => op1 d w a tF32 (some .f8b)
  | .cvtSatF4F32 d w a => op1 d w a tF32 (some .f4)
  | .cvtF32F8a d w a => op1 d w a (.f8a :: tBits) (some .f32)
  | .cvtF32F8b d w a => op1 d w a (.f8b :: tBits) (some .f32)
  | .cvtF32F4 d w a b => { srcs := [src32 1 a (.f4 :: tBits), src32 2 b tBits], res := .v32 d.toNat w (some .f32) }
  | .cvtSatI8I32 d w a => op1 d w a tI32 (some .i8)
  | .cvtI32I8 d w a => op1 d w a (.i8 :: tBits) (some .i32)
  | .quantQ8F32 d w a b => { srcs := [src32 1 a tF32, src32 2 b tBits], res := .v32 d.toNat w (some .q8) }
  | .quantQ4F32 d w a b => { srcs := [src32 1 a tF32, src32 2 b tBits], res := .v32 d.toNat w (some .q4) }
  | .dequantF32Q8 d w a b => { srcs := [src32 1 a (.q8 :: tBits), src32 2 b tBits], res := .v32 d.toNat w (some .f32) }
  | .dequantF32Q4 d w a b => { srcs := [src32 1 a (.q4 :: tBits), src32 2 b tBits], res := .v32 d.toNat w (some .f32) }
  | .packB16 _ _ a b => sh [src32 1 a [.f16, .bf16, .i32, .n32, .b32], src32 2 b [.f16, .bf16, .i32, .n32, .b32]]
  | .packB8 d w a _ =>
    { srcs := [src32 1 a [.f8a, .f8b, .i8, .q8, .i32, .n32, .b32], src32 0 d tBits], res := .v32 d.toNat w (some .b32) }
  | .packB4 d w a _ => { srcs := [src32 1 a [.f4, .q4, .n32, .b32], src32 0 d tBits], res := .v32 d.toNat w (some .b32) }
  | .unpackB16 _ _ a _ => sh [src32 1 a [.f16x2, .bf16x2, .n32, .b32]]
  | .unpackB8 d w a _ => op1 d w a tBits (some .n32)
  | .unpackB4 d w a _ => op1 d w a tBits (some .n32)
  | .xlPick d w a b => { srcs := [src32 1 a all32, src32 2 b [.i32, .n32, .b32]], res := .v32 d.toNat w none }
  | .xlRol d w a b => { srcs := [src32 1 a all32, src32 2 b [.i32, .n32, .b32]], res := .v32 d.toNat w none }
  | .xlRor d w a b => { srcs := [src32 1 a all32, src32 2 b [.i32, .n32, .b32]], res := .v32 d.toNat w none }
  | .xlBfly d w a b => { srcs := [src32 1 a all32, src32 2 b [.i32, .n32, .b32]], res := .v32 d.toNat w none }
  | .redAddB32 d w a => op1 d w a tB32 none
  | .redMinI32 d w a => op1 d w a tI32 none
  | .redMaxI32 d w a => op1 d w a tI32 none
  | .redMinN32 d w a => op1 d w a tN32 none
  | .redMaxN32 d w a => op1 d w a tN32 none
  | .redAndB32 d w a => op1 d w a tB32 none
  | .redOrB32 d w a => op1 d w a tB32 none
  | .redXorB32 d w a => op1 d w a tB32 none
  | .redAddF32 d w a => op1 d w a [.f32] none
  | .redMinF32 d w a => op1 d w a [.f32] none
  | .redMaxF32 d w a => op1 d w a [.f32] none
  | .minidxN32 _ _ a => sh [src32 1 a tN32]
  | .minidxI32 _ _ a => sh [src32 1 a tI32]
  | .minidxF32 _ _ a => sh [src32 1 a [.f32]]
  | .scanInclAddB32 d w a => op1 d w a tB32 none
  | .scanExclAddB32 d w a => op1 d w a tB32 none
  | .scanInclMaxI32 d w a => op1 d w a tI32 none
  | .scanInclMinI32 d w a => op1 d w a tI32 none
  | .pollAll p a => { srcs := [srcPred 1 a], res := .pred p.toNat }
  | .pollAny p a => { srcs := [srcPred 1 a], res := .pred p.toNat }
  | .pollMask d w a => { srcs := [srcPred 1 a], res := .v64 (2 * d.toNat) w (some .b64) }
  | .pollSame p a => { srcs := [src32 1 a all32], res := .pred p.toNat }
  -- class 2 (R322 to R348)
  | .ldN8 _ a b x => mem a b x []
  | .ldI8 _ a b x => mem a b x []
  | .ldN16 _ a b x => mem a b x []
  | .ldI16 _ a b x => mem a b x []
  | .ldB32 _ a b x => mem a b x []
  | .ldB64 _ a b x => mem a b x []
  | .ldB128 _ a b x => mem a b x []
  | .stB8 d a b x => mem a b x [src32 0 d single32]
  | .stB16 d a b x => mem a b x [src32 0 d all32]
  | .stB32 d a b x => mem a b x [src32 0 d all32]
  | .stB64 d a b x => mem a b x [{ src64' 0 d [] with want := { types := .code :: tB64, ptr := true } }]
  | .stB128 d a b x => mem a b x (four d)
  | .ldsB32 _ a b x => stashMem a b x []
  | .ldsB64 _ a b x => stashMem a b x []
  | .ldsB128 _ a b x => stashMem a b x []
  | .stsB32 d a b x => stashMem a b x [src32 0 d all32]
  | .stsB64 d a b x => stashMem a b x [{ src64' 0 d [] with want := { types := .code :: tB64, ptr := true } }]
  | .stsB128 d a b x => stashMem a b x (four d)
  | .stashMap tok a b x =>
    sh ([srcPtr 1 a, srcInt 2 b] ++ if x.mode = 2#4 then [srcUp (src64' 0 tok tToken) 0xC0] else [])
  | .stashUnmap b _ => sh [srcInt 2 b]
  | .stashFlush b _ => sh [srcInt 2 b]
  | .flaskCreate _ a b _ => sh [srcPtr 1 a, srcInt 2 b]
  | .flaskSeal _ a _ => sh [src64' 1 a tToken]
  | .flaskReopen _ a _ => sh [src64' 1 a tToken]
  | .flaskRetire _ a _ => sh [src64' 1 a tToken]
  | .flaskAcq _ a _ => sh [src64' 1 a tToken]
  | .flaskRel _ a _ => sh [src64' 1 a tToken]
  | .atomAddB32 d a b x => mem a b x [src32 0 d tB32]
  | .atomAddB64 d a b x => mem a b x [src64' 0 d tB64]
  | .atomMinI32 d a b x => mem a b x [src32 0 d tI32]
  | .atomMaxI32 d a b x => mem a b x [src32 0 d tI32]
  | .atomMinN32 d a b x => mem a b x [src32 0 d tN32]
  | .atomMaxN32 d a b x => mem a b x [src32 0 d tN32]
  | .atomAndB32 d a b x => mem a b x [src32 0 d tB32]
  | .atomOrB32 d a b x => mem a b x [src32 0 d tB32]
  | .atomXorB32 d a b x => mem a b x [src32 0 d tB32]
  | .atomXchgB32 d a b x => mem a b x [src32 0 d tB32]
  | .atomXchgB64 d a b x => mem a b x [src64' 0 d tB64]
  | .atomCasB32 d a b x => mem a b x [src32 0 d tB32, srcUp (src32 0 d tB32) 1]
  | .atomCasB64 d a b x => mem a b x [src64' 0 d tB64, srcUp (src64' 0 d tB64) 2]
  | .atomAddF32 d a b x => mem a b x [src32 0 d tF32]
  | .atomMinI64 d a b x => mem a b x [src64' 0 d tI64]
  | .atomMaxI64 d a b x => mem a b x [src64' 0 d tI64]
  | .fence a b _ => sh (if a = 0x84#8 then [] else [srcPtr 1 a, srcAny 2 b false])
  | .barGroup => sh []
  | .barTeam => sh []
  | .barRole _ => sh []
  | .barRollcall => sh []
  | .copy a b x => sh [srcRange 1 a (x.mode.getLsbD 0), srcRange 2 b (x.mode.getLsbD 1)]
  | .gather a b x => sh [srcRange 1 a (x.mode.getLsbD 2), srcPtr 2 b, srcUp (srcPtr 2 b) 1, srcUp (srcInt 2 b) 2]
  | .coll a b _ => sh [srcPtr 1 a, srcUp (srcInt 1 a) 1, srcPtr 2 b, srcUp (srcAny 2 b true) 1]
  | .engWait _ a => sh [srcAny 1 a true]
  | .lockAcq a _ => sh [{ src64' 1 a [] with want := { lock := true } }]
  | .lockRel a _ => sh [{ src64' 1 a [] with want := { lock := true } }]
  -- class 3
  | .talloc _ _ _ => sh []
  | .tfree _ => sh []
  | .tgiveRing _ _ => sh []
  | .tgiveRole _ _ => sh []
  | .ttakeRing _ _ _ => sh []
  | .ttakeRole _ _ => sh []
  | .tld _ a b _ => sh [srcPtr 1 a, srcInt 2 b]
  | .tst _ a b _ => sh [srcPtr 1 a, srcInt 2 b]
  | .tcvt _ _ _ _ => sh []
  | .tspread _ _ _ _ => sh []
  | .ttag _ _ _ _ _ _ => sh []
  | .ttagXval _ _ => sh []
  | .mxAcq => sh []
  | .mxRel => sh []
  | .mxPass _ _ _ _ _ => sh []
  | .mxQpass _ _ _ _ _ _ => sh []
  | .mxBpass _ _ _ _ _ => sh []
  | .mxStream _ b _ => sh [srcAny 2 b true, srcUp (srcAny 2 b true) 1, srcUp (srcPtr 2 b) 2]
  | .mxDrainMem a b _ => sh [srcPtr 1 a, srcInt 2 b]
  | .mxDrainTile _ _ _ _ _ => sh []
  | .mxDrainColl _ _ a b _ => sh [srcPtr 1 a, srcUp (srcInt 1 a) 1, srcAny 2 b true, srcUp (srcAny 2 b true) 1]
  | .mxEpi _ _ => sh []
  | .mxZero _ _ => sh []
  -- class 4 (R412)
  | .hmPut _ _ a _ op => sh (srcRecord a ++ k.putWords (a.toNat + 6) op.toNat)
  | .hmRput _ _ a _ =>
    sh (srcRecord a ++ [src64' 1 (a + 6) tI64, src64' 1 (a + 8) tI64, src32 1 (a + 10) tN32, src32 1 (a + 11) single32,
      src32 1 (a + 12) single32, src32 1 (a + 13) single32])
  | .hmGet _ _ => sh []
  | .hmDone _ => sh []
  | .hmKscfgOpen _ _ a b _ => sh [srcPtr 1 a, srcInt 2 b]
  | .hmKscfgQuery _ _ _ => sh []
  | .hmKscfgClose _ _ _ => sh []
  | .hmGdrain _ a b _ => sh [srcPtr 1 a, srcInt 2 b]
  | .hmGreload _ a b _ => sh [srcPtr 1 a, srcInt 2 b]
  -- class 5
  | .trap _ => sh []
  | .rttResume => sh []
  | .rttEnd => sh []
  | .rdsys _ _ => sh []
  | .wrsys a _ => sh [srcAny 1 a false]
  | .warnClr _ => sh []
  | .brk _ => sh []
  | .ctrRd _ _ => sh []
  | .ctrCfg a _ => sh [srcAny 1 a false]
  | .yield => sh []
  | .vregGrow _ => sh []
  | .vregShrink _ => sh []
  -- class 6 (R200), and the events, which no kernel holds
  | .schedHint _ _ _ _ => sh []
  | .pref _ _ _ _ _ => sh []
  | .evictHint _ _ _ _ _ => sh []
  | .unimplementedHint _ _ _ _ _ _ => sh []
  | _ => sh []

/-! ### The rules of the classes -/

/-- The types at which an operand may be taken. -/
def Opnd.types (o : Opnd) (wide : Bool) : List Ty := if o.reg.isNone && decide (0x84 ≤ o.sel) then constTypes o.sel wide else [o.ty]

/-- The one type of two sources (R283). -/
def oneType (wide : Bool) (a b : Opnd) : Chk Ty :=
  match (a.types wide).find? fun t => (b.types wide).contains t with
  | some t => .ok t
  | none => .error { b.fail 21 with expect := some a.ty.code16, found := some b.ty.code16 }

/-- The result of an instruction whose rule adds nothing. -/
def Walk.plain (c : Ctx) (w : Walk) (r : Res) (a : Opnd) : Walk :=
  match r with
  | .none => w
  | .v32 d ws t => w.res32 c d ws (t.getD a.ty)
  | .v64 d ws t => w.res64 c d ws (t.getD a.ty)
  | .pred p => w.resPred p none

/-- `add` and `sub` of 32 bits: the literal by which the first source moves, if there is one. -/
def Walk.sum32 (c : Ctx) (w : Walk) (d : BitVec 7) (ws : BitVec 1) (a : Opnd) (v : Option Int) : Walk :=
  w.res32 c d.toNat ws a.ty (match v with
    | some v => c.g.added w.k a a.ty (.vreg d.toNat) v
    | none => [])

def Walk.sum64 (c : Ctx) (w : Walk) (d : BitVec 6) (ws : BitVec 1) (a : Opnd) (v : Option Int) : Walk :=
  w.res64 c (2 * d.toNat) ws a.ty (match v with
    | some v => c.g.added w.k a a.ty (.vreg (2 * d.toNat)) v
    | none => [])

/-- Alignment after a shift to the left by a literal. -/
def shlAlign (v : Option Int) : Option Nat := (v.filter fun v => decide (0 ≤ v)).map fun v => 2 ^ min v.toNat 4

/-- A compare. -/
def Walk.compare (c : Ctx) (w : Walk) (p : BitVec 3) (x : Cond) (unsigned : Bool) (a b : Opnd) : Chk Walk :=
  .ok (w.resPred p.toNat (c.g.relation w.k x unsigned a b))

/-- `ptr.add` of a literal. -/
def Walk.ptrMove (c : Ctx) (w : Walk) (d : BitVec 6) (ws : BitVec 1) (p : Opnd) (v : Int) : Walk :=
  let r := Reg.v (2 * d.toNat)
  w.res64 c (2 * d.toNat) ws (.ptr (min p.ptr.1 (pow2Of v).log2) p.ptr.2)
    ((w.k.affines p).map fun a => .affine r p.ptr.2 a.1 a.2.1 (a.2.2 + v))

/-- `ptr.add` of an index with a scale. -/
def Walk.ptrIndex (c : Ctx) (w : Walk) (d : BitVec 6) (ws : BitVec 1) (p j : Opnd) (sc : Nat) : Walk :=
  match j.literal with
  | some v => w.ptrMove c d ws p (2 ^ sc * v)
  | none =>
    let r := Reg.v (2 * d.toNat)
    w.res64 c (2 * d.toNat) ws (.ptr (min (min p.ptr.1 sc) j.align.log2) p.ptr.2) (match j.sym with
      | some (x, _) => ((w.k.affines p).filter fun a => a.2.1 == .zero).map fun a => .affine r p.ptr.2 (2 ^ sc) x a.2.2
      | none => [])

/-- What a check of a bound establishes (R244): a constant stands as the symbol 0 plus its value. What is entailed of every
value is not added. -/
def Kern.boundFacts (g : Kern) (k : Know) (a b : Opnd) : List Fact :=
  match a.sym with
  | none => []
  | some (x, v) =>
    let fs := leFact (.zero, 0) (x, v) 0 ++ (match b.sym with
      | none => []
      | some (y, u) =>
        leFact (x, v) (y, u) (-1) ++
          (List.range g.regions).filterMap fun j => (g.bound k y (.len j)).map fun c => Fact.diff x (.len j) (u + c - v - 1))
    fs.filter fun f => match f with
      | .diff p q c => p != q || decide (c < 0)
      | .affine .. => true

/-- The current state entails the landing annotation (R246). -/
def Ctx.mayLand (c : Ctx) (k : Know) : Bool :=
  match c.landAnn with
  | some e => passes (c.g.edge k e)
  | none => false

def Ctx.needLanding (c : Ctx) (k : Know) (a : Opnd) : Chk Unit := must (c.mayLand k) (a.fail 30)

/-- The return point of a call is a landing block (R247). -/
def Ctx.needReturn (c : Ctx) : Chk Unit := must (c.landing.contains c.next) { rule := 30, target := some c.next }

/-- The link pair of a call. -/
def Walk.link (c : Ctx) (w : Walk) (l : BitVec 6) : Walk := w.write c (vregs (2 * l.toNat) 2) [(.v (2 * l.toNat), .code)] none

/-- A load of `n` bytes into registers. -/
def Walk.load (c : Ctx) (w : Walk) (o : Nat → Opnd) (x : XM) (n : Nat) (d k : Nat) (tys : List Ty) : Chk Walk := do
  let w ← c.g.access w (o 0) (some (o 1)) x.off.toInt (some n) 0 n
  return w.write c (vregs d k) (((List.range tys.length).map fun i => Reg.v (d + i)).zip tys) (some 0)

def Walk.store (c : Ctx) (w : Walk) (o : Nat → Opnd) (x : XM) (n : Nat) : Chk Walk :=
  c.g.access w (o 0) (some (o 1)) x.off.toInt (some n) rWrite n

def Walk.stashLoad (c : Ctx) (w : Walk) (o : Nat → Opnd) (x : XM) (n : Nat) (d k : Nat) (tys : List Ty) : Chk Walk := do
  let w ← c.g.stash w (o 0) (some (o 1)) x.off.toInt n n
  return w.write c (vregs d k) (((List.range tys.length).map fun i => Reg.v (d + i)).zip tys) (some 0)

def Walk.stashStore (c : Ctx) (w : Walk) (o : Nat → Opnd) (x : XM) (n : Nat) : Chk Walk :=
  c.g.stash w (o 0) (some (o 1)) x.off.toInt n n

/-- An atomic of 4 or 8 bytes; with `.nr` it writes no register. -/
def Walk.atomic (c : Ctx) (w : Walk) (o : Nat → Opnd) (x : XM) (n : Nat) (d : BitVec 7) : Chk Walk := do
  let w ← c.g.access w (o 0) (some (o 1)) x.off.toInt (some n) rAtom n
  return if x.mode.getLsbD 1 then w else w.write c (vregs d.toNat (n / 4)) [(.v d.toNat, (o 2).ty)] (some 0)

/-- A range of an engine operation: of the stash, or global in the second of its two rounds (R344). -/
def Kern.globalRange (g : Kern) (w : Walk) (p : Opnd) (stash : Bool) (n : Nat) : Chk Walk :=
  if stash then .ok w
  else do
    let w ← g.checkBounds w p none 0 (some n)
    g.checkLock w.k p.ptr.2
    return w
def Kern.stashRange (g : Kern) (w : Walk) (p : Opnd) (stash : Bool) (n : Nat) : Chk Walk :=
  if stash then g.stash w p none 0 n 0 else .ok w
def Kern.rangeRights (g : Kern) (p : Opnd) (stash : Bool) (need : Nat) : Chk Unit :=
  if stash then .ok () else g.checkRights p need

def Walk.copy (c : Ctx) (w : Walk) (o : Nat → Opnd) (x : XM) : Chk Walk := do
  let n := 128 * (x.off.toNat + 1)
  let (sd, ss) := (x.mode.getLsbD 0, x.mode.getLsbD 1)
  c.g.rangeRights (o 0) sd rEngDst
  c.g.rangeRights (o 1) ss rEngSrc
  let w ← c.g.globalRange w (o 0) sd n
  let w ← c.g.globalRange w (o 1) ss n
  let w ← c.g.stashRange w (o 0) sd n
  c.g.stashRange w (o 1) ss n

def Walk.gather (c : Ctx) (w : Walk) (o : Nat → Opnd) (x : XM) : Chk Walk := do
  let n := 128 * (x.off.toNat + 1)
  let z := [4, 8, 16, 128].getD (x.mode.toNat % 4) 4
  let sd := x.mode.getLsbD 2
  c.g.rangeRights (o 0) sd rEngDst
  c.g.checkRights (o 1) rEngSrc
  c.g.checkRights (o 2) rEngSrc
  let w ← c.g.globalRange w (o 0) sd n
  let w ← c.g.globalRange w (o 1) false (4 * n / z)
  c.g.checkBuffer w.k (o 2) (o 3)
  c.g.checkLock w.k (o 2).ptr.2
  c.g.stashRange w (o 0) sd n

/-- The receive buffer of a collective of so many lines: a destination, and a buffer whose length is given (R344, R345). -/
def Kern.receive (g : Kern) (w : Walk) (p len : Opnd) (lines : Nat) : Chk Walk := do
  let w ← g.checkBounds w p none 0 (some (128 * lines : Nat))
  g.checkBuffer w.k p len
  g.checkLock w.k p.ptr.2
  return w

def Walk.coll (c : Ctx) (w : Walk) (o : Nat → Opnd) (x : XM) : Chk Walk := do
  let lines := x.off.toNat + 1
  c.g.checkRights (o 0) rEngDst
  c.g.checkRights (o 2) rEngSrc
  let w ← c.g.globalRange w (o 2) false (128 * lines)
  c.g.receive w (o 0) (o 1) lines

/-- `stash.map` (R331). -/
def Walk.stashMap (c : Ctx) (w : Walk) (o : Nat → Opnd) (x : XM) : Chk Walk := do
  let n := 128 * (x.off.toNat + 1)
  let w ← c.g.stash w (o 1) none 0 n 0
  c.g.access w (o 0) none 0 (some n) (if x.mode = 0#4 then rStash else if x.mode = 1#4 then rStash + rWrite else rFlask) 0

/-- `lock.acq` and `lock.rel` (R240, R340). -/
def Walk.lock (c : Ctx) (w : Walk) (a : Opnd) (x : XM) (acq : Bool) : Chk Walk :=
  match a.ty with
  | .lock l => do
    let have' := (c.g.rights (c.g.lockRegion l)).toNat % 128
    must (have'.testBit 1) { a.fail 24 with expect := some rAtom, found := some have' }
    must (c.g.lockScope l == x.scope.toNat && w.k.locks.getLsbD l != acq) (Fail.ofLock 26 l)
    return { w with k := { w.k with locks := w.k.locks ^^^ (1#8 <<< l) } }
  | _ => .error (a.fail 21)

/-- A handle becomes live with a tile type (R241). -/
def Walk.takeHandle (w : Walk) (h : BitVec 5) (t : Nat) : Chk Walk := do
  must (w.k.ty (.h h.toNat)).isNone (Fail.ofReg 28 (.h h.toNat))
  return { w with k := w.k.setTy (.h h.toNat) (some (.tile t)), touched := w.touched ++ [.h h.toNat] }

def Walk.dropHandle (w : Walk) (h : BitVec 5) : Chk Walk := do
  let _ ← w.k.handle h
  return { w with k := w.k.setTy (.h h.toNat) none, touched := w.touched ++ [.h h.toNat] }

/-- A handle ring at a stash line (R360). -/
def Walk.ring (w : Walk) (line : BitVec 8) : Walk := w.needStash (128 * (line.toNat + 1))

/-- Rows of a tile in memory (R363). -/
def Walk.rows (c : Ctx) (w : Walk) (t : Nat) (p stride : Opnd) (off : Int) (need : Nat) : Chk Walk := do
  let row := tileRowBytes t
  let most := if stride.literal = some 0 then some (row : Int) else c.g.greatest w.k stride
  c.g.checkRights p need
  let w ← c.g.checkBounds w p none off (most.map fun m => (tileRowsOf t - 1 : Nat) * m + row)
  checkAligned p (some stride) off 16
  c.g.checkLock w.k p.ptr.2
  return w

/-- Rows of a drain to memory (R378). -/
def Walk.drainRows (c : Ctx) (w : Walk) (p : Opnd) (stride row : Nat) : Chk Walk := do
  c.g.checkRights p rEngDst
  let w ← c.g.checkBounds w p none 0 (some (31 * stride + row : Nat))
  checkAligned p none stride 16
  c.g.checkLock w.k p.ptr.2
  return w

/-- The handles of a pass. -/
def Walk.pass (w : Walk) (a b : BitVec 5) (slice : BitVec 2) : Chk Walk := do
  let x ← w.k.handle a
  let y ← w.k.handle b
  must (passOk x y slice.toNat) (tileFail a)
  return w

/-- The status of a Hamper instruction that returns after issue (R191, R243). -/
def Walk.status (c : Ctx) (w : Walk) (d : BitVec 7) (ws : BitVec 1) : Walk :=
  if ws = 1#1 then w else w.write c [.v d.toNat] [(.v d.toNat, .n32)] (some 3)

/-- The entry label of a record block is a `code` value (R412). -/
def needLabel (o : Opnd) : Chk Unit := must (o.ty == .code) { o.fail 30 with expect := some Ty.code.code16, found := some o.ty.code16 }

/-- The record block that `hm.get` writes (R403, R406). -/
def Walk.getRecord (c : Ctx) (w : Walk) (d : BitVec 7) : Chk Walk := do
  let r := d.toNat
  must (decide (r + 13 < w.k.budget)) (failAt 22 (r + 13))
  return w.write c (vregs r 14) ([(.v r, .n32), (.v (r + 1), .n32), (.v (r + 2), .b64), (.v (r + 4), .code)] ++
    (List.range 8).map fun i => (.v (r + 6 + i), .b32)) (some 3)

/-- `hm.gdrain` and `hm.greload` (R412): a privileged kernel, the save area, its bound. -/
def Walk.saveArea (c : Ctx) (w : Walk) (o : Nat → Opnd) (need : Nat) (d : BitVec 7) : Chk Walk := do
  must c.g.priv { rule := 36 }
  c.g.checkRights (o 0) need
  let w ← c.g.checkBounds w (o 0) none 0 (c.g.greatest w.k (o 1))
  c.g.checkLock w.k (o 0).ptr.2
  return w.status c d 0

/-- A register read by `rdsys` or `ctr.rd`, into a vector register or pair, or a scalar. -/
def Walk.readReg (c : Ctx) (w : Walk) (d : BitVec 8) (wide : Bool) (t : Ty) : Walk :=
  if 0xC0 ≤ d.toNat then w.resScalar c (d.toNat - 0xC0) t
  else if wide then w.res64 c d.toNat 0 t
  else w.res32 c d.toNat 0 t

/-- `vreg.grow` and `vreg.shrink` (R242, R424, R509). -/
def Walk.budget (c : Ctx) (w : Walk) (n : Nat) (grow : Bool) : Chk Walk := do
  must (!c.guarded && c.roles.all fun r => if grow then decide (n ≤ r.2.2.2) else decide (r.2.2.1 ≤ n)) { rule := 39 }
  must (grow || decide (n ≤ w.k.budget)) { rule := 39 }
  let gone := (List.range (128 - n)).map fun i => Reg.v (n + i)
  return { w with k := { w.k.clear gone with budget := n } }

/-- A hint writes 0 to its destination, which keeps its type (R200). -/
def Walk.hint (c : Ctx) (w : Walk) (d : BitVec 7) (ws : BitVec 1) : Walk :=
  let old := w.k.ty (.v d.toNat)
  let t := (old.filter fun t => !t.wide).getD .n32
  let w := w.enter [.whole t]
  if ws = 1#1 then w
  else
    let k := (w.k.forget (.v d.toNat)).mark c.guarded [.v d.toNat] none
    { w with k := k, touched := w.touched ++ [.v d.toNat] }

/-- The rule of an instruction's class after the first row of R235, with what is known afterwards. -/
def Ctx.rule (c : Ctx) (w : Walk) (r : Res) (o : Nat → Opnd) (i : Instr) : Chk Walk :=
  let g := c.g
  match i with
  | .addB32 d ws _ _ => .ok (w.sum32 c d ws (o 0) (o 1).literal)
  | .subB32 d ws _ _ => .ok (w.sum32 c d ws (o 0) ((o 1).literal.map fun v => -v))
  | .addB32Imm d ws _ v => .ok (w.sum32 c d ws (o 0) (some v.toInt))
  | .subB32Imm d ws _ v => .ok (w.sum32 c d ws (o 0) (some (-v.toInt)))
  | .addB64 d ws _ _ => .ok (w.sum64 c d ws (o 0) (o 1).literal)
  | .subB64 d ws _ _ => .ok (w.sum64 c d ws (o 0) ((o 1).literal.map fun v => -v))
  | .shlB32 d ws _ _ => .ok (w.res32 c d.toNat ws (o 0).ty [] (shlAlign (o 1).literal))
  | .shlB32Imm d ws _ n => .ok (w.res32 c d.toNat ws (o 0).ty [] (shlAlign (some n.toNat)))
  | .shlB64 d ws _ _ => .ok (w.res64 c (2 * d.toNat) ws (o 0).ty [] (shlAlign (o 1).literal))
  | .movB32 d ws _ =>
    let (fs, a) := g.copied w.k (o 0) (.v d.toNat)
    .ok (w.res32 c d.toNat ws (o 0).ty fs a)
  | .movB32Imm d ws t v =>
    if t = 0x88#8 then .ok (w.res32 c d.toNat ws .f32)
    else
      let (fs, a) := g.copied w.k (immOpnd v.toInt) (.v d.toNat)
      .ok (w.res32 c d.toNat ws .i32 fs a)
  | .movB64Imm d ws v =>
    let (fs, a) := g.copied w.k (immOpnd v.toInt) (.v (2 * d.toNat))
    .ok (w.res64 c (2 * d.toNat) ws .i64 fs a)
  | .smovB64 s _ =>
    let (fs, a) := g.copied w.k (o 0) (.s s.toNat)
    .ok (((w.resScalar c s.toNat (o 0).ty).addAll fs).align (.s s.toNat) a)
  | .selB32 d ws _ _ _ => do
    let t ← oneType false (o 0) (o 1)
    return w.res32 c d.toNat ws t
  | .selB64 d ws _ _ _ => do
    let t ← oneType true (o 0) (o 1)
    return w.res64 c (2 * d.toNat) ws t
  | .setpEqB32 p _ _ => w.compare c p .eq false (o 0) (o 1)
  | .setpNeB32 p _ _ => w.compare c p .ne false (o 0) (o 1)
  | .setpLtI32 p _ _ => w.compare c p .lt false (o 0) (o 1)
  | .setpLeI32 p _ _ => w.compare c p .le false (o 0) (o 1)
  | .setpGtI32 p _ _ => w.compare c p .gt false (o 0) (o 1)
  | .setpGeI32 p _ _ => w.compare c p .ge false (o 0) (o 1)
  | .setpLtN32 p _ _ => w.compare c p .lt true (o 0) (o 1)
  | .setpLeN32 p _ _ => w.compare c p .le true (o 0) (o 1)
  | .setpGtN32 p _ _ => w.compare c p .gt true (o 0) (o 1)
  | .setpGeN32 p _ _ => w.compare c p .ge true (o 0) (o 1)
  | .setpEqB64 p _ _ => w.compare c p .eq false (o 0) (o 1)
  | .setpNeB64 p _ _ => w.compare c p .ne false (o 0) (o 1)
  | .setpLtI64 p _ _ => w.compare c p .lt false (o 0) (o 1)
  | .setpLeI64 p _ _ => w.compare c p .le false (o 0) (o 1)
  | .setpLtN64 p _ _ => w.compare c p .lt true (o 0) (o 1)
  | .setpLeN64 p _ _ => w.compare c p .le true (o 0) (o 1)
  | .setpEqB32Imm p _ v => w.compare c p .eq false (o 0) (immOpnd v.toInt)
  | .setpNeB32Imm p _ v => w.compare c p .ne false (o 0) (immOpnd v.toInt)
  | .setpLtI32Imm p _ v => w.compare c p .lt false (o 0) (immOpnd v.toInt)
  | .setpLeI32Imm p _ v => w.compare c p .le false (o 0) (immOpnd v.toInt)
  | .setpGtI32Imm p _ v => w.compare c p .gt false (o 0) (immOpnd v.toInt)
  | .setpGeI32Imm p _ v => w.compare c p .ge false (o 0) (immOpnd v.toInt)
  | .ptrAdd d ws _ _ sc _ => .ok (w.ptrIndex c d ws (o 0) (o 1) sc.toNat)
  | .ptrAddImm d ws _ v => .ok (w.ptrMove c d ws (o 0) v.toInt)
  | .ptrDiff d ws _ _ => do
    must ((o 0).ptr.2 == (o 1).ptr.2) { (o 1).fail 21 with expect := some (o 0).ty.code16, found := some (o 1).ty.code16 }
    return w.res64 c (2 * d.toNat) ws .i64
  | .jmp _ => do
    c.needLanding w.k (o 0)
    return w
  | .ret _ => do
    c.needLanding w.k (o 0)
    return w
  | .call l _ => do
    c.needReturn
    return w.link c l
  | .callInd l _ => do
    c.needLanding w.k (o 0)
    c.needReturn
    return w.link c l
  | .conv => .ok { w with k := { w.k with latches := noLatches } }
  | .exit => do
    must (w.k.locks == 0#8) (Fail.ofLock 27 (lockDiff w.k.locks 0))
    match w.k.handles with
    | h :: _ => .error (Fail.ofReg 28 h)
    | [] => .ok w
  | .chkb _ _ _ => .ok (w.addAll (g.boundFacts w.k (o 0) (o 1)))
  | .chkland _ =>
    match (o 0).reg with
    | some x => .ok { w with k := w.k.setTy x (some .code) }
    | none => .ok w
  | .chkaln _ e =>
    match (o 0).reg, (o 0).ty with
    | some x, .ptr n region => .ok { w with k := w.k.setTy x (some (.ptr (max n e.toNat) region)) }
    | some x, _ => .ok { w with k := w.k.setAlign x (max (w.k.align x) (2 ^ e.toNat)) }
    | none, _ => .ok w
  | .packB16 d ws _ _ =>
    .ok (w.res32 c d.toNat ws (match (o 0).ty, (o 1).ty with
      | .f16, .f16 => .f16x2
      | .bf16, .bf16 => .bf16x2
      | _, _ => .b32))
  | .unpackB16 d ws _ _ =>
    .ok (w.res32 c d.toNat ws (match (o 0).ty with
      | .f16x2 => .f16
      | .bf16x2 => .bf16
      | _ => .n32))
  | .minidxN32 d ws _ =>
    let w := w.enter [.whole (o 0).ty, .whole .n32]
    .ok (if ws = 1#1 then w else w.write c (vregs (2 * d.toNat) 2) [(.v (2 * d.toNat), (o 0).ty), (.v (2 * d.toNat + 1), .n32)] none)
  | .minidxI32 d ws _ =>
    let w := w.enter [.whole (o 0).ty, .whole .n32]
    .ok (if ws = 1#1 then w else w.write c (vregs (2 * d.toNat) 2) [(.v (2 * d.toNat), (o 0).ty), (.v (2 * d.toNat + 1), .n32)] none)
  | .minidxF32 d ws _ =>
    let w := w.enter [.whole (o 0).ty, .whole .n32]
    .ok (if ws = 1#1 then w else w.write c (vregs (2 * d.toNat) 2) [(.v (2 * d.toNat), (o 0).ty), (.v (2 * d.toNat + 1), .n32)] none)
  | .ldN8 d _ _ x => w.load c o x 1 d.toNat 1 [.n32]
  | .ldI8 d _ _ x => w.load c o x 1 d.toNat 1 [.i8]
  | .ldN16 d _ _ x => w.load c o x 2 d.toNat 1 [.n32]
  | .ldI16 d _ _ x => w.load c o x 2 d.toNat 1 [.i32]
  | .ldB32 d _ _ x => w.load c o x 4 d.toNat 1 [.b32]
  | .ldB64 d _ _ x => w.load c o x 8 d.toNat 2 [.b64]
  | .ldB128 d _ _ x => w.load c o x 16 d.toNat 4 [.b32, .b32, .b32, .b32]
  | .stB8 _ _ _ x => w.store c o x 1
  | .stB16 _ _ _ x => w.store c o x 2
  | .stB32 _ _ _ x => w.store c o x 4
  | .stB64 _ _ _ x => w.store c o x 8
  | .stB128 _ _ _ x => w.store c o x 16
  | .ldsB32 d _ _ x => w.stashLoad c o x 4 d.toNat 1 [.b32]
  | .ldsB64 d _ _ x => w.stashLoad c o x 8 d.toNat 2 [.b64]
  | .ldsB128 d _ _ x => w.stashLoad c o x 16 d.toNat 4 [.b32, .b32, .b32, .b32]
  | .stsB32 _ _ _ x => w.stashStore c o x 4
  | .stsB64 _ _ _ x => w.stashStore c o x 8
  | .stsB128 _ _ _ x => w.stashStore c o x 16
  | .stashMap _ _ _ x => w.stashMap c o x
  | .stashFlush _ x => g.stash w (o 0) none 0 (128 * (x.off.toNat + 1) : Nat) 0
  | .flaskCreate s _ _ _ => do
    let w ← g.access w (o 0) none 0 ((g.greatest w.k (o 1)).map fun n => 128 * n) rFlask 0
    return w.resScalar c s.toNat .n64 (some 0)
  | .flaskSeal s _ _ => .ok (w.resScalar c s.toNat .n64 (some 0))
  | .flaskReopen s _ _ => .ok (w.resScalar c s.toNat .n64 (some 0))
  | .flaskRetire s _ _ => .ok (w.resScalar c s.toNat .n64 (some 0))
  | .flaskAcq s _ _ => .ok (w.resScalar c s.toNat .n64 (some 0))
  | .flaskRel s _ _ => .ok (w.resScalar c s.toNat .n64 (some 0))
  | .atomAddB32 d _ _ x => w.atomic c o x 4 d
  | .atomAddB64 d _ _ x => w.atomic c o x 8 d
  | .atomMinI32 d _ _ x => w.atomic c o x 4 d
  | .atomMaxI32 d _ _ x => w.atomic c o x 4 d
  | .atomMinN32 d _ _ x => w.atomic c o x 4 d
  | .atomMaxN32 d _ _ x => w.atomic c o x 4 d
  | .atomAndB32 d _ _ x => w.atomic c o x 4 d
  | .atomOrB32 d _ _ x => w.atomic c o x 4 d
  | .atomXorB32 d _ _ x => w.atomic c o x 4 d
  | .atomXchgB32 d _ _ x => w.atomic c o x 4 d
  | .atomXchgB64 d _ _ x => w.atomic c o x 8 d
  | .atomCasB32 d _ _ x => w.atomic c o x 4 d
  | .atomCasB64 d _ _ x => w.atomic c o x 8 d
  | .atomAddF32 d _ _ x => w.atomic c o x 4 d
  | .atomMinI64 d _ _ x => w.atomic c o x 8 d
  | .atomMaxI64 d _ _ x => w.atomic c o x 8 d
  | .copy _ _ x => w.copy c o x
  | .gather _ _ x => w.gather c o x
  | .coll _ _ x => w.coll c o x
  | .engWait s _ => .ok (w.resScalar c s.toNat .n64)
  | .lockAcq _ x => w.lock c (o 0) x true
  | .lockRel _ x => w.lock c (o 0) x false
  | .talloc d t f => do
    let w ← w.takeHandle d t.toNat
    must (f == 0#1 || bhQuad g.header) (tileFail d)
    return w
  | .tfree a => w.dropHandle a
  | .tgiveRing a line => do
    let w ← w.dropHandle a
    return w.ring line
  | .tgiveRole a _ => w.dropHandle a
  | .ttakeRing d t line => do
    let w ← w.takeHandle d t.toNat
    return w.ring line
  | .ttakeRole d t => w.takeHandle d t.toNat
  | .tld h _ _ x => do
    let t ← w.k.handle h
    must (x.mode.toNat == t) (tileFail h)
    w.rows c t (o 0) (o 1) x.off.toInt 0
  | .tst h _ _ x => do
    let t ← w.k.handle h
    w.rows c t (o 0) (o 1) x.off.toInt rWrite
  | .tcvt d a s _ => do
    let x ← w.k.handle a
    let y ← w.k.handle d
    must (a != d && sliceOk x y s.toNat) (tileFail d)
    return w
  | .tspread d a _ _ => do
    let x ← w.k.handle a
    let y ← w.k.handle d
    must (x == y) (tileFail d)
    return w
  | .ttag h a b _ zv _ => do
    let x ← w.k.handle h
    let y ← w.k.handle a
    must (x == 7 || x == 9) (tileFail h)
    must (y == 2) (tileFail a)
    if zv = 1#1 then
      let z ← w.k.handle b
      must (z == 7) (tileFail b)
    return w
  | .ttagXval h _ => do
    let x ← w.k.handle h
    must (x == 8) (tileFail h)
    return w
  | .mxPass s a b _ _ => w.pass a b s
  | .mxQpass _ s a b _ _ => w.pass a b s
  | .mxBpass s a b _ _ => w.pass a b s
  | .mxStream _ _ _ => g.access w (o 2) none 0 (some 8) rWrite 8
  | .mxDrainMem _ _ x =>
    let row := if x.mode.getLsbD 1 then 64 else 128
    let stride := if x.off = 0#20 then row else x.off.toNat
    w.drainRows c (o 0) stride row
  | .mxDrainTile d _ _ _ _ => do
    let x ← w.k.handle d
    must (decide (x ≤ 3)) (tileFail d)
    return w
  | .mxDrainColl _ _ _ _ _ => do
    g.checkRights (o 0) rEngDst
    g.receive w (o 0) (o 1) 32
  | .mxEpi h x =>
    if x.mode = 1#4 then do
      let t ← w.k.handle h
      must (t == 0) (tileFail h)
      return w
    else .ok w
  | .hmPut d ws _ _ _ => do
    needLabel (o 1)
    return w.status c d ws
  | .hmRput d ws _ _ => do
    needLabel (o 1)
    return w.status c d ws
  | .hmGet d _ => w.getRecord c d
  | .hmKscfgOpen d ws _ _ _ => do
    let w ← g.access w (o 0) none 0 ((g.greatest w.k (o 1)).map fun n => 64 * (n + 1)) (rWrite + rAtom) 16
    return w.status c d ws
  | .hmKscfgQuery d ws _ => .ok (w.status c d ws)
  | .hmKscfgClose d ws _ => .ok (w.status c d ws)
  | .hmGdrain d _ _ _ => w.saveArea c o rWrite d
  | .hmGreload d _ _ _ => w.saveArea c o 0 d
  | .rdsys d s => .ok (w.readReg c d (sysReg64 s) (if s = 0x011#12 then .n64 else if sysReg64 s then .b64 else .n32))
  | .ctrRd d _ => .ok (w.readReg c d true .n64)
  | .vregGrow n => w.budget c (8 * n.toNat) true
  | .vregShrink n => w.budget c (8 * n.toNat) false
  | .schedHint d ws _ _ => .ok (w.hint c d ws)
  | .pref d ws _ _ _ => .ok (w.hint c d ws)
  | .evictHint d ws _ _ _ => .ok (w.hint c d ws)
  | .unimplementedHint _ d ws _ _ _ => .ok (w.hint c d ws)
  | _ => .ok (w.plain c r (o 0))

/-! ### Rules common to every class -/

/-- The opcode of an instruction's first word. -/
def opcodeOf (i : Instr) : Nat :=
  match encode i with
  | w :: _ => (opOf w).toNat
  | [] => 0

/-- The X-M word of an instruction that has one (R197 to R199). -/
def xmOf (i : Instr) : Option XM :=
  let op := opcodeOf i
  let has := match classOf i with
    | 2 => !(0x31 ≤ op && op ≤ 0x34) && op != 0x3B
    | 3 => [0x04, 0x05, 0x15, 0x16, 0x18, 0x19].contains op
    | _ => false
  match encode i with
  | [_, x] => if has then some (splitXM x) else none
  | _ => none

/-- The epilogue subset (R320). -/
def epilogueOk (i : Instr) : Bool :=
  let op := opcodeOf i
  match classOf i with
  | 0 => decide (op ≤ 0x2F) || op == 0x3C || (decide (0x40 ≤ op) && decide (op ≤ 0x49)) || (decide (0x50 ≤ op) && decide (op ≤ 0x59))
  | 1 => decide (op ≤ 0x69)
  | _ => false

/-- The epilogue flag of a drain. -/
def drainsWithEpilogue (i : Instr) : Bool :=
  match i with
  | .mxDrainMem _ _ x => x.mode.getLsbD 2
  | .mxDrainTile _ _ _ _ f => f == 1#1
  | .mxDrainColl e _ _ _ _ => e == 1#1
  | _ => false

/-- The feature bits that an instruction requires besides bit 0 (R462). -/
def featuresOf (i : Instr) : List Nat :=
  let op := opcodeOf i
  let within := fun (a b : Nat) => decide (a ≤ op) && decide (op ≤ b)
  let blanket := match i with
    | .talloc _ _ f => f == 1#1
    | _ => false
  let seq := match xmOf i with
    | some x => x.scope == 5#3 && x.order == oSeqCst
    | none => false
  let bits := match classOf i with
    | 1 =>
      (if within 0x10 0x1B then [1] else []) ++ (if within 0x20 0x27 then [2] else []) ++
        (if within 0x56 0x59 || within 0x5B 0x5C then [3] else []) ++
        (if [0x5A, 0x5D, 0x61, 0x63, 0x66, 0x69].contains op then [4] else []) ++ (if within 0x60 0x63 then [5] else [])
    | 2 =>
      (if within 0x10 0x18 then [6] else []) ++ (if within 0x19 0x1E then [7] else []) ++ (if op = 0x39 then [14] else []) ++
        (if op = 0x3A then [15] else []) ++ (if op = 0x34 then [16] else []) ++ (if within 0x3C 0x3D then [18] else [])
    | 3 =>
      (if op = 0x07 || op = 0x14 || blanket then [9] else if within 0x00 0x08 || within 0x10 0x13 || within 0x16 0x1A then [8] else []) ++
        (if op = 0x15 then [10] else []) ++ (if op = 0x19 || drainsWithEpilogue i then [11] else []) ++ (if op = 0x18 then [15] else [])
    | 4 => if op = 0x01 then [13] else if op = 0x00 || within 0x02 0x04 then [12] else []
    | 5 => if within 0x09 0x0A then [19] else []
    | _ => []
  bits ++ (if seq then [17] else [])

/-- An instruction's modifiers match a row of R202 that does not depend on the page's class. -/
def modifiersFall (i : Instr) : Bool :=
  match xmOf i with
  | none => false
  | some x =>
    let op := opcodeOf i
    let falls := fun k => (fallbacks k none x.scope x.order).warn != 0#4
    if classOf i = 2 then
      if op ≤ 0x06 then falls (.load (op == 0x06))
      else if op ≤ 0x0C then falls (.store (op == 0x0C))
      else if op ≤ 0x12 then falls (.load (op == 0x12))
      else if op ≤ 0x15 then falls (.store (op == 0x15))
      else if op = 0x16 then x.ret == retBypass
      else if 0x20 ≤ op ∧ op ≤ 0x2F then falls .atomic
      else if op = 0x30 then falls .fence || x.ret != retDefault
      else if 0x38 ≤ op ∧ op ≤ 0x3A then (engineFallbacks x.scope x.order).2 != 0#4
      else if op = 0x3C then (lockFallbacks x none oAcquire).2 != 0#4
      else if op = 0x3D then (lockFallbacks x none oRelease).2 != 0#4
      else false
    else if op = 0x04 then falls (.load false)
    else if op = 0x05 then falls (.store true)
    else if op = 0x15 ∨ op = 0x16 ∨ op = 0x18 then (engineFallbacks x.scope x.order).2 != 0#4
    else false

/-- The warnings of an instruction (R249). -/
def warningsOf (i : Instr) : List Nat :=
  match i with
  | .unimplementedHint _ _ _ _ _ _ => [901]
  | .pref _ _ _ _ x => if hintWarn x = 0#4 then [] else [900]
  | .evictHint _ _ _ _ x => if hintWarn x = 0#4 then [] else [900]
  | i => if modifiersFall i then [900] else []

/-- The words of a record block that `hm.put` and `hm.rput` read are vector registers at all (R412). -/
def blockFits (i : Instr) (xs : List Src) : Chk Unit :=
  let fits := checkAll xs fun x => must (decide (x.sel + (if x.wide then 1 else 0) < 128)) { rule := 22, reg := some (x.sel % 256), regKind := some 0 }
  match i with
  | .hmPut _ _ _ _ _ => fits
  | .hmRput _ _ _ _ => fits
  | _ => .ok ()

/-- THE RULE OF ONE INSTRUCTION (R235): the first row, the epilogue subset, the rule of its class, and the guest's features. -/
def Ctx.check (c : Ctx) (w : Walk) (i : Instr) : Chk Walk := do
  let x := w.k.shape i
  blockFits i x.srcs
  w.k.firstRow x.srcs
  must (!c.epi || epilogueOk i) { rule := 38 }
  let os := x.srcs.map (c.g.opnd w.k c.hidden)
  let w ← c.rule w x.res (fun n => os.getD n Opnd.none) i
  must (classOf i == 6 || (featuresOf i).all c.g.feat.getLsbD) { rule := 37 }
  return w

end Sys2Proof.Machine.Stile
end

