-- ==== Sys2Proof/Machine/StileWalk.lean ====
section
/-! DEFINITION. The walk of the Stile (R233, R234, R243, R245 to R248, R376, R381, R509): clauses, edges, loops, stream bodies,
epilogues, and the blocks in their order. -/

namespace Sys2Proof.Machine.Stile

/-! ### Word formats (R185, R195 to R199) -/

inductive Fmt where
  | a
  | ai
  | ap
  /-- AP with IMM8 -/
  | api
  | as
  | b
  | c
  | l
  | m
  | h
  | hm
  | s
  deriving DecidableEq, Repr

def between (x a b : Nat) : Bool := decide (a ≤ x) && decide (x ≤ b)

/-- The format of an opcode; none where it is reserved. -/
def fmtOf (cls op : Nat) : Option Fmt :=
  match cls with
  | 0 =>
    if op = 0x01 || op = 0x03 || between op 0x1A 0x1E || between op 0x2B 0x2D || op = 0x8A then some .ai
    else if op = 0x3B then some .as
    else if between op 0x40 0x4F || between op 0x56 0x59 then some .ap
    else if between op 0x50 0x55 then some .api
    else if op = 0x80 then some .b
    else if op = 0x82 then some .c
    else if op = 0x87 then some .l
    else if between op 0x00 0x3D || between op 0x60 0x62 || between op 0x81 0x89 then some .a
    else none
  | 1 =>
    if between op 0x65 0x69 then some .ai
    else if between op 0x30 0x36 || op = 0x96 || op = 0x97 || op = 0x99 then some .ap
    else if between op 0x00 0x2B || between op 0x40 0x64 || between op 0x80 0x98 then some .a
    else none
  | 2 =>
    if between op 0x00 0x06 || between op 0x08 0x0C || between op 0x10 0x15 || between op 0x20 0x2F || between op 0x3C 0x3D then some .m
    else if between op 0x19 0x1E || op = 0x3B then some .as
    else if op = 0x33 then some .ai
    else if between op 0x16 0x18 || between op 0x30 0x34 || between op 0x38 0x3A then some .a
    else none
  | 3 =>
    if [0x04, 0x05, 0x15, 0x16, 0x18, 0x19].contains op then some .hm
    else if between op 0x00 0x08 || between op 0x10 0x1A then some .h
    else none
  | 4 => if op ≤ 0x06 then some .a else none
  | 5 =>
    if [0x00, 0x04, 0x05, 0x09, 0x0A].contains op then some .ai
    else if op = 0x01 || op = 0x08 then some .a
    else if op ≤ 0x0A then some .s
    else none
  | 6 => some .a
  | _ => none

/-- Words of an instruction from its first; none where the opcode is reserved. -/
def instrLen (cls : Nat) (w : Word) : Option Nat :=
  let op := (opOf w).toNat
  if (fmtOf cls op).isNone then none
  else
    match cls with
    | 0 =>
      if op = 0x87 then some (1 + fldN w 17 3)
      else if between op 0x23 0x26 || op = 0x2F || op = 0x3A || op = 0x3C || op = 0x3D || op = 0x60 || op = 0x62 then some 2
      else some 1
    | 2 => some (if between op 0x31 0x34 || op = 0x3B then 1 else 2)
    | 3 => some (if [0x04, 0x05, 0x08, 0x15, 0x16, 0x18, 0x19].contains op then 2 else 1)
    | 4 => some 2
    | 6 => some (if 0x80 ≤ op then 2 else 1)
    | _ => some 1

/-! ### Stepped fields (R194, R248) -/

/-- The word that an increment names holds its field: `w` is the first word of the instruction, at number `k`. -/
def holds (cls : Nat) (k : Nat) (w : Word) (i : LoopInc) : Bool :=
  match fmtOf cls (opOf w).toNat with
  | none => false
  | some f =>
    if i.fld = 3#2 then
      i.wd.toNat == k + 1 && ((cls == 2 && instrLen cls w == some 2) || (cls == 3 && f == .hm) || (cls == 6 && instrLen cls w == some 2))
    else
      i.wd.toNat == k &&
        (match f with
          | .a | .ap | .as | .m => true
          | .ai | .api => i.fld != 2#2
          | .hm => i.fld != 0#2
          | _ => false)

/-- The value that a field encodes: register fields as they stand, OFF with its sign unless the instruction reads it
unsigned (R330, R341, R378). -/
def fieldValue (cls : Nat) (w x : Word) (f : BitVec 2) : Int :=
  if f = 0#2 then fldN w 17 7
  else if f = 1#2 then fldN w 8 8
  else if f = 2#2 then fldN w 0 8
  else
    let op := (opOf w).toNat
    let unsigned := (cls == 2 && (between op 0x16 0x18 || between op 0x38 0x3A)) || (cls == 3 && op == 0x16)
    if unsigned then fldN x 0 20 else (fld x 0 20 : BitVec 20).toInt

/-- The least and greatest operand of the same kind. -/
def fieldRange (cls : Nat) (w x : Word) (f : BitVec 2) : Int × Int :=
  if f = 0#2 then
    match fmtOf cls (opOf w).toNat with
    | some .as => (0, 63)
    | some .ap | some .api => (0, 7)
    | _ => (0, 127)
  else if f = 3#2 then
    let op := (opOf w).toNat
    let unsigned := (cls == 2 && (between op 0x16 0x18 || between op 0x38 0x3A)) || (cls == 3 && op == 0x16)
    if unsigned then (0, 2 ^ 20 - 1) else (-(2 ^ 19), 2 ^ 19 - 1)
  else
    let v := fieldValue cls w x f
    if v < 0x80 then (0, 0x7F) else if v < 0x84 then (0x80, 0x83) else if v < 0xC0 then (0x84, 0xBF) else (0xC0, 0xFF)

/-- The passes in which stepped fields are looked at: every one while a field can step from operand to operand, and the last. -/
def passesOf (count : Nat) : List Nat := if count = 0 then [] else List.range (min count 257) ++ [count - 1]

/-- The increments of a loop that step the instruction at word `k` of body clause `j`. -/
def stepsAt (incs : List LoopInc) (cls j k : Nat) (w : Word) : List LoopInc :=
  incs.filter fun i => i.cl.toNat == j && holds cls k w i

/-- Every value of the stepped fields of an instruction is a legal operand of its kind. -/
noncomputable def stepsLegal (incs : List LoopInc) (cl : Clause) (j k count : Nat) : Bool :=
  let cls := hdrClass cl.hdr
  let w := cl.words.getD (k - 1) 0
  let x := cl.words.getD k 0
  let mine := stepsAt incs cls j k w
  let total := fun (f : BitVec 2) => ((mine.filter fun i => i.fld == f).map fun i => i.step.toInt).sum
  mine.isEmpty || count == 0 ||
    ((mine.all fun i =>
        let last := fieldValue cls w x i.fld + total i.fld * (count - 1 : Nat)
        let r := fieldRange cls w x i.fld
        decide (r.1 ≤ last) && decide (last ≤ r.2)) &&
      (passesOf count).all fun p =>
        match decode cls ((loopWords incs j p cl.words).drop (k - 1)) with
        | .ok _ => true
        | .error _ => false)

/-- Every stepped field of the clauses of a body is legal in every pass (R194, R248). -/
noncomputable def bodyStepsLegal (incs : List LoopInc) (body : List Clause) (count : Nat) : Bool :=
  ((List.range body.length).zip body).all fun x => x.2.instrs.all fun e =>
    match e.2 with
    | .ok _ => stepsLegal incs x.2 x.1 e.1 count
    | .error _ => true

/-! ### What surrounds the walk -/

structure Env where
  g : Kern
  landing : List Nat
  landAnn : Option Entry
  /-- for each block, by offset, the roles that reach it -/
  reach : List (Nat × List (Nat × Nat × Nat × Nat))
  deriving DecidableEq, Repr

/-- The loop whose body is being walked: its increments, the number of this clause, the count, and the state at the `loop`. -/
structure Body where
  incs : List LoopInc
  idx : Nat
  count : Nat
  atLoop : Know
  deriving DecidableEq, Repr

def Env.ctx (e : Env) (b : Entry) (cl : Clause) (hidden : List Nat) : Ctx :=
  { g := e.g, epi := b.epi != 0, roles := alookup e.reach b.off [], next := cl.next, guarded := !cl.unguarded, hidden := hidden,
    landing := e.landing, landAnn := e.landAnn }

/-! ### Marks at headers and edges (R243) -/

/-- A header clears a mark. -/
def clears (h : Word) (c0 : Nat) (m : Mark) : Bool :=
  (hdrWmask h).getLsbD m.counter && (if m.counter = 0 then decide (hdrThreshold h 0 ≤ c0 - m.seq - 1) else hdrThreshold h m.counter == 0)

def Walk.header (w : Walk) (h : Word) : Walk :=
  { w with k := { w.k with marks := w.k.marks.filter fun e => !clears h w.seen.c0 e.2 } }

/-- At an edge every mark must be one that the target's first clause waits for at threshold 0. -/
def checkMarks (k : Know) (h : Word) (target : Nat) : Chk Unit :=
  match k.marks.find? fun e => !((hdrWmask h).getLsbD e.2.counter && hdrThreshold h e.2.counter == 0) with
  | some e => .error { Fail.ofReg 42 e.1 with target := some target }
  | none => .ok ()

def Env.headerAt (e : Env) (off : Nat) : Word :=
  match e.g.clause off with
  | some c => c.hdr
  | none => 0

/-- An edge to the block at an offset. -/
def Env.edge (e : Env) (k : Know) (off : Nat) : Chk Unit :=
  match e.g.block off with
  | some t => do
    e.g.edge k t
    checkMarks k (e.headerAt off) off
  | none => .error { rule := 8, target := some off }

/-- The relation that a branch adds when it is taken, or when it is not. -/
def Know.branch (k : Know) (p : Nat) (neg : Bool) : Know :=
  match k.rel p with
  | some r => { k with given := k.given ++ r.pick neg }
  | none => k

/-! ### Control transfers -/

def isControl (i : Instr) : Bool :=
  match i with
  | .bra _ _ _ | .jmp _ | .call _ _ | .callInd _ _ | .ret _ | .exit | .loop _ _ _ => true
  | _ => false

/-- The offset of a direct target. -/
def targetOf (off : Nat) (i : Instr) : Option Int :=
  match i with
  | .bra _ _ o => some (off + 4 * o.toInt)
  | .call _ o => some (off + 4 * o.toInt)
  | .mxEpi _ x => some (off + 4 * x.off.toInt)
  | _ => none

/-- Lanes go on past the clause. -/
def Clause.falls (c : Clause) : Bool :=
  !c.unguarded || (match c.last with
    | some (_, .jmp _) => false
    | some (_, .ret _) => false
    | some (_, .exit) => false
    | some (_, .call _ _) => false
    | some (_, .callInd _ _) => false
    | some (_, .bra p n _) => !(p == 7#3 && n == 0#1)
    | _ => true)

/-- What is known where lanes go on past an unguarded clause that ends in a conditional branch. -/
def Know.fallen (k : Know) (c : Clause) : Know :=
  match c.unguarded, c.last with
  | true, some (_, .bra p n _) => k.branch p.toNat (n == 0#1)
  | _, _ => k

/-! ### Epilogues (R381) -/

/-- The epilogue image. -/
def epilogueImage (bound : Bool) : Know :=
  let small := fun n => [Fact.diff .zero (.vreg n) 0, Fact.diff (.vreg n) .zero 31]
  { Know.empty with
    types := [(.v 0, .b32), (.v 1, .n32), (.v 2, .n32)] ++ (if bound then (List.range 16).map fun i => (.v (3 + i), .b32) else []),
    facts := small 1 ++ small 2, budget := 128 }

/-- The binding of an epilogue. -/
def Env.epilogue (e : Env) (off : Nat) (x : XM) : Chk Unit :=
  let t := (off : Int) + 4 * x.off.toInt
  match (e.g.block t.toNat).filter fun b => b.epi == 1 && decide (0 ≤ t) with
  | some b => e.g.edge (epilogueImage (x.mode == 1#4)) b
  | none => .error { rule := 41, target := some (t.toNat % 2 ^ 32) }

/-! ### Instructions -/

/-- The edges that leave at an instruction. -/
def Env.leave (e : Env) (cl : Clause) (k : Know) (i : Instr) : Chk Unit :=
  match i with
  | .bra p n o => e.edge (k.branch p.toNat (n == 1#1)) ((cl.off : Int) + 4 * o.toInt).toNat
  | .call _ o => e.edge k ((cl.off : Int) + 4 * o.toInt).toNat
  | .mxEpi _ x => e.epilogue cl.off x
  | _ => .ok ()

/-- What is known after either of two ways to perform an instruction: each fact that both give, with the weaker constant. -/
def Know.either (a b : Know) : Know :=
  let both := fun (fs gs : List Fact) => fs.filterMap fun f =>
    match f with
    | .diff x y c => gs.findSome? fun g =>
        match g with
        | .diff p q d => if p = x ∧ q = y then some (Fact.diff x y (max c d)) else none
        | .affine .. => none
    | f => if gs.contains f then some f else none
  { a with facts := both a.facts b.facts, given := both a.given b.given,
           aligns := a.aligns.map fun e => (e.1, min e.2 (b.align e.1)),
           rels := a.rels.filter fun e => b.rels.contains e,
           marks := a.marks ++ b.marks.filter fun m => !a.marks.contains m }

/-- The types that stepped sources hold at the loop. -/
def Know.steppedTypes (k : Know) (hidden : List Nat) (i : Instr) : List (Option Ty) :=
  ((k.shape i).srcs.filter fun x => hidden.contains x.slot && (regOf x.sel).isSome).map k.srcTy

/-- Registers written with a type other than the one at the loop. -/
def Walk.strays (w : Walk) (atLoop : Know) (before : List Reg) : Option Reg :=
  (w.touched.drop before.length).find? fun r => w.k.ty r != atLoop.ty r

/-- An instruction with stepped fields: its rule in every pass, on registers of one type. It writes what it writes in any pass,
of one type, and what is known after it holds whichever pass it was; of the registers of a stepped destination nothing is
known but their type (R248). It is one instruction of the walk, whatever its passes (R243). -/
noncomputable def Env.stepped (e : Env) (b : Entry) (cl : Clause) (y : Body) (steps : List LoopInc) (w : Walk) (k : Nat) (i : Instr) : Chk Walk := do
  let hidden := (steps.filter fun s => s.fld != 3#2).map fun s => s.fld.toNat
  let c := e.ctx b cl hidden
  let ps := if y.count = 0 then [0] else passesOf y.count
  let is := ps.filterMap fun p =>
    match decode (hdrClass cl.hdr) ((loopWords y.incs y.idx p cl.words).drop (k - 1)) with
    | .ok (i, _) => some i
    | .error _ => none
  must (is.all fun x => y.atLoop.steppedTypes hidden x == y.atLoop.steppedTypes hidden i) { rule := 34 }
  let news := fun (n : Walk) => n.touched.drop w.touched.length
  let runs ← is.foldlM (fun (acc : List Walk) x => do
    let seen := ((acc.getLast?).getD w).seen
    let n ← c.check { w with seen := { seen with c0 := w.seen.c0, warns := w.seen.warns } } x
    let stray := if hidden.contains 0 then n.strays y.atLoop w.touched
      else (news n).find? fun r => acc.any fun m => m.k.ty r != n.k.ty r
    match stray with
    | some r => .error { Fail.ofReg 34 r with expect := some (codeOfTy (y.atLoop.ty r)), found := some (codeOfTy (n.k.ty r)) }
    | none => return acc ++ [n]) []
  match runs with
  | [] => .ok w
  | first :: rest => do
    let all := (runs.flatMap news).eraseDups
    let joined := rest.foldl (fun k (n : Walk) => k.either n.k) first.k
    let kept := if hidden.contains 0 then all.foldl (fun (k : Know) r => k.forget r) joined else joined
    let typed := runs.foldl (fun k (n : Walk) => (news n).foldl (fun (k : Know) r => k.setTy r (n.k.ty r)) k) kept
    let old := if c.guarded then w.k.marks else w.k.marks.filter fun m => !all.contains m.1
    let marked := { typed with marks := old ++ joined.marks.filter fun m => all.contains m.1 && !old.contains m }
    return { k := marked, seen := ((rest.getLast?).getD first).seen, touched := w.touched ++ all }

/-- One instruction at its place. -/
noncomputable def Env.instr (e : Env) (b : Entry) (cl : Clause) (body : Option Body) (w : Walk) (x : Nat × Except Reject Instr) : Chk Walk :=
  located (some b.idx) (cl.off + 4 * x.1) x.1 (do
    match x.2 with
    | .error r => .error { rule := r.code }
    | .ok i =>
      must (!(body.isSome && isControl i)) { rule := 34 }
      let plain := (e.ctx b cl []).check w i
      let w ← match body with
        | none => plain
        | some y =>
          match stepsAt y.incs (hdrClass cl.hdr) y.idx x.1 (cl.words.getD (x.1 - 1) 0) with
          | [] => plain
          | steps => e.stepped b cl y steps w x.1 i
      e.leave cl w.k i
      return { w with seen := { w.seen with warns := w.seen.warns ++ warningsOf i } })

/-! ### Clauses (R234) -/

/-- What survives a guarded clause. -/
def Know.merged (before after : Know) (touched : List Reg) : Know :=
  let k := touched.foldl (fun (k : Know) r => (k.forget r).setTy r (if after.ty r = before.ty r then before.ty r else none)) before
  { k with locks := after.locks, budget := after.budget, marks := after.marks, latches := after.latches }

/-- A clause. -/
noncomputable def Env.clause (e : Env) (b : Entry) (body : Option Body) (w : Walk) (cl : Clause) : Chk Walk := do
  let w := w.header cl.hdr
  let g := if hdrPred cl.hdr = 7 then [] else
    match w.k.rel (hdrPred cl.hdr) with
    | some r => r.pick (hdrNeg cl.hdr)
    | none => []
  let before := { w.k with latches := noLatches }
  let n ← cl.instrs.foldlM (e.instr b cl body) { w with k := { before with given := g }, touched := [] }
  return if cl.unguarded then { n with k := { n.k with given := [] } } else { n with k := before.merged n.k n.touched }

/-! ### Stream bodies (R376) -/

/-- A handle field is 0 or a ring reference. -/
def ringRef (h : BitVec 5) : Bool := fld h 3 2 == 0#2

def streamInstr (i : Instr) : Bool :=
  match i with
  | .mxPass _ a b _ _ => ringRef a && ringRef b
  | .mxBpass _ a b _ _ => ringRef a && ringRef b
  | .mxZero _ _ => true
  | _ => false

def streamClause (b : Entry) (cl : Clause) : Chk Unit := do
  located (some b.idx) cl.off 0 (must (hdrClass cl.hdr == 3 && cl.unguarded && hdrWmask cl.hdr == 0#4 && !hdrYield cl.hdr &&
    !hdrBstart cl.hdr) { rule := 40 })
  checkAll cl.instrs fun x => located (some b.idx) (cl.off + 4 * x.1) x.1 (match x.2 with
    | .ok i => must (streamInstr i) { rule := 40 }
    | .error r => .error { rule := r.code })

/-- The stream that a clause starts: its word number, and the clauses of its body. -/
def Clause.stream (c : Clause) : Option (Nat × Nat) :=
  c.instrs.foldl (fun acc x =>
    match x.2 with
    | .ok (.mxStream n _ _) => some (x.1, n.toNat)
    | _ => acc) none

/-- The clauses that follow the body of a stream that a clause starts. -/
def streamBody (b : Entry) (cl : Clause) (rest : List Clause) : Chk (List Clause) := do
  match cl.stream with
  | none => .ok rest
  | some (k, n) =>
    located (some b.idx) (cl.off + 4 * k) k (must (decide (1 ≤ n) && decide (n ≤ rest.length)) { rule := 40 })
    checkAll (rest.take n) (streamClause b)
    .ok (rest.drop n)

/-! ### Loops (R248) -/

/-- The clauses of a body, with the registers that they write. -/
noncomputable def Env.bodyRun (e : Env) (b : Entry) (y : Body) : Nat → List Clause → Walk → List Reg → Chk (Walk × List Reg)
  | _, [], w, ts => .ok (w, ts)
  | 0, _, w, ts => .ok (w, ts)
  | n + 1, cl :: rest, w, ts => do
    let w ← e.clause b (some y) w cl
    let after ← streamBody b cl rest
    e.bodyRun b { y with idx := y.idx + 1 + (rest.length - after.length) } n after w (ts ++ w.touched)

/-- The number of passes: the literal, or the constant that bounds the count. -/
def Kern.passCount (g : Kern) (k : Know) (cnt : BitVec 8) : Option Nat :=
  match constValue cnt.toNat with
  | some v => some v.toNat
  | none => ((g.upper k (.sreg (cnt.toNat - 0xC0))).filter fun _ => (k.ty (.s (cnt.toNat - 0xC0))).any Ty.hasFacts).map Int.toNat

/-- A loop: `w` is the state at the `loop` word, `k` its number. -/
noncomputable def Env.loop (e : Env) (b : Entry) (cl : Clause) (k : Nat) (ncl : Nat) (cnt : BitVec 8) (incs : List LoopInc) (guard : List Fact)
    (rest : List Clause) (w : Walk) : Chk Walk := do
  let g := e.g
  let here := fun {α : Type} (x : Chk α) => located (some b.idx) (cl.off + 4 * k) k x
  let body := rest.take ncl
  let last := body.getLast?.getD cl
  match g.loopEntry cl.off with
  | none => here (.error { rule := 12 })
  | some t =>
    let count ← here (match g.passCount { w.k with given := guard } cnt with
      | some n => .ok n
      | none => .error { rule := 34 })
    here (must (bodyStepsLegal incs body count) { rule := 11 })
    here (do
      g.checkItems w.k 34 34 t.off t.types (t.facts.map Fact.atEntry)
      w.k.checkRest t
      checkMarks w.k (e.headerAt last.next) last.next)
    let start : Know := { w.k with facts := [], given := [], passMax := some (count - 1), aligns := [], rels := [], latches := noLatches }
    let y : Body := { incs := incs, idx := 0, count := count, atLoop := w.k }
    let (n, ts) ← e.bodyRun b y body.length body (({ w with k := start } : Walk).addAll (t.facts ++ guard)) []
    let lastK := match last.instrs.getLast? with
      | some x => x.1
      | none => 0
    located (some b.idx) (last.off + 4 * lastK) lastK (do
      g.checkItems n.k 34 34 t.off t.types (t.facts.map Fact.atEnd)
      match ts.find? fun r => n.k.ty r != w.k.ty r with
      | some r => .error { Fail.ofReg 34 r with expect := some (codeOfTy (w.k.ty r)), found := some (codeOfTy (n.k.ty r)) }
      | none => .ok ()
      n.k.checkRest t
      match body with
      | c :: _ => checkMarks n.k c.hdr c.off
      | [] => .ok ())
    return { n with k := { n.k with facts := t.facts.filter fun f => !f.namesPass, given := [], passMax := none, aligns := [], rels := [],
                                    latches := noLatches, budget := min w.k.budget n.k.budget },
                    touched := [] }

/-- The `loop` that a clause ends in. -/
def Clause.loop (c : Clause) : Option (Nat × Nat × BitVec 8 × List LoopInc) :=
  match c.last with
  | some (k, .loop ncl cnt incs) => some (k, ncl.toNat, cnt, incs)
  | _ => none

/-! ### Blocks -/

/-- The next entry of the same epilogue lies at an offset. -/
def Env.sameEpilogue (e : Env) (off : Nat) : Bool :=
  match e.g.block off with
  | some t => t.epi == 2
  | none => false

/-- The end of a block, after the clause `cl` whose last instruction is at word `k`: the code that follows is at `next`. -/
def Env.blockEnd (e : Env) (b : Entry) (w : Walk) (cl : Clause) (falls : Bool) (next : Nat) : Chk Unit :=
  let k := match cl.instrs.getLast? with
    | some x => x.1
    | none => 0
  located (some b.idx) (cl.off + 4 * k) k (
    if b.epi ≠ 0 ∧ !e.sameEpilogue next then
      match w.k.ty (.v 0) with
      | some t => must (all32.contains t) { Fail.ofReg 41 (.v 0) with found := some t.code16 }
      | none => .error { Fail.ofReg 41 (.v 0) with found := some 0 }
    else if falls && e.g.startsAt next then e.edge w.k next
    else .ok ())

/-- The clauses of a block. -/
noncomputable def Env.run (e : Env) (b : Entry) : Nat → List Clause → Walk → Chk Walk
  | _, [], w => .ok w
  | 0, _, w => .ok w
  | n + 1, cl :: rest, w => do
    let w1 ← e.clause b none w cl
    match cl.loop with
    | some (k, ncl, cnt, incs) =>
      let guard := if cl.unguarded then [] else
        match (w.header cl.hdr).k.rel (hdrPred cl.hdr) with
        | some r => r.pick (hdrNeg cl.hdr)
        | none => []
      let w2 ← e.loop b cl k ncl cnt incs guard rest w1
      let after := rest.drop ncl
      let last := (rest.take ncl).getLast?.getD cl
      match after with
      | [] => do
        e.blockEnd b w2 last true last.next
        .ok w2
      | after => e.run b n after w2
    | none =>
      let after ← streamBody b cl rest
      let last := (rest.take (rest.length - after.length)).getLast?.getD cl
      match after with
      | [] => do
        e.blockEnd b { w1 with k := w1.k.fallen cl } cl cl.falls last.next
        .ok w1
      | after => e.run b n after w1

/-- The clauses from a block's first header to the next header with BSTART. -/
def Kern.clausesOf (g : Kern) (b : Entry) : List Clause :=
  match g.clauses.dropWhile fun c => c.off != b.off with
  | [] => []
  | c :: rest => c :: rest.takeWhile fun c => !hdrBstart c.hdr

/-- The state that an annotation gives. -/
def startOf (types : List (Reg × Option Ty)) (facts : List Fact) (locks : BitVec 8) (budget : Nat) (seen : Seen) : Walk :=
  let k : Know := { Know.empty with locks := locks, budget := budget,
                                    types := types.filterMap fun t => t.2.map fun u => (t.1, u) }
  ({ k := k, seen := seen, touched := [] } : Walk).addAll facts

def Seen.empty : Seen := { minLen := [], stashMin := 0, warns := [], c0 := 0 }

/-- The launch image of a role (R245). -/
def Kern.launchImage (g : Kern) (budget : Nat) : Know :=
  let regions := List.range g.regions
  { Know.empty with
    budget := budget,
    types := (regions.flatMap fun j => [(.s (2 * j), .ptr 4 j), (.s (2 * j + 1), .n64)]) ++
      ((List.range g.locks).map fun l => (.s (32 + l), .lock l)) ++ ((List.range 24).map fun i => (.s (40 + i), .b64)),
    facts := regions.flatMap fun j =>
      [.affine (.s (2 * j)) j 1 .zero 0, .diff (.sreg (2 * j + 1)) (.len j) 0, .diff (.len j) (.sreg (2 * j + 1)) 0] }

/-- One block: the launch image of each role that enters it, and its clauses. -/
noncomputable def Env.block (e : Env) (seen : Seen) (b : Entry) : Chk Seen := do
  checkAll (e.g.roles.filter fun r => r.1 == b.idx) fun r => located (some b.idx) b.off 0 (e.g.edge (e.g.launchImage r.2.2.1) b)
  let cs := e.g.clausesOf b
  let w ← e.run b cs.length cs (startOf b.types b.facts b.lockset b.budget seen)
  return w.seen

/-! ### Landing blocks and the roles that reach a block (R246, R509) -/

/-- The landing annotation. -/
def Kern.landing (g : Kern) : Option Entry :=
  match g.roles with
  | r :: _ => (g.roleEntry r).map fun e =>
    { e with lockset := 0, budget := g.minBudget,
             types := e.types.filter fun t => match t.1 with
               | .h _ => false
               | _ => true }
  | [] => none

def Kern.landKnow (_g : Kern) (e : Entry) (budget : Nat) : Know := (startOf e.types e.facts 0 budget Seen.empty).k

/-- Offsets of the blocks whose annotation the landing annotation entails; without the budget check where `any` holds. -/
def Kern.landingBlocks (g : Kern) (anyBudget : Bool) : List Nat :=
  match g.landing with
  | none => []
  | some e => (g.blocks.filter fun b => passes (g.edge (g.landKnow e (if anyBudget then 128 else e.budget)) b)).map fun b => b.off

/-- Offsets to which a block hands its roles on. -/
def Kern.successors (g : Kern) (b : Entry) : List Nat :=
  let cs := g.clausesOf b
  let jumps := cs.flatMap fun c => c.instrs.flatMap fun x =>
    match x.2 with
    | .ok (.bra _ _ o) => [((c.off : Int) + 4 * o.toInt).toNat]
    | .ok (.call _ o) => [((c.off : Int) + 4 * o.toInt).toNat, c.next]
    | .ok (.callInd _ _) => [c.next]
    | _ => []
  let afterLoops := cs.filterMap fun c => c.loop.bind fun l => ((g.clauses.dropWhile fun x => x.off != c.off).drop l.2.1).head?.map Clause.next
  let fall := match cs.getLast? with
    | some c => if c.falls then [c.next] else []
    | none => []
  jumps ++ afterLoops ++ fall

/-- One round of handing roles on. -/
def Kern.spread (g : Kern) (sets : List (Nat × List Nat)) : List (Nat × List Nat) :=
  g.blocks.foldl (fun sets b =>
    let mine := alookup sets b.off []
    (g.successors b).foldl (fun sets t =>
      match g.block t with
      | some x => if x.epi = 0 then aset sets t (alookup sets t [] ++ mine.filter fun r => !(alookup sets t []).contains r) else sets
      | none => sets) sets) sets

/-- The roles that reach each block. -/
def Kern.reach (g : Kern) : List (Nat × List (Nat × Nat × Nat × Nat)) :=
  let all := List.range g.roles.length
  let land := g.landingBlocks true
  let first := (g.blocks.filter fun b => b.epi == 0).map fun b =>
    (b.off, if land.contains b.off then all else all.filter fun r => (g.roles.getD r (0, 0, 0, 0)).1 == b.idx)
  let sets := (List.range g.blocks.length).foldl (fun sets _ => g.spread sets) first
  sets.map fun e => (e.1, e.2.map fun r => g.roles.getD r (0, 0, 0, 0))

def Kern.env (g : Kern) : Env := { g := g, landing := g.landingBlocks false, landAnn := g.landing, reach := g.reach }

/-- THE WALK (R233): the blocks in ascending offset. -/
noncomputable def Kern.walk (g : Kern) : Chk Seen := g.blocks.foldlM (g.env.block) Seen.empty

end Sys2Proof.Machine.Stile
end

