-- ==== Sys2Proof/Machine/StileEnc.lean ====
section
/-! DEFINITION. What the Stile checks before the walk (R201, R222 to R224, R232, R511): the block table and its items, the
clause boundaries, the entries against them, and the encodings; and the verdict on a kernel. -/

namespace Sys2Proof.Machine.Stile

/-! ### Stage 2: the block table header and its items -/

/-- Locks are declared on declared regions that have ATOM and LOCKED, with a scope of R129 (R511). -/
def lockDeclOk (h : BitVec 512) (x : BitVec 8) : Bool :=
  let j := fldN x 0 4
  decide (j < bhNRegion h) && fldN x 4 3 != 7 && !x.getLsbD 7 && (bhRights h j).getLsbD 1 && (bhRights h j).getLsbD 7

/-- The header's fields are in their ranges, its reserved bits are 0, and it obeys R511. -/
def headerOk (h : BitVec 512) : Bool :=
  bhCodeLen h % 4 == 0 && decide (8 ≤ bhCodeLen h) && decide (1 ≤ bhNBlock h) && bhPoolLen h % 4 == 0 && decide (bhNLock h ≤ 8) &&
    fldN h 384 26 == 0 && fldN h 160 32 == 0 && (bhTiled h || bhNTile h == 0#8) &&
    ((List.range 16).all fun j => decide (j < bhNRegion h) || bhRights h j == 0#8) &&
    ((List.range 8).all fun k => if k < bhNLock h then lockDeclOk h (bhLockDecl h k) else bhLockDecl h k == 0#8) &&
    ((List.range 4).all fun k => if k < bhNRole h then fldN (bhRoles h) (40 * k) 4 == 0 else fldN (bhRoles h) (40 * k) 40 == 0)

/-- Fields of an entry (R223). -/
abbrev Raw := BitVec 128
def rawOff (x : Raw) : Nat := fldN x 96 32
def rawPool (x : Raw) : Nat := fldN x 64 32
def rawNType (x : Raw) : Nat := fldN x 56 8
def rawNFact (x : Raw) : Nat := fldN x 48 8
def rawBudget (x : Raw) : Nat := fldN x 32 8
def rawLoop (x : Raw) : Bool := x.getLsbD 31
def rawEpi (x : Raw) : Nat := fldN x 29 2

/-- An entry's own fields are in their ranges, and its items lie in the pool. -/
def rawOk (h : BitVec 512) (x : Raw) : Bool :=
  rawPool x % 4 == 0 && decide (rawPool x + 4 * rawNType x + 16 * rawNFact x ≤ bhPoolLen h) && decide (rawNType x ≤ 232) &&
    decide (rawNFact x ≤ 64) && decide (16 ≤ rawBudget x) && decide (rawBudget x ≤ 128) && rawBudget x % 8 == 0 && fldN x 0 29 == 0 &&
    rawEpi x != 3 && !(rawLoop x && rawEpi x != 0)

/-- An entry may follow the entry before it; `epi` says that the block before is in an epilogue. -/
def followsOk (before : Option Raw) (epi : Bool) (x : Raw) : Bool :=
  (match before with
    | none => true
    | some b => decide (rawOff b < rawOff x) || (rawOff b == rawOff x && !rawLoop b && rawLoop x)) &&
    (rawEpi x != 2 || epi)

/-- ST-012 over the entries, in their order. -/
def checkEntries (h : BitVec 512) : List (Nat × Raw) → Option Raw → Bool → Chk Unit
  | [], _, _ => .ok ()
  | (i, x) :: rest, before, epi =>
    if rawOk h x && followsOk before epi x then checkEntries h rest (some x) (if rawLoop x then epi else rawEpi x != 0)
    else .error { rule := 12, block := some i }

/-- A symbol of a fact item (R224). -/
def symOf (regions : Nat) (loop : Bool) (x : Nat) : Option Sym :=
  let n := x % 4096
  match x / 4096 with
  | 0 => if n = 0 then some .zero else none
  | 1 => if n < 128 then some (.vreg n) else none
  | 2 => if n < 64 then some (.sreg n) else none
  | 3 => if n < 16 ∧ n < regions then some (.len n) else none
  | 4 => if n = 0 then some .laneId else none
  | 5 => if n = 0 then some .gsize else none
  | 6 => if n = 0 then some .roleRank else none
  | 7 => if n = 0 then some .teamId else none
  | 8 => if n = 0 ∧ loop then some .pass else none
  | _ => none

/-- The register of a type item. -/
def itemReg (kind n : Nat) : Option Reg :=
  match kind with
  | 0 => if n < 128 then some (.v n) else none
  | 1 => if n < 64 then some (.s n) else none
  | 2 => if n < 8 then some (.p n) else none
  | _ => if n < 32 then some (.h n) else none

/-- A register may hold a type. -/
def kindOk (r : Reg) (t : Option Ty) : Bool :=
  match t, r with
  | none, _ => true
  | some .pred, .p _ => true
  | some .pred, _ => false
  | some (.tile _), .h _ => true
  | some (.tile _), _ => false
  | some t, .v n => !t.wide || n % 2 == 0
  | some _, .s _ => true
  | some _, _ => false

/-- A type item. -/
def typeItem (regions locks : Nat) (x : Word) : Option (Reg × Option Ty) :=
  match itemReg (fldN x 8 2) (fldN x 0 8), tyOfCode regions locks (fldN x 16 16) with
  | some r, some t => if kindOk r t && fldN x 10 6 == 0 then some (r, t) else none
  | _, _ => none

/-- A fact item. -/
def factItem (regions : Nat) (loop : Bool) (x : BitVec 128) : Option Fact :=
  let a := symOf regions loop (fldN x 110 16)
  let b := symOf regions loop (fldN x 94 16)
  let c := (fld x 0 48 : BitVec 48).toInt
  let region := fldN x 80 4
  let w := fldN x 64 16
  if fldN x 84 10 ≠ 0 ∨ fldN x 48 16 ≠ 0 then none
  else
    match fldN x 126 2, a, b with
    | 0, some a, some b => if region = 0 ∧ w = 0 then some (.diff a b c) else none
    | 1, some (.vreg n), some b => if region < regions ∧ 1 ≤ w then some (.affine (.v n) region w b c) else none
    | 1, some (.sreg n), some b => if region < regions ∧ 1 ≤ w then some (.affine (.s n) region w b c) else none
    | _, _, _ => none

/-- Every item of a list, or nothing. -/
def allItems (xs : List α) (f : α → Option β) : Option (List β) := xs.mapM f

/-- An entry with its items; `tab` reads bytes of the block table (ST-013). -/
def parseEntry (h : BitVec 512) (tab : Nat → Nat → Nat) (i : Nat) (x : Raw) : Chk Entry :=
  let pool := 64 + 16 * bhNBlock h + rawPool x
  let types := allItems (List.range (rawNType x)) fun k => typeItem (bhNRegion h) (bhNLock h) (BitVec.ofNat 32 (tab (pool + 4 * k) 4))
  let facts := allItems (List.range (rawNFact x)) fun k =>
    factItem (bhNRegion h) (rawLoop x) (BitVec.ofNat 128 (tab (pool + 4 * rawNType x + 16 * k) 16))
  let locks : BitVec 8 := fld x 40 8
  match types, facts with
  | some ts, some fs =>
    if locks.toNat < 2 ^ bhNLock h then
      .ok { idx := i, off := rawOff x, loop := rawLoop x, epi := rawEpi x, lockset := locks, budget := rawBudget x, types := ts, facts := fs }
    else .error { rule := 13, block := some i }
  | _, _ => .error { rule := 13, block := some i }

/-- The entries as they stand. -/
def rawEntries (h : BitVec 512) (tab : Nat → Nat → Nat) : List (Nat × Raw) :=
  (List.range (bhNBlock h)).map fun i => (i, BitVec.ofNat 128 (tab (64 + 16 * i) 16))

/-- Stage 2: every ST-012 before every ST-013. -/
def parseTable (h : BitVec 512) (tab : Nat → Nat → Nat) : Chk (List Entry) := do
  must (headerOk h) { rule := 12 }
  checkEntries h (rawEntries h tab) none false
  (rawEntries h tab).mapM fun x => parseEntry h tab x.1 x.2

/-- The index of the block entry in which an offset lies. -/
def blockAt (es : List Entry) (off : Nat) : Option Nat :=
  ((es.filter fun e => !e.loop && decide (e.off ≤ off)).getLast?).map fun e => e.idx

/-! ### Stage 3: clause boundaries -/

/-- The instructions of a clause, from word `k`: their lengths come from the opcodes alone, and an unknown opcode takes what
is left (R201). -/
noncomputable def splitInstrs (cls : Nat) : Nat → Nat → List Word → Option (List (Nat × Except Reject Instr))
  | _, _, [] => some []
  | 0, _, _ :: _ => none
  | n + 1, k, w :: ws =>
    match instrLen cls w with
    | none => some [(k, .error (if cls = 7 then .badClass else .reservedOpcode))]
    | some len =>
      if ws.length + 1 < len then none
      else
        match splitInstrs cls n (k + len) (ws.drop (len - 1)) with
        | none => none
        | some rest =>
          let first := match decode cls (w :: ws) with
            | .ok (i, _) => .ok i
            | .error r => .error r
          some ((k, first) :: rest)

/-- The clause at an offset; `code` reads the code words. -/
noncomputable def clauseAt (code : Nat → Word) (len off : Nat) : Chk Clause :=
  let h := code off
  let n := hdrWords h
  let ws := (List.range n).map fun k => code (off + 4 + 4 * k)
  if fldN h 29 3 ≠ 5 then .error { rule := 1 }
  else if n = 0 ∨ len < off + 4 * (1 + n) then .error { rule := 2 }
  else
    match splitInstrs (hdrClass h) ws.length 1 ws with
    | some is => .ok { off := off, hdr := h, words := ws, instrs := is }
    | none => .error { rule := 2 }

/-- The clauses from an offset, in address order. -/
noncomputable def clausesFrom (es : List Entry) (code : Nat → Word) (len : Nat) : Nat → Nat → Chk (List Clause)
  | 0, _ => .ok []
  | n + 1, off =>
    if len ≤ off then .ok []
    else do
      let c ← located (blockAt es off) off 0 (clauseAt code len off)
      let rest ← clausesFrom es code len n c.next
      return c :: rest

/-! ### Stage 4: the entries against the boundaries -/

/-- The words of a clause hold an opcode that names no instruction. -/
def Clause.unknown (c : Clause) : Bool :=
  c.instrs.any fun x =>
    match x.2 with
    | .error .reservedOpcode | .error .badClass => true
    | _ => false

/-- Word `k` of a clause begins a `loop`. -/
def Clause.loopWord (c : Clause) (k : Nat) : Bool := hdrClass c.hdr == 0 && opOf (c.words.getD (k - 1) 0) == 0x87#8

def Clause.endsInLoop (c : Clause) : Bool :=
  match c.instrs.getLast? with
  | some x => c.unknown || c.loopWord x.1
  | none => false

/-- ST-012 against the boundaries: each entry at its header, each header and loop with its entry. -/
def checkPlaces (g : Kern) : Chk Unit := do
  checkAll g.entries fun e => must (if e.loop then (g.clause e.off).any Clause.endsInLoop else g.startsAt e.off)
    { rule := 12, block := some e.idx, offset := some e.off }
  checkAll g.clauses fun c => must ((!hdrBstart c.hdr || (g.block c.off).isSome) &&
    (!(c.instrs.any fun x => c.loopWord x.1) || (g.loopEntry c.off).isSome)) { rule := 12, block := blockAt g.entries c.off, offset := some c.off }

/-! ### Stage 5: the other encodings -/

/-- Latch positions that the result of an instruction enters (R191). -/
def latchesOf (i : Instr) : Nat :=
  match (Know.empty.shape i).res, i with
  | .v32 _ _ _, _ => 1
  | .v64 _ _ _, _ => 2
  | _, .movB32Imm _ _ _ _ => 1
  | _, .selB32 _ _ _ _ _ => 1
  | _, .packB16 _ _ _ _ => 1
  | _, .unpackB16 _ _ _ _ => 1
  | _, .movB64Imm _ _ _ => 2
  | _, .selB64 _ _ _ _ _ => 2
  | _, .ptrAdd _ _ _ _ _ _ => 2
  | _, .ptrAddImm _ _ _ _ => 2
  | _, .ptrDiff _ _ _ _ => 2
  | _, .minidxN32 _ _ _ => 2
  | _, .minidxI32 _ _ _ => 2
  | _, .minidxF32 _ _ _ => 2
  | _, .rdsys d n => if 0xC0 ≤ d.toNat then 0 else if sysReg64 n then 2 else 1
  | _, .ctrRd d _ => if 0xC0 ≤ d.toNat then 0 else 2
  | _, .schedHint _ _ _ _ => 1
  | _, .pref _ _ _ _ _ => 1
  | _, .evictHint _ _ _ _ _ => 1
  | _, .unimplementedHint _ _ _ _ _ _ => 1
  | _, _ => 0

/-- Which latch positions hold a value after an instruction. -/
def latchStep (lat : List Bool) (i : Instr) : List Bool :=
  match i with
  | .conv => [false, false, false, false]
  | i => (List.replicate (latchesOf i) true ++ lat).take 4

/-- ST-007. -/
def checkLatches (lat : List Bool) (i : Instr) : Chk Unit :=
  let srcs := match i with
    | .hmPut _ _ _ _ _ => []
    | .hmRput _ _ _ _ => []
    | i => (Know.empty.shape i).srcs
  checkAll srcs fun x =>
    let p := x.sel - 0x80
    must (!(between x.sel 0x80 0x83) || (lat.getD p false && (!x.wide || lat.getD (p + 1) false))) (failAt 7 x.sel)

/-- ST-008 of one instruction: a control transfer is last, and direct targets and return addresses start blocks. -/
def Kern.checkControl (g : Kern) (c : Clause) (k : Nat) (i : Instr) : Chk Unit := do
  let starts := fun (t : Int) => decide (0 ≤ t) && g.startsAt t.toNat
  must (!isControl i || (c.instrs.getLast?).all fun x => x.1 == k) { rule := 8 }
  match i with
  | .bra _ _ _ | .call _ _ =>
    let t := (targetOf c.off i).getD 0
    must (starts t) { rule := 8, target := some (t.toNat % 2 ^ 32) }
  | _ => .ok ()
  match i with
  | .call _ _ | .callInd _ _ => must (g.startsAt c.next) { rule := 8, target := some c.next }
  | _ => .ok ()

/-- A literal count of a loop. -/
def literalCount (cnt : BitVec 8) : Option Nat := if cnt.toNat < 0xC0 then (constValue cnt.toNat).map Int.toNat else none

/-- ST-011 of a loop: its body, the words that its increments name, and the fields that they step. -/
noncomputable def Kern.checkLoop (g : Kern) (c : Clause) (ncl : Nat) (cnt : BitVec 8) (incs : List LoopInc) : Bool :=
  let body := ((g.clauses.dropWhile fun x => x.off != c.off).drop 1).take ncl
  body.length == ncl && (body.all fun x => !hdrBstart x.hdr) &&
    (incs.all fun i =>
      match body[i.cl.toNat]? with
      | none => false
      | some x => x.unknown || x.instrs.any fun e => holds (hdrClass x.hdr) e.1 (x.words.getD (e.1 - 1) 0) i) &&
    (match literalCount cnt with
      | none => true
      | some n => bodyStepsLegal incs body n)

/-- A field holds a predicate number: a source of a predicate instruction, or F1 of a select. -/
def predField (cls op : Nat) (second : Bool) : Bool :=
  if second then cls == 0 && between op 0x3C 0x3D else (cls == 0 && between op 0x56 0x59) || (cls == 1 && between op 0x96 0x98)

/-- A word with the field of `n` bits from bit `lo` replaced. -/
def putField (w : Word) (lo n v : Nat) : Word :=
  (w &&& ~~~(BitVec.ofNat 32 (2 ^ n - 1) <<< lo)) ||| (BitVec.ofNat 32 v <<< lo)

/-- The words of an instruction with any of some fields replaced; a field is whether it lies in the second word, its lowest
bit and its length. -/
def variants (ws : List Word) (fields : List (Bool × Nat × Nat)) : List (List Word) :=
  fields.foldl (fun l f => l.flatMap fun ws => ws :: [0, 0x84, 0xC0].map fun v =>
    ws.modify (if f.1 then 1 else 0) fun x => putField x f.2.1 f.2.2 (v % 2 ^ f.2.2)) [ws]

/-- The register or selector that an ST-006 is about: the first field that breaks the rule whatever the others hold. -/
noncomputable def offender (cls : Nat) (ws : List Word) : Option (Nat × Nat) :=
  match ws with
  | [] => none
  | w :: rest =>
    let op := (opOf w).toNat
    let fine := fun (ws : List Word) =>
      match parseInstr cls ws with
      | .ok (i, _) => i.illFormed.all fun r => decide (6 < r.code)
      | .error _ => false
    let fields := if fmtOf cls op = some .s then [(false, 16, 8)]
      else [(false, 17, 7), (false, 8, 8), (false, 0, 8), (true, 0, 8), (true, 8, 8)]
    if !(variants ws fields).any fine then none
    else (fields.find? fun f => (variants ws (fields.filter fun g => g != f)).all fun ws => !fine ws).map fun f =>
      (fldN (if f.1 then rest.headD 0 else w) f.2.1 f.2.2, if f.2.1 < 16 && predField cls op f.1 then 1 else 0)

/-- A rejection of an encoding. -/
noncomputable def encodingFail (c : Clause) (k code : Nat) : Fail :=
  let o := if code = 6 then offender (hdrClass c.hdr) (c.words.drop (k - 1)) else none
  { rule := code, reg := o.map fun x => x.1, regKind := o.map fun x => x.2 }

/-- One instruction of the second pass, in the order of the rows of R201. -/
noncomputable def Kern.checkInstr (g : Kern) (c : Clause) (lat : List Bool) (x : Nat × Except Reject Instr) : Chk (List Bool) :=
  located (blockAt g.entries c.off) (c.off + 4 * x.1) x.1 (
    match x.2, parseInstr (hdrClass c.hdr) (c.words.drop (x.1 - 1)) with
    | .error .reservedOpcode, _ => .error { rule := 4 }
    | .error .badClass, _ => .error { rule := 3 }
    | _, .error r => .error (encodingFail c x.1 r.code)
    | _, .ok (i, _) => do
      let code := match i.illFormed with
        | some r => r.code
        | none => 0
      must (code == 0 || decide (6 < code)) (encodingFail c x.1 code)
      checkLatches lat i
      g.checkControl c x.1 i
      must (code == 0) { rule := code }
      match i with
      | .loop ncl cnt incs => must (g.checkLoop c ncl.toNat cnt incs) { rule := 11 }
      | _ => .ok ()
      return latchStep lat i)

/-- The header of a clause in the second pass: ST-003, ST-005, ST-010, ST-008. -/
def Kern.checkHeader (g : Kern) (c : Clause) : Chk Unit := do
  let h := c.hdr
  let place := g.code.toNat % 65536 + c.off
  must (hdrClass h != 7) { rule := 3 }
  must ((List.range 4).all fun k => (hdrWmask h).getLsbD k || hdrThreshold h k == 0) { rule := 5 }
  must (!(hdrPred h == 7 && hdrNeg h)) { rule := 10 }
  must (place / 65536 == (place + 4 * (1 + c.words.length) - 1) / 65536) { rule := 8 }

/-- The last clause is unguarded and lets no lane run past the code (R181). -/
def lastOk (c : Clause) : Bool :=
  c.unguarded && (match c.last with
    | some (_, .jmp _) => true
    | some (_, .ret _) => true
    | some (_, .exit) => true
    | some (_, .bra p n _) => p == 7#3 && n == 0#1
    | _ => false)

noncomputable def Kern.checkClause (g : Kern) (c : Clause) : Chk Unit := do
  located (blockAt g.entries c.off) c.off 0 (g.checkHeader c)
  let _ ← c.instrs.foldlM (g.checkInstr c) [false, false, false, false]
  .ok ()

noncomputable def Kern.checkEncodings (g : Kern) : Chk Unit := do
  checkAll g.clauses g.checkClause
  match g.clauses.getLast? with
  | some c =>
    let k := match c.instrs.getLast? with
      | some x => x.1
      | none => 0
    located (blockAt g.entries c.off) (c.off + 4 * k) k (must (lastOk c) { rule := 8 })
  | none => .ok ()

/-! ### Stages 2 to 5 and the walk (R232) -/

/-- THE VERDICT on a kernel that has passed stage 1: the kernel, and what the walk recorded. -/
noncomputable def judge (h : BitVec 512) (tab : Nat → Nat → Nat) (code : Nat → Word) (va : DWord) (priv : Bool) (feat : BitVec 256) :
    Chk (Kern × Seen) := do
  let es ← parseTable h tab
  let cs ← clausesFrom es code (bhCodeLen h) (bhCodeLen h) 0
  let g : Kern := { header := h, entries := es, clauses := cs, priv := priv, feat := feat, code := va }
  checkPlaces g
  g.checkEncodings
  let seen ← g.walk
  return (g, seen)

/-! ### Records (R252, R253) -/

/-- The result record: fields that do not apply hold all ones, but WCOUNT, of which a rejection records no warning (the
manual's own rejection record). -/
def resultRecord (kernel : Nat) (submit : DWord) (f : Fail) (warnings : Option Nat) : BitVec 512 :=
  let opt := fun (w : Nat) (x : Option Nat) => match x with
    | some v => BitVec.ofNat w v
    | none => BitVec.allOnes w
  BitVec.ofNat 24 kernel ++ opt 16 f.block ++ BitVec.ofNat 16 f.rule ++ opt 32 f.offset ++ opt 8 f.reg ++ opt 4 f.regKind ++
    opt 4 f.word ++ opt 16 f.expect ++ opt 16 f.found ++ opt 16 f.fact ++ opt 32 f.target ++
    BitVec.ofNat 16 (min (warnings.getD 0) 0xFFFF) ++ (if warnings.isSome then 0#8 else 1#8) ++ 0#240 ++ submit

/-- Minimum length of a region in 128-byte units, rounded up. -/
def Seen.minUnits (s : Seen) (j : Nat) : Nat := min ((alookup s.minLen j 0 + 127) / 128) (2 ^ 48 - 1)

/-- The kernel-table entry of an admitted kernel. -/
def kernelRecord (g : Kern) (s : Seen) (digest : BitVec 384) (kernel guest tenant : Nat) : BitVec 2048 :=
  let h := g.header
  let minLen := (List.range 16).foldl (fun (x : BitVec 768) j => x ||| (BitVec.ofNat 768 (s.minUnits j) <<< (48 * j))) 0
  digest ++ minLen ++ BitVec.ofNat 12 ((s.stashMin + 127) / 128) ++ BitVec.ofNat 24 kernel ++ BitVec.ofNat 12 guest ++
    BitVec.ofNat 16 tenant ++ bit g.priv ++ 1#1 ++ bhRoles h ++ bhWidth h ++ bit (bhQuad h) ++ bhNTile h ++ (fld h 256 128 : BitVec 128) ++
    (fld h 192 64 : BitVec 64) ++ bit (bhTiled h) ++ 0#466

/-- Where the kernel's epilogues begin and end: one ends at the next block that is not part of it, or at the end of the code
(R381). -/
def Kern.epilogues (g : Kern) : List (Nat × Nat) :=
  (g.blocks.filter fun b => b.epi == 1).map fun b =>
    let after := (g.blocks.dropWhile fun x => x.off != b.off).drop 1
    (b.off, match after.find? fun x => x.epi != 2 with
      | some x => x.off
      | none => bhCodeLen g.header)

/-- The block-entry bitmap of the kernel's code page `k`: the headers of the landing blocks. -/
def Kern.bitmap (g : Kern) (k : Nat) : BitVec 16384 :=
  let places := (g.landingBlocks false).map fun o => g.code.toNat % 65536 + o
  (places.filter fun p => p / 65536 == k).foldl (fun x p => x ||| (1#16384 <<< (p % 65536 / 4))) 0

end Sys2Proof.Machine.Stile
end

