-- ==== Sys2Proof/Machine/System.lean ====
section
/-! DEFINITION. Class 5 and the hints that touch no memory: system registers, traps and the return from
them, warnings, counters, issue and register budgets (R414 to R425). -/

namespace Sys2Proof.Machine

/-! ### System registers -/

/-- FEAT.VEC of a guest: the native vector with the guest's mask; bit 0 reads 1 (R462, R463). -/
def State.featVec (s : State) (guest : Nat) : BitVec 256 :=
  (s.regs.featNative &&& alookup s.regs.featMask guest (BitVec.allOnes 256)) ||| 1#256

/-- A system register as lane `i` of a group reads it (R414); a number that the table does not list is
never admitted and reads 0. -/
def readSys (s : State) (g : Group) (i : Nat) (n : Nat) : DWord :=
  if n = 0x000 then BitVec.ofNat 64 i
  else if n = 0x001 then BitVec.ofNat 64 g.width
  else if n = 0x002 then BitVec.ofNat 64 g.index
  else if n = 0x003 then BitVec.ofNat 64 g.role
  else if n = 0x004 then BitVec.ofNat 64 g.rank
  else if n = 0x005 then BitVec.ofNat 64 g.team
  else if n = 0x006 then BitVec.ofNat 64 g.core
  else if n = 0x007 then BitVec.ofNat 64 (quadOf g.core)
  else if n = 0x010 then g.ctxId
  else if n = 0x011 then s.clock
  else if n = 0x020 then g.trapCause
  else if n = 0x021 then g.trapPC
  else if n = 0x022 then g.trapVA
  else if n = 0x023 then g.trapMask.setWidth 64
  else if n = 0x024 then g.trapVec
  else if n = 0x030 then g.warn.setWidth 64
  else if n = 0x040 then (s.featVec g.guest).extractLsb' 0 64
  else if n = 0x041 then (s.featVec g.guest).extractLsb' 64 64
  else if n = 0x042 then (s.featVec g.guest).extractLsb' 128 64
  else if n = 0x043 then (s.featVec g.guest).extractLsb' 192 64
  else 0

/-- A read into DS: a scalar, zero-extended, or a register or pair of every guard-true lane (R418). -/
def State.readInto (s : State) (d : BitVec 8) (wide : Bool) (f : Group → Nat → DWord) : State :=
  if 0xC0 ≤ d.toNat then s.writeScalar (d.toNat - 0xC0) fun g i _ => f g i
  else if wide then s.vec64 d.toNat 0 fun g i _ => f g i
  else s.vec32 d.toNat 0 fun g i _ => (f g i).setWidth 32

/-- `rdsys d, sys` (R418). -/
def execRdsys (d : BitVec 8) (r : BitVec 12) (s : State) : Out :=
  .next (s.readInto d (sysReg64 r) fun g i => readSys s g i r.toNat)

/-- `wrsys sys, a`: TRAP.MASK, the one register that software writes, from the lowest guard-true lane
(R417, R418). -/
def execWrsys (a : BitVec 8) (r : BitVec 12) (s : State) : Out :=
  .next (if r = 0x023#12 then
    s.holdLead.mapPickGroups fun m g =>
      match g.lead m with
      | some (i, l) => { g with trapMask := (src32 g i l a).setWidth 2 }
      | none => g
    else s)

/-! ### Traps and return -/

/-- `trap n`: the guard-true lanes park after the instruction (R419). -/
def execTrap (n : BitVec 8) (s : State) : Out :=
  .next (s.trapPick (some 1) fun _ _ _ => some (causeOf cUserTrap n.toNat, noVA cUserTrap))

/-- Whether a debug state stops a group's lanes at `brk` (R419, R484). -/
def State.debugs (s : State) (g : Group) : Bool :=
  match s.plat.debug with
  | .off => false
  | .tenant t => g.tenant == t
  | .device => true

/-- `brk n`: as `trap`, or the lanes stop for the debugger (R419). -/
def execBrk (n : BitVec 8) (s : State) : Out :=
  .next (s.holdAwaiting.forPick fun s gid m =>
    match s.group? gid with
    | none => s
    | some g =>
      if s.debugs g then
        if g.guarded m = 0#64 then s else (s.waitLanes gid (g.guarded m) 1 .debugger).send (.stopped gid)
      else s.trapLanes gid (some 1) (g.traps m fun _ _ => some (causeOf cBreakpoint n.toNat, noVA cBreakpoint)))

/-- The frames outside the one that holds a lane, and that frame (R447). -/
def splitFrames (i : Nat) : List Frame → Option (Frame × List Frame)
  | [] => none
  | f :: fs => if f.sub.lanes.getLsbD i then some (f, fs) else splitFrames i fs

/-- A lane's registers as the frame saved them; those that the trapping check reads keep the handler's
values (R446). -/
def Frame.restoreLane (f : Frame) (l : Lane) (saved : Lane) : Lane :=
  let v := f.sub.keep.foldl (fun (v : Vector Word 128) n => if h : n < 128 then v.set n l.v[n] h else v) saved.v
  { saved with v := v, status := .ready, age := 0, skip := false, missed := l.missed }

/-- THE RETURN FROM A TRAP (R446): the frame's lanes end, or take back every register that the frame holds
and continue at TRAP.PC; the frame and its bank go, and MASKED becomes 0. -/
def Group.endHandler (g : Group) (i : Nat) (resume : Bool) : Group :=
  match splitFrames i g.frames with
  | none => g
  | some (f, outer) =>
    let g := g.mapLanes f.sub.lanes fun k l =>
      match f.saved.find? fun e => e.idx == k with
      | some e =>
        if resume then f.restoreLane l e.lane
        else { l with status := .exited, resume := none, target := none, pend := [], acq := [] }
      | none => l
    { g with frames := outer, trapMask := g.trapMask &&& 2#2 }

/-- `rtt` by the guard-true lanes of a pick: the handlers they run in end; outside a handler the lanes trap
with `TRAP_STATE` (R420, log 20). -/
def State.returnTrap (s : State) (resume : Bool) : State :=
  s.holdAwaiting.forPick fun s gid m =>
    match s.group? gid with
    | none => s
    | some g =>
      let s := s.trapLanes gid none (g.traps m fun i _ =>
        if (g.frameOf i).isSome then none else some (causeOf cTrapState 0, noVA cTrapState))
      ((List.range g.lanes.length).foldl (fun (acc : State × BitVec 64) i =>
        if (g.guarded m).getLsbD i && !acc.2.getLsbD i then
          match g.frameOf i with
          | some f => ((acc.1.updGroup gid fun g => g.endHandler i resume).leave gid f.sub.lanes, acc.2 ||| f.sub.lanes)
          | none => acc
        else acc) (s, 0#64)).1

/-- `rtt resume` (R420, R446). -/
def execRttResume (s : State) : Out := .next (s.returnTrap true)

/-- `rtt end` (R420, R446). -/
def execRttEnd (s : State) : Out := .next (s.returnTrap false)

/-! ### Warnings and counters -/

/-- `warn.clr m`: once for each group of the pick that has a guard-true lane (R421). -/
def execWarnClr (m : BitVec 4) (s : State) : Out :=
  .next (s.holdLead.mapPickGroups fun k g => if (g.lead k).isSome then { g with warn := g.warn &&& ~~~m } else g)

/-- `ctr.rd d, k` (R422). -/
def execCtrRd (d : BitVec 8) (k : BitVec 2) (s : State) : Out :=
  .next (s.readInto d true fun g _ => (g.ctrs[k.toNat]'(by have := k.isLt; omega)).val.setWidth 64)

/-- `ctr.cfg k, a`: bits [7:0] select the event, and bit 8 clears the counter (R422). -/
def execCtrCfg (a : BitVec 8) (k : BitVec 2) (s : State) : Out :=
  .next (s.holdLead.mapPickGroups fun m g =>
    match g.lead m with
    | some (i, l) =>
      let x := src32 g i l a
      let old : EventCtr := g.ctrs[k.toNat]'(by have := k.isLt; omega)
      let new : EventCtr := { sel := x.setWidth 8, val := if x.getLsbD 8 then 0 else old.val }
      { g with ctrs := g.ctrs.set k.toNat new (by have := k.isLt; omega) }
    | none => g)

/-! ### Issue and budgets -/

/-- `yield` (R423). -/
def execYield (s : State) : Out := .next { s with cur := s.cur.map fun p => { p with yields := true } }

/-- `vreg.grow`: at or below the budget it completes at once; otherwise the group waits for GROW_GRANT
(R176). `n` is the operand in units of 8 registers. -/
def execVregGrow (n : BitVec 8) (s : State) : Out :=
  .next (s.converge 1 fun s gid m =>
    match s.group? gid with
    | none => s
    | some g =>
      if 8 * n.toNat ≤ g.budget then s
      else
        let s := s.waitLanes gid m 1 (.grow (8 * n.toNat))
        let s := s.updGroup gid fun g => { g with growLate := false, growSeq := s.sched.nextSeq }
        { s with sched := { s.sched with nextSeq := s.sched.nextSeq + 1 } })

/-- Registers `v`n and above after their contents are lost (R177). -/
def Lane.loseFrom (l : Lane) (n k : Nat) : Lane :=
  { l with v := l.v.mapIdx fun i x => if i < n then x else Config.lost k i }

/-- `vreg.shrink`: completes at once; the registers above the new budget are lost (R177, log 19). -/
def execVregShrink (n : BitVec 8) (s : State) : Out :=
  .next (s.converge 1 fun s gid _ =>
    let s := s.updGroup gid fun g =>
      if 8 * n.toNat ≤ g.budget then
        { g with budget := 8 * n.toNat, lanes := g.lanes.map fun l => l.loseFrom (8 * n.toNat) s.fresh }
      else g
    { s with fresh := s.fresh + 1 })

/-! ### Hints -/

/-- `sched.hint`: no advice is followed on the C640; D receives 0 (R200, R425). -/
def execSchedHint (d : BitVec 7) (w : BitVec 1) (_a _b : BitVec 8) (s : State) : Out :=
  .next (s.vec32 d.toNat w fun _ _ _ => 0)

/-- A hint that the C640 does not implement: D receives 0 (R200, R425). -/
def execUnimplementedHint (_op : BitVec 8) (d : BitVec 7) (w : BitVec 1) (_a _b : BitVec 8) (_ext : BitVec 32)
    (s : State) : Out :=
  .next (s.vec32 d.toNat w fun _ _ _ => 0)

end Sys2Proof.Machine
end

