-- ==== Sys2Proof/Machine/Stile.lean ====
section
/-! DEFINITION. The Stile's engines (R219 to R221, R250 to R254) and the tables of the trusted firmware (R25, R47 to R50):
admission requests and results, seals, and capabilities. -/

namespace Sys2Proof.Machine

/-! ### Admission requests (R434) -/

def rqSubmit (r : BitVec 512) : DWord := fld r 448 64
def rqResult (r : BitVec 512) : Nat := fldN r 400 48
def rqBtab (r : BitVec 512) : DWord := (fld r 329 55 : BitVec 55).setWidth 64
def rqCode (r : BitVec 512) : DWord := (fld r 265 55 : BitVec 55).setWidth 64
def rqKernel (r : BitVec 512) : Nat := fldN r 232 24
def rqTenant (r : BitVec 512) : Nat := fldN r 204 16
def rqPriv (r : BitVec 512) : Bool := r.getLsbD 203
def rqCap (r : BitVec 512) : Nat := fldN r 183 20

/-- The trusted firmware's check of a request (R434): a descriptor that waits for the kernel, or a context that runs it, has
the request's guest, tenant, privilege and code capability. -/
def State.trusts (s : State) (r : BitVec 512) : Bool :=
  (s.sched.pending.any fun (p : Pending) => p.kernel == rqKernel r && guestOf p.fn == rqGuest r && p.tenant == rqTenant r &&
    dPriv p.desc == rqPriv r && dRegion p.desc (dCodeReg p.desc) == rqCap r) ||
  (s.sched.launches.any fun l => l.kernel == rqKernel r && l.guest == rqGuest r && l.tenant == rqTenant r && l.priv == rqPriv r &&
    l.caps.contains (rqCap r))

/-! ### Bytes of a run of virtual pages -/

/-- The physical pages of a run of virtual bytes, the modules that hold them where it is not this one, and the place of the
first byte in the first page. -/
structure Run where
  pages : List Nat
  first : Nat
  nodes : List (Option Nat)
  deriving DecidableEq, Repr

def Run.node (x : Run) (k : Nat) : Option Nat := (x.nodes[k]?).getD none

/-- A byte of the run: at its home, or in the line that has come from another module. -/
def Run.byte (x : Run) (m : List Host.Cell) (far : FarLines) (i : Nat) : Nat :=
  let k := (x.first + i) / 65536
  let a := 65536 * x.pages.getD k 0 + (x.first + i) % 65536
  match x.node k with
  | some n => farByte far (lineKey true n (a / 128)) (a % 128)
  | none => (memGet m a).toNat

/-- Bytes as a number, the first in the lowest bits. -/
def Run.read (x : Run) (m : List Host.Cell) (far : FarLines) (i : Nat) : Nat → Nat
  | 0 => 0
  | n + 1 => x.byte m far i + 256 * x.read m far (i + 1) n

/-- Lines of the first `n` bytes on page `k` of the run. -/
def Run.linesAt (x : Run) (n k : Nat) : List Nat :=
  let lo := if k = 0 then x.first else 0
  linesOf (65536 * x.pages.getD k 0 + lo) (min 65536 (x.first + n - 65536 * k) - lo)

/-- Lines of the first `n` bytes on this module. -/
def Run.lines (x : Run) (n : Nat) : List Nat :=
  ((List.range x.pages.length).filter fun k => x.node k == none).flatMap (x.linesAt n)

/-- The lines of the first `n` bytes on other modules have come. -/
def Run.came (x : Run) (far : FarLines) (n : Nat) : Bool :=
  (List.range x.pages.length).all fun k =>
    match x.node k with
    | none => true
    | some m => (x.linesAt n k).all fun l => far.any fun e => e.1 == lineKey true m l

/-- Lines of whole pages. -/
def Run.allLines (x : Run) : List Nat := x.pages.flatMap fun p => linesOf (65536 * p) 65536

/-- The translation of a run of virtual bytes for a read by the Stile; it fails where a check of R38 does. -/
def State.span (s : State) (guest : Nat) (va : DWord) (n : Nat) : State × Found Run :=
  let first := va.toNat % 65536
  let x := (List.range ((first + n + 65535) / 65536)).foldl (fun (x : State × Found (List Trans)) k =>
    Found.andThen x fun s l =>
      match s.firmPage guest (BitVec.ofNat 64 (65536 * (va.toNat / 65536 + k))) .load with
      | (s, .value t) => (s, .value (l ++ [t]))
      | (s, .fails) => (s, .fails)
      | (s, .wait) => (s, .wait)) (s, .value [])
  match x with
  | (s, .value l) => (s, .value { pages := l.map fun t => t.ppn, first := first, nodes := l.map fun t => if t.remote then some t.node else none })
  | (s, .fails) => (s, .fails)
  | (s, .wait) => (s, .wait)

/-! ### Stage 1 (R220, R232) -/

/-- Bitmaps in use or promised to an admission in progress. -/
def State.bitmapsTaken (s : State) : Nat :=
  (s.trusted.seals.filter fun e => sealedBit e.2).length +
    (s.dies.map fun d => match d.2.stile with
      | some a => a.pages.length
      | none => 0).sum

/-- The kernel-table entry that a kernel takes is in use by another kernel. -/
def State.entryTaken (s : State) (r : BitVec 512) : Bool :=
  let e := s.kernelEntry (rqKernel r)
  keValid e && !(keKernel e == rqKernel r && keGuest e == rqGuest r && keTenant e == rqTenant r && kePriv e == rqPriv r)

def State.tableFull (s : State) : Bool := decide (65536 ≤ (s.trusted.kernels.filter fun e => keValid e.2).length)

/-- The role entries are blocks. -/
def roleEntriesOk (h : BitVec 512) (raws : List (Nat × Stile.Raw)) : Bool :=
  (List.range (bhNRole h)).all fun k =>
    match raws[(roleOf (bhRoles h) k).1]? with
    | some x => !Stile.rawLoop x.2
    | none => false

/-- The code region's capability covers the code (R220). -/
def State.codeCovered (s : State) (r : BitVec 512) (n : Nat) : Bool :=
  let c := s.cap (rqCap r)
  capFor c (rqGuest r) (rqTenant r) && capCode c && decide (capBase c ≤ (rqCode r).toNat) &&
    decide ((rqCode r).toNat + n ≤ capBase c + capLength c)

/-- STAGE 1: the rule that the kernel breaks as a whole. -/
def State.stage1 (s : State) (r : BitVec 512) (h : BitVec 512) (raws : List (Nat × Stile.Raw)) (code : Run) : Option Nat :=
  let good := rqKernel r != 0 && (rqCode r).toNat % 4 == 0 && (code.pages.all isHbm) && code.nodes.all (fun n => n == none) && decide code.pages.Nodup &&
    (code.pages.all fun p => !sealedBit (s.seal p) && !pendingBit (s.seal p)) && s.codeCovered r (bhCodeLen h) &&
    rolesOk ((List.range (bhNRole h)).map (roleOf (bhRoles h))) && roleEntriesOk h raws && (s.tableFull || !s.entryTaken r)
  if !good then some 14
  else if s.entryTaken r || decide (s.trusted.numBitmaps < s.bitmapsTaken + code.pages.length) then some 15
  else none

/-! ### An engine takes a request -/

/-- PENDING is set on pages, in ascending page order. -/
def State.setPending (s : State) (pages : List Nat) : State :=
  { s with trusted := { s.trusted with seals := pages.foldl (fun l p => aset l p (alookup l p 0 ||| 2#64)) s.trusted.seals } }

/-- An engine begins an admission with its verdict; the request leaves its queue. -/
def State.startAdmission (s : State) (d : Nat) (a : Admission) : State :=
  s.updDie d fun x => { x with stileQ := x.stileQ.drop 1, stile := some a }

def rejection (r : BitVec 512) (pages : List Nat) (f : Stile.Fail) : Admission :=
  { request := r, pages := pages, result := Stile.resultRecord (rqKernel r) (rqSubmit r) f none, pass := false, entry := 0, bitmaps := [], epilogues := [] }

/-- The digest of a kernel: its whole code pages in their order, then the block table as read (R251). -/
def State.digest (s : State) (far : FarLines) (code tab : Run) (n : Nat) : BitVec 384 :=
  let pages : Run := { code with first := 0 }
  sha384 ((List.range (65536 * code.pages.length)).map (pages.byte s.mem far) ++ (List.range n).map (tab.byte s.mem far))

/-- A pass. A kernel that is admitted again under its identifier must have the digest of its entry (R449). -/
def State.passed (s : State) (r : BitVec 512) (code : Run) (digest : BitVec 384) (g : Stile.Kern) (seen : Stile.Seen) : Admission :=
  let old := s.kernelEntry (rqKernel r)
  if keValid old && fld old 1664 384 != digest then rejection r code.pages { rule := 14 }
  else
    let first := match seen.warns with
      | n :: _ => n
      | [] => 0
    { request := r, pages := code.pages, pass := true,
      result := Stile.resultRecord (rqKernel r) (rqSubmit r) { rule := first } (some seen.warns.length),
      entry := Stile.kernelRecord g seen digest (rqKernel r) (rqGuest r) (rqTenant r),
      bitmaps := (List.range code.pages.length).map g.bitmap,
      epilogues := g.epilogues }

/-- The engine of a die checks the kernel of the request at the head of its queue. It tries again while a table entry, or a
line of the code or of the block table, is on its way (log 24). -/
noncomputable def State.admitKernel (s : State) (d : Nat) (r : BitVec 512) (far : FarLines) : State :=
  let fail := fun (s : State) => s.startAdmission d (rejection r [] { rule := 14 })
  if !s.trusts r then fail s
  else
    match s.span (rqGuest r) (rqBtab r) 64 with
    | (s, .fails) => fail s
    | (s, .wait) => s
    | (s, .value head) =>
      match s.linesReady (head.lines 64) with
      | (s, false) => s
      | (s, true) =>
        if !head.came far 64 then s
        else
          let h := BitVec.ofNat 512 (head.read s.mem far 0 64)
          let n := 64 + 16 * bhNBlock h + bhPoolLen h
          match s.span (rqGuest r) (rqBtab r) n with
          | (s, .fails) => fail s
          | (s, .wait) => s
          | (s, .value tab) =>
            match s.span (rqGuest r) (rqCode r) (max 1 (bhCodeLen h)) with
            | (s, .fails) => fail s
            | (s, .wait) => s
            | (s, .value code) =>
              match s.linesReady (tab.lines n ++ if code.nodes.all (fun m => m == none) then code.allLines else []) with
              | (s, false) => s
              | (s, true) =>
                if !tab.came far n then s
                else
                  let bytes := tab.read s.mem far
                  match s.stage1 r h (Stile.rawEntries h bytes) code with
                  | some rule => s.startAdmission d (rejection r [] { rule := rule })
                  | none =>
                    let word := fun o => BitVec.ofNat 32 (code.read s.mem far o 4)
                    let a := match Stile.judge h bytes word (rqCode r) (rqPriv r) (s.featVec (rqGuest r)) with
                      | .error f => rejection r code.pages f
                      | .ok (g, seen) => s.passed r code (s.digest far code tab n) g seen
                    (s.setPending code.pages).startAdmission d a

/-- The die in whose queue a request stands. -/
def State.queuedAt (s : State) (r : BitVec 512) : Option Nat := (s.dies.find? fun d => d.2.stileQ.contains r).map fun d => d.1

/-- ADMISSION_REQUEST: a request joins the queue of its engine unless it stands in one; an idle engine takes the request at
the head of its queue (R219). -/
noncomputable def execAdmissionRequest (request : AdmissionCall) (s : State) : Out :=
  let r := request.request
  let go := fun (s : State) (d : Nat) =>
    if (s.die d).stile = none ∧ (s.die d).stileQ.head? = some r then s.admitKernel d r request.far else s
  .next (match s.queuedAt r with
    | some d => go s d
    | none =>
      match s.stileDie (rqGuest r) (rqCode r) with
      | (s, .value d) => go (s.updDie d fun x => { x with stileQ := x.stileQ ++ [r] }) d
      | (s, _) => s)

/-! ### An admission ends (R250) -/

/-- The lowest free bitmaps. -/
def State.freeBitmaps (s : State) (n : Nat) : List Nat :=
  let used := (s.trusted.seals.filter fun e => sealedBit e.2).map fun e => sealBitmap e.2
  ((List.range (used.length + n)).filter fun b => !used.contains b).take n

/-- A seal-table entry of a sealed page (R48). -/
def sealWord (kernel bitmap : Nat) : DWord := BitVec.ofNat 24 bitmap ++ BitVec.ofNat 24 kernel ++ 1#16

/-- The tables of an admitted kernel: bitmaps, seals, and its entry. -/
def State.sealKernelPages (s : State) (a : Admission) : State :=
  let k := rqKernel a.request
  let bs := s.freeBitmaps a.pages.length
  { s with trusted := { s.trusted with
      bitmaps := (bs.zip a.bitmaps).foldl (fun l e => aset l e.1 e.2) s.trusted.bitmaps,
      seals := (a.pages.zip bs).foldl (fun l e => aset l e.1 (sealWord k e.2)) s.trusted.seals,
      kernels := aset s.trusted.kernels (k % 65536) a.entry,
      epilogues := s.trusted.epilogues.filter (fun e => e.1 != k) ++ a.epilogues.map fun e => (k, e.1, e.2) } }

/-- ADMISSION_RESULT: the record is written once its line may be; on a pass after the tables, on a rejection after PENDING
has been cleared. -/
def execAdmissionResult (die : Nat) (s : State) : Out :=
  .next (match (s.die die).stile with
    | none => s
    | some a =>
      let line := rqResult a.request / 128
      let t := if a.pass then s.sealKernelPages a else s.clearPending a.pages
      let done := fun (s : State) => s.updDie die fun x => { x with stile := none }
      if isHbmLine line || isHostLine line then
        match t.devWrite (64 * (rqResult a.request / 64)) 64 a.result with
        | (t, true) => done t
        | (_, false) => (s.devWrite (64 * (rqResult a.request / 64)) 64 a.result).1
      else done (t.log (.droppedWrite line)))

/-! ### The trusted firmware (R25, R50) -/

/-- A resident or saved context refers to a kernel. -/
def State.kernelUsed (s : State) (kernel : Nat) : Bool := s.sched.launches.any fun l => l.kernel == kernel

/-- SEAL_CLEAR: the page's instruction-cache lines go in every core, and SEALED and what stands with it are cleared. -/
def execSealClear (ppn : Nat) (s : State) : Out :=
  let e := s.seal ppn
  .next (if sealedBit e && !s.kernelUsed (sealKernel e) then
    { s with cores := s.cores.map fun c => (c.1, { c.2 with icache := c.2.icache.filter fun l => l / 512 != ppn }),
             trusted := { s.trusted with seals := aset s.trusted.seals ppn 0 } }
  else s)

/-- Rights that two overlapping capabilities of different tenants may not grant: WRITE, ATOM, ENGDST, STASH, FLASK (R23). -/
def capShares (c : Cap) : Bool := capRights c &&& 0b0111011#7 == 0#7

/-- Two capabilities that may both be issued: one guest's tenants share bytes only without those rights (R23, log 127). -/
def capApart (a b : Cap) : Bool :=
  !(capValid a && capValid b && capGuest a == capGuest b && capTenant a != capTenant b &&
    decide (capBase a < capBase b + capLength b) && decide (capBase b < capBase a + capLength a)) ||
    (capShares a && capShares b)

/-- The entry as the firmware writes it: an index that is issued again has the next generation (R21). -/
def capReissued (old new : Cap) : Cap :=
  let gen : BitVec 32 := if capValid new then fld old 192 32 + 1 else fld old 192 32
  (new &&& ~~~(0xFFFFFFFF#256 <<< 192)) ||| (gen.setWidth 256 <<< 192)

/-- CAPABILITY_REVOKE: an entry is changed while no resident or saved context names it; otherwise the answer is BUSY. A
capability that another tenant's may not overlap is not issued (R23). -/
def execCapabilityRevoke (idx : Nat) (entry : BitVec 256) (s : State) : Out :=
  .next (if s.sched.launches.any fun l => l.caps.contains idx then s.send (.busy idx)
    else if idx < 2 ^ 20 ∧ (s.trusted.caps.all fun e => e.1 == idx || capApart e.2 entry) = true then
      { s with trusted := { s.trusted with caps := aset s.trusted.caps idx (capReissued (s.cap idx) entry) } }
    else s)

end Sys2Proof.Machine
end

