-- ==== Sys2Proof/Machine/Dispatch.lean ====
section
/-! DEFINITION. The one match from an instruction or event to its meaning: one arm for each row of the
opcode table. -/

namespace Sys2Proof.Machine

/- Lean generates code for at most 244 constructors with fields, and decoding builds more. -/
open Sys2Proof in /-- The meaning of one row of the opcode table. -/ noncomputable
def exec (i : Instr) (s : State) : Host.Outcome State Fault Refusal :=
  match i with
  | .votePoint core slot => Sys2Proof.Machine.execVotePoint core slot s
  | .resultReturn gid op => Sys2Proof.Machine.execResultReturn gid op s
  | .coalesceTimeout core line => Sys2Proof.Machine.execCoalesceTimeout core line s
  | .storeDrain core line => Sys2Proof.Machine.execStoreDrain core line s
  | .homeRequest r => Sys2Proof.Machine.execHomeRequest r s
  | .walkComplete guest core va kind => Sys2Proof.Machine.execWalkComplete guest core va kind s
  | .stashFillReturn core line => Sys2Proof.Machine.execStashFillReturn core line s
  | .stashReadRecall core line => Sys2Proof.Machine.execStashReadRecall core line s
  | .stashWriteRecall core line => Sys2Proof.Machine.execStashWriteRecall core line s
  | .outstandingEntryFree core req => Sys2Proof.Machine.execOutstandingEntryFree core req s
  | .stickyQuotaWrite c v => Sys2Proof.Machine.execStickyQuotaWrite c v s
  | .flaskRequestAtHome req => Sys2Proof.Machine.execFlaskRequestAtHome req s
  | .read line src inc mig => Sys2Proof.Machine.execRead line src inc mig s
  | .own line src inc mig => Sys2Proof.Machine.execOwn line src inc mig s
  | .unhead line src inc fwd => Sys2Proof.Machine.execUnhead line src inc fwd s
  | .done line src inc => Sys2Proof.Machine.execDone line src inc s
  | .wb line src inc dirty data => Sys2Proof.Machine.execWb line src inc dirty data s
  | .purgeAnswerCopy line src inc next => Sys2Proof.Machine.execPurgeAnswerCopy line src inc next s
  | .fetchAnswer line src inc dirty data => Sys2Proof.Machine.execFetchAnswer line src inc dirty data s
  | .recallAnswer line src inc dirty data => Sys2Proof.Machine.execRecallAnswer line src inc dirty data s
  | .fetch line inc => Sys2Proof.Machine.execFetch line inc s
  | .recall line inc => Sys2Proof.Machine.execRecall line inc s
  | .data line inc oldHead uncached poison data => Sys2Proof.Machine.execData line inc oldHead uncached poison data s
  | .grant line inc oldHead walkOwn poison data => Sys2Proof.Machine.execGrant line inc oldHead walkOwn poison data s
  | .purge line inc walker => Sys2Proof.Machine.execPurge line inc walker s
  | .purgeAnswer line src inc next => Sys2Proof.Machine.execPurgeAnswer line src inc next s
  | .setfwd line src inc p => Sys2Proof.Machine.execSetfwd line src inc p s
  | .setback line src inc p => Sys2Proof.Machine.execSetback line src inc p s
  | .ack line src inc => Sys2Proof.Machine.execAck line src inc s
  | .notHead line inc => Sys2Proof.Machine.execNotHead line inc s
  | .stale line src inc => Sys2Proof.Machine.execStale line src inc s
  | .retry line src inc => Sys2Proof.Machine.execRetry line src inc s
  | .retryResend line => Sys2Proof.Machine.execRetryResend line s
  | .hostReadShared line half => Sys2Proof.Machine.execHostReadShared line half s
  | .hostReadExclusive line half => Sys2Proof.Machine.execHostReadExclusive line half s
  | .hostWriteHalf line half data => Sys2Proof.Machine.execHostWriteHalf line half data s
  | .hostReadNoCopy line half => Sys2Proof.Machine.execHostReadNoCopy line half s
  | .hostWriteback line half data => Sys2Proof.Machine.execHostWriteback line half data s
  | .hostEvictNotice line half => Sys2Proof.Machine.execHostEvictNotice line half s
  | .bisnpinvResponse line half dirty data => Sys2Proof.Machine.execBisnpinvResponse line half dirty data s
  | .bisnpdataResponse line half dirty data => Sys2Proof.Machine.execBisnpdataResponse line half dirty data s
  | .hostSnoopTimeout line => Sys2Proof.Machine.execHostSnoopTimeout line s
  | .rdsharedData line half data => Sys2Proof.Machine.execRdsharedData line half data s
  | .rdownGrant line half data => Sys2Proof.Machine.execRdownGrant line half data s
  | .snpdata line half => Sys2Proof.Machine.execSnpdata line half s
  | .snpinv line half => Sys2Proof.Machine.execSnpinv line half s
  | .snpcur line half => Sys2Proof.Machine.execSnpcur line half s
  | .bar2Read off => Sys2Proof.Machine.execBar2Read off s
  | .bar2Write off data => Sys2Proof.Machine.execBar2Write off data s
  | .otgerNack req => Sys2Proof.Machine.execOtgerNack req s
  | .migrate die => Sys2Proof.Machine.execMigrate die s
  | .release die => Sys2Proof.Machine.execRelease die s
  | .migRqtailWrite die v => Sys2Proof.Machine.execMigRqtailWrite die v s
  | .migrationLineCopy die entry ok => Sys2Proof.Machine.execMigrationLineCopy die entry ok s
  | .migEpoch die => Sys2Proof.Machine.execMigEpoch die s
  | .agentReport node by_ => Sys2Proof.Machine.execAgentReport node by_ s
  | .chainAnswerTimeout line node => Sys2Proof.Machine.execChainAnswerTimeout line node s
  | .managerProbeTimeout node => Sys2Proof.Machine.execManagerProbeTimeout node s
  | .dead agent inc => Sys2Proof.Machine.execDead agent inc s
  | .scanDone agent from_ => Sys2Proof.Machine.execScanDone agent from_ s
  | .resume agent => Sys2Proof.Machine.execResume agent s
  | .ticketGrant req grant => Sys2Proof.Machine.execTicketGrant req grant s
  | .engineStart op => Sys2Proof.Machine.execEngineStart op s
  | .engineLinePerform op answers peers => Sys2Proof.Machine.execEngineLinePerform op answers peers s
  | .engineComplete op => Sys2Proof.Machine.execEngineComplete op s
  | .rollcallComplete launch => Sys2Proof.Machine.execRollcallComplete launch s
  | .growGrant gid => Sys2Proof.Machine.execGrowGrant gid s
  | .growWaitLimit gid => Sys2Proof.Machine.execGrowWaitLimit gid s
  | .growDeadlock core => Sys2Proof.Machine.execGrowDeadlock core s
  | .teamRotation launch team => Sys2Proof.Machine.execTeamRotation launch team s
  | .capabilityRevoke idx entry => Sys2Proof.Machine.execCapabilityRevoke idx entry s
  | .sealClear ppn => Sys2Proof.Machine.execSealClear ppn s
  | .admissionRequest request => Sys2Proof.Machine.execAdmissionRequest request s
  | .admissionResult die => Sys2Proof.Machine.execAdmissionResult die s
  | .iqTailWrite q v => Sys2Proof.Machine.execIqTailWrite q v s
  | .iqErrClear q => Sys2Proof.Machine.execIqErrClear q s
  | .invS1Va q => Sys2Proof.Machine.execInvS1Va q s
  | .invS1All q => Sys2Proof.Machine.execInvS1All q s
  | .invS2Ipa q => Sys2Proof.Machine.execInvS2Ipa q s
  | .invS2All q => Sys2Proof.Machine.execInvS2All q s
  | .sync q => Sys2Proof.Machine.execSync q s
  | .syncComplete q => Sys2Proof.Machine.execSyncComplete q s
  | .lockRetry gid => Sys2Proof.Machine.execLockRetry gid s
  | .tileOpComplete op => Sys2Proof.Machine.execTileOpComplete op s
  | .reservationDispatch quad => Sys2Proof.Machine.execReservationDispatch quad s
  | .passComplete quad entry => Sys2Proof.Machine.execPassComplete quad entry s
  | .levelAging quad entry => Sys2Proof.Machine.execLevelAging quad entry s
  | .ringWaitResume gid => Sys2Proof.Machine.execRingWaitResume gid s
  | .streamCommand quad => Sys2Proof.Machine.execStreamCommand quad s
  | .streamEnd quad => Sys2Proof.Machine.execStreamEnd quad s
  | .hamperAtHome req answers => Sys2Proof.Machine.execHamperAtHome req answers s
  | .hamperResultReturn req => Sys2Proof.Machine.execHamperResultReturn req s
  | .trapDelivery gid => Sys2Proof.Machine.execTrapDelivery gid s
  | .prgResponse gid k code => Sys2Proof.Machine.execPrgResponse gid k code s
  | .priTimeout gid k => Sys2Proof.Machine.execPriTimeout gid k s
  | .sqTailWrite fn q v => Sys2Proof.Machine.execSqTailWrite fn q v s
  | .sqErrClear fn q => Sys2Proof.Machine.execSqErrClear fn q s
  | .launchDescriptor fn q => Sys2Proof.Machine.execLaunchDescriptor fn q s
  | .placement launch team core => Sys2Proof.Machine.execPlacement launch team core s
  | .launchCompletion launch => Sys2Proof.Machine.execLaunchCompletion launch s
  | .placementWaitLimit launch => Sys2Proof.Machine.execPlacementWaitLimit launch s
  | .quantumExpiry => Sys2Proof.Machine.execQuantumExpiry s
  | .preemptRequest launch tier => Sys2Proof.Machine.execPreemptRequest launch tier s
  | .drainDeadline launch => Sys2Proof.Machine.execDrainDeadline launch s
  | .freezeDeadline launch => Sys2Proof.Machine.execFreezeDeadline launch s
  | .freezeQuiesced launch => Sys2Proof.Machine.execFreezeQuiesced launch s
  | .restore image core edits => Sys2Proof.Machine.execRestore image core edits s
  | .keyTransfer launch idx out_ key ctrs => Sys2Proof.Machine.execKeyTransfer launch idx out_ key ctrs s
  | .featMaskWrite guest v => Sys2Proof.Machine.execFeatMaskWrite guest v s
  | .flrVf n => Sys2Proof.Machine.execFlrVf n s
  | .flrPf => Sys2Proof.Machine.execFlrPf s
  | .linkLoss => Sys2Proof.Machine.execLinkLoss s
  | .linkUp => Sys2Proof.Machine.execLinkUp s
  | .hlossThaw => Sys2Proof.Machine.execHlossThaw s
  | .portTrainRetry port => Sys2Proof.Machine.execPortTrainRetry port s
  | .portTakedown port => Sys2Proof.Machine.execPortTakedown port s
  | .domEnWrite v => Sys2Proof.Machine.execDomEnWrite v s
  | .domFormedWrite v => Sys2Proof.Machine.execDomFormedWrite v s
  | .powerWindow above => Sys2Proof.Machine.execPowerWindow above s
  | .tempCritical die => Sys2Proof.Machine.execTempCritical die s
  | .mgmtFlr n => Sys2Proof.Machine.execMgmtFlr n s
  | .moduleReset => Sys2Proof.Machine.execModuleReset s
  | .readFaultLog => Sys2Proof.Machine.execReadFaultLog s
  | .dumpState => Sys2Proof.Machine.execDumpState s
  | .recover ok => Sys2Proof.Machine.execRecover ok s
  | .spdmRequest nonce => Sys2Proof.Machine.execSpdmRequest nonce s
  | .pldmTelemetry => Sys2Proof.Machine.execPldmTelemetry s
  | .pldmFirmwareUpdate ok => Sys2Proof.Machine.execPldmFirmwareUpdate ok s
  | .firmwareHandover => Sys2Proof.Machine.execFirmwareHandover s
  | .coldReset ok => Sys2Proof.Machine.execColdReset ok s
  | .debugStateRequest st token tenant => Sys2Proof.Machine.execDebugStateRequest st token tenant s
  | .deepSleepWake => Sys2Proof.Machine.execDeepSleepWake s
  | .qrepDrain quad => Sys2Proof.Machine.execQrepDrain quad s
  | .qrepDrainDone => Sys2Proof.Machine.execQrepDrainDone s
  | .qrepRetest quad => Sys2Proof.Machine.execQrepRetest quad s
  | .qrepRetestDone ok spare => Sys2Proof.Machine.execQrepRetestDone ok spare s
  | .qrepReturn quad => Sys2Proof.Machine.execQrepReturn quad s
  | .hbmRetireRequest v => Sys2Proof.Machine.execHbmRetireRequest v s
  | .hbmRetireCommit v => Sys2Proof.Machine.execHbmRetireCommit v s
  | .restripeDone => Sys2Proof.Machine.execRestripeDone s
  | .registerWrite off size v => Sys2Proof.Machine.execRegisterWrite off size v s
  | .addB32 d w a b => Sys2Proof.Machine.execAddB32 d w a b s
  | .addB32Imm d w a imm => Sys2Proof.Machine.execAddB32Imm d w a imm s
  | .subB32 d w a b => Sys2Proof.Machine.execSubB32 d w a b s
  | .subB32Imm d w a imm => Sys2Proof.Machine.execSubB32Imm d w a imm s
  | .addSatI32 d w a b => Sys2Proof.Machine.execAddSatI32 d w a b s
  | .addSatN32 d w a b => Sys2Proof.Machine.execAddSatN32 d w a b s
  | .subSatI32 d w a b => Sys2Proof.Machine.execSubSatI32 d w a b s
  | .subSatN32 d w a b => Sys2Proof.Machine.execSubSatN32 d w a b s
  | .mulLoB32 d w a b => Sys2Proof.Machine.execMulLoB32 d w a b s
  | .mulHiI32 d w a b => Sys2Proof.Machine.execMulHiI32 d w a b s
  | .mulHiN32 d w a b => Sys2Proof.Machine.execMulHiN32 d w a b s
  | .mulWideI32 d w a b => Sys2Proof.Machine.execMulWideI32 d w a b s
  | .mulWideN32 d w a b => Sys2Proof.Machine.execMulWideN32 d w a b s
  | .divI32 d w a b => Sys2Proof.Machine.execDivI32 d w a b s
  | .divN32 d w a b => Sys2Proof.Machine.execDivN32 d w a b s
  | .remI32 d w a b => Sys2Proof.Machine.execRemI32 d w a b s
  | .remN32 d w a b => Sys2Proof.Machine.execRemN32 d w a b s
  | .minI32 d w a b => Sys2Proof.Machine.execMinI32 d w a b s
  | .maxI32 d w a b => Sys2Proof.Machine.execMaxI32 d w a b s
  | .minN32 d w a b => Sys2Proof.Machine.execMinN32 d w a b s
  | .maxN32 d w a b => Sys2Proof.Machine.execMaxN32 d w a b s
  | .shlB32 d w a b => Sys2Proof.Machine.execShlB32 d w a b s
  | .shrN32 d w a b => Sys2Proof.Machine.execShrN32 d w a b s
  | .shrI32 d w a b => Sys2Proof.Machine.execShrI32 d w a b s
  | .rotlB32 d w a b => Sys2Proof.Machine.execRotlB32 d w a b s
  | .rotrB32 d w a b => Sys2Proof.Machine.execRotrB32 d w a b s
  | .shlB32Imm d w a n => Sys2Proof.Machine.execShlB32Imm d w a n s
  | .shrN32Imm d w a n => Sys2Proof.Machine.execShrN32Imm d w a n s
  | .shrI32Imm d w a n => Sys2Proof.Machine.execShrI32Imm d w a n s
  | .rotlB32Imm d w a n => Sys2Proof.Machine.execRotlB32Imm d w a n s
  | .rotrB32Imm d w a n => Sys2Proof.Machine.execRotrB32Imm d w a n s
  | .popcB32 d w a => Sys2Proof.Machine.execPopcB32 d w a s
  | .clzB32 d w a => Sys2Proof.Machine.execClzB32 d w a s
  | .ctzB32 d w a => Sys2Proof.Machine.execCtzB32 d w a s
  | .brevB32 d w a => Sys2Proof.Machine.execBrevB32 d w a s
  | .bfxN32 d w a pos len => Sys2Proof.Machine.execBfxN32 d w a pos len s
  | .bfxI32 d w a pos len => Sys2Proof.Machine.execBfxI32 d w a pos len s
  | .bfiB32 d w a b pos len => Sys2Proof.Machine.execBfiB32 d w a b pos len s
  | .ternB32 d w a b c tbl => Sys2Proof.Machine.execTernB32 d w a b c tbl s
  | .andB32 d w a b => Sys2Proof.Machine.execAndB32 d w a b s
  | .orB32 d w a b => Sys2Proof.Machine.execOrB32 d w a b s
  | .xorB32 d w a b => Sys2Proof.Machine.execXorB32 d w a b s
  | .notB32 d w a => Sys2Proof.Machine.execNotB32 d w a s
  | .andB32Imm d w a imm => Sys2Proof.Machine.execAndB32Imm d w a imm s
  | .orB32Imm d w a imm => Sys2Proof.Machine.execOrB32Imm d w a imm s
  | .xorB32Imm d w a imm => Sys2Proof.Machine.execXorB32Imm d w a imm s
  | .movB32 d w a => Sys2Proof.Machine.execMovB32 d w a s
  | .movB32Imm d w t imm => Sys2Proof.Machine.execMovB32Imm d w t imm s
  | .addB64 d w a b => Sys2Proof.Machine.execAddB64 d w a b s
  | .subB64 d w a b => Sys2Proof.Machine.execSubB64 d w a b s
  | .mulLoB64 d w a b => Sys2Proof.Machine.execMulLoB64 d w a b s
  | .minI64 d w a b => Sys2Proof.Machine.execMinI64 d w a b s
  | .maxI64 d w a b => Sys2Proof.Machine.execMaxI64 d w a b s
  | .minN64 d w a b => Sys2Proof.Machine.execMinN64 d w a b s
  | .maxN64 d w a b => Sys2Proof.Machine.execMaxN64 d w a b s
  | .shlB64 d w a b => Sys2Proof.Machine.execShlB64 d w a b s
  | .shrN64 d w a b => Sys2Proof.Machine.execShrN64 d w a b s
  | .shrI64 d w a b => Sys2Proof.Machine.execShrI64 d w a b s
  | .movB64Imm d w imm => Sys2Proof.Machine.execMovB64Imm d w imm s
  | .smovB64 r_ a => Sys2Proof.Machine.execSmovB64 r_ a s
  | .selB32 d w a b p => Sys2Proof.Machine.execSelB32 d w a b p s
  | .selB64 d w a b p => Sys2Proof.Machine.execSelB64 d w a b p s
  | .setpEqB32 p a b => Sys2Proof.Machine.execSetpEqB32 p a b s
  | .setpNeB32 p a b => Sys2Proof.Machine.execSetpNeB32 p a b s
  | .setpLtI32 p a b => Sys2Proof.Machine.execSetpLtI32 p a b s
  | .setpLeI32 p a b => Sys2Proof.Machine.execSetpLeI32 p a b s
  | .setpGtI32 p a b => Sys2Proof.Machine.execSetpGtI32 p a b s
  | .setpGeI32 p a b => Sys2Proof.Machine.execSetpGeI32 p a b s
  | .setpLtN32 p a b => Sys2Proof.Machine.execSetpLtN32 p a b s
  | .setpLeN32 p a b => Sys2Proof.Machine.execSetpLeN32 p a b s
  | .setpGtN32 p a b => Sys2Proof.Machine.execSetpGtN32 p a b s
  | .setpGeN32 p a b => Sys2Proof.Machine.execSetpGeN32 p a b s
  | .setpEqB64 p a b => Sys2Proof.Machine.execSetpEqB64 p a b s
  | .setpNeB64 p a b => Sys2Proof.Machine.execSetpNeB64 p a b s
  | .setpLtI64 p a b => Sys2Proof.Machine.execSetpLtI64 p a b s
  | .setpLeI64 p a b => Sys2Proof.Machine.execSetpLeI64 p a b s
  | .setpLtN64 p a b => Sys2Proof.Machine.execSetpLtN64 p a b s
  | .setpLeN64 p a b => Sys2Proof.Machine.execSetpLeN64 p a b s
  | .setpEqB32Imm p a imm => Sys2Proof.Machine.execSetpEqB32Imm p a imm s
  | .setpNeB32Imm p a imm => Sys2Proof.Machine.execSetpNeB32Imm p a imm s
  | .setpLtI32Imm p a imm => Sys2Proof.Machine.execSetpLtI32Imm p a imm s
  | .setpLeI32Imm p a imm => Sys2Proof.Machine.execSetpLeI32Imm p a imm s
  | .setpGtI32Imm p a imm => Sys2Proof.Machine.execSetpGtI32Imm p a imm s
  | .setpGeI32Imm p a imm => Sys2Proof.Machine.execSetpGeI32Imm p a imm s
  | .andPred p a b => Sys2Proof.Machine.execAndPred p a b s
  | .orPred p a b => Sys2Proof.Machine.execOrPred p a b s
  | .xorPred p a b => Sys2Proof.Machine.execXorPred p a b s
  | .notPred p a => Sys2Proof.Machine.execNotPred p a s
  | .ptrAdd d w a b sc e => Sys2Proof.Machine.execPtrAdd d w a b sc e s
  | .ptrDiff d w a b => Sys2Proof.Machine.execPtrDiff d w a b s
  | .ptrAddImm d w a imm => Sys2Proof.Machine.execPtrAddImm d w a imm s
  | .bra p n o => Sys2Proof.Machine.execBra p n o s
  | .jmp a => Sys2Proof.Machine.execJmp a s
  | .call l o => Sys2Proof.Machine.execCall l o s
  | .callInd l a => Sys2Proof.Machine.execCallInd l a s
  | .ret a => Sys2Proof.Machine.execRet a s
  | .conv => Sys2Proof.Machine.execConv s
  | .exit => Sys2Proof.Machine.execExit s
  | .loop ncl cnt incs => Sys2Proof.Machine.execLoop ncl cnt incs s
  | .chkb x a b => Sys2Proof.Machine.execChkb x a b s
  | .chkland a => Sys2Proof.Machine.execChkland a s
  | .chkaln a e => Sys2Proof.Machine.execChkaln a e s
  | .addF32 r d w a b => Sys2Proof.Machine.execAddF32 r d w a b s
  | .subF32 r d w a b => Sys2Proof.Machine.execSubF32 r d w a b s
  | .mulF32 r d w a b => Sys2Proof.Machine.execMulF32 r d w a b s
  | .fmaF32 r d w a b => Sys2Proof.Machine.execFmaF32 r d w a b s
  | .addF16x2 r d w a b => Sys2Proof.Machine.execAddF16x2 r d w a b s
  | .mulF16x2 r d w a b => Sys2Proof.Machine.execMulF16x2 r d w a b s
  | .fmaF16x2 r d w a b => Sys2Proof.Machine.execFmaF16x2 r d w a b s
  | .addBf16x2 r d w a b => Sys2Proof.Machine.execAddBf16x2 r d w a b s
  | .mulBf16x2 r d w a b => Sys2Proof.Machine.execMulBf16x2 r d w a b s
  | .fmaBf16x2 r d w a b => Sys2Proof.Machine.execFmaBf16x2 r d w a b s
  | .minF32 d w a b => Sys2Proof.Machine.execMinF32 d w a b s
  | .maxF32 d w a b => Sys2Proof.Machine.execMaxF32 d w a b s
  | .absF32 d w a => Sys2Proof.Machine.execAbsF32 d w a s
  | .negF32 d w a => Sys2Proof.Machine.execNegF32 d w a s
  | .rcpApproxF32 d w a => Sys2Proof.Machine.execRcpApproxF32 d w a s
  | .rsqrtApproxF32 d w a => Sys2Proof.Machine.execRsqrtApproxF32 d w a s
  | .sqrtApproxF32 d w a => Sys2Proof.Machine.execSqrtApproxF32 d w a s
  | .exp2ApproxF32 d w a => Sys2Proof.Machine.execExp2ApproxF32 d w a s
  | .log2ApproxF32 d w a => Sys2Proof.Machine.execLog2ApproxF32 d w a s
  | .sinApproxF32 d w a => Sys2Proof.Machine.execSinApproxF32 d w a s
  | .cosApproxF32 d w a => Sys2Proof.Machine.execCosApproxF32 d w a s
  | .tanhApproxF32 d w a => Sys2Proof.Machine.execTanhApproxF32 d w a s
  | .sqrtF32 r d w a => Sys2Proof.Machine.execSqrtF32 r d w a s
  | .setpEqF32 p a b => Sys2Proof.Machine.execSetpEqF32 p a b s
  | .setpNeF32 p a b => Sys2Proof.Machine.execSetpNeF32 p a b s
  | .setpLtF32 p a b => Sys2Proof.Machine.execSetpLtF32 p a b s
  | .setpLeF32 p a b => Sys2Proof.Machine.execSetpLeF32 p a b s
  | .setpGtF32 p a b => Sys2Proof.Machine.execSetpGtF32 p a b s
  | .setpGeF32 p a b => Sys2Proof.Machine.execSetpGeF32 p a b s
  | .setpNanF32 p a b => Sys2Proof.Machine.execSetpNanF32 p a b s
  | .cvtF32I32 r d w a => Sys2Proof.Machine.execCvtF32I32 r d w a s
  | .cvtF32N32 r d w a => Sys2Proof.Machine.execCvtF32N32 r d w a s
  | .cvtI32F32 r d w a => Sys2Proof.Machine.execCvtI32F32 r d w a s
  | .cvtN32F32 r d w a => Sys2Proof.Machine.execCvtN32F32 r d w a s
  | .cvtF16F32 r d w a => Sys2Proof.Machine.execCvtF16F32 r d w a s
  | .cvtBf16F32 r d w a => Sys2Proof.Machine.execCvtBf16F32 r d w a s
  | .cvtF32F16 d w a => Sys2Proof.Machine.execCvtF32F16 d w a s
  | .cvtF32Bf16 d w a => Sys2Proof.Machine.execCvtF32Bf16 d w a s
  | .cvtSatF8aF32 d w a => Sys2Proof.Machine.execCvtSatF8aF32 d w a s
  | .cvtNanF8aF32 d w a => Sys2Proof.Machine.execCvtNanF8aF32 d w a s
  | .cvtSatF8bF32 d w a => Sys2Proof.Machine.execCvtSatF8bF32 d w a s
  | .cvtNanF8bF32 d w a => Sys2Proof.Machine.execCvtNanF8bF32 d w a s
  | .cvtSatF4F32 d w a => Sys2Proof.Machine.execCvtSatF4F32 d w a s
  | .cvtF32F8a d w a => Sys2Proof.Machine.execCvtF32F8a d w a s
  | .cvtF32F8b d w a => Sys2Proof.Machine.execCvtF32F8b d w a s
  | .cvtF32F4 d w a b => Sys2Proof.Machine.execCvtF32F4 d w a b s
  | .cvtSatI8I32 d w a => Sys2Proof.Machine.execCvtSatI8I32 d w a s
  | .cvtI32I8 d w a => Sys2Proof.Machine.execCvtI32I8 d w a s
  | .quantQ8F32 d w a b => Sys2Proof.Machine.execQuantQ8F32 d w a b s
  | .quantQ4F32 d w a b => Sys2Proof.Machine.execQuantQ4F32 d w a b s
  | .dequantF32Q8 d w a b => Sys2Proof.Machine.execDequantF32Q8 d w a b s
  | .dequantF32Q4 d w a b => Sys2Proof.Machine.execDequantF32Q4 d w a b s
  | .packB16 d w a b => Sys2Proof.Machine.execPackB16 d w a b s
  | .packB8 d w a p => Sys2Proof.Machine.execPackB8 d w a p s
  | .packB4 d w a p => Sys2Proof.Machine.execPackB4 d w a p s
  | .unpackB16 d w a p => Sys2Proof.Machine.execUnpackB16 d w a p s
  | .unpackB8 d w a p => Sys2Proof.Machine.execUnpackB8 d w a p s
  | .unpackB4 d w a p => Sys2Proof.Machine.execUnpackB4 d w a p s
  | .xlPick d w a b => Sys2Proof.Machine.execXlPick d w a b s
  | .xlRol d w a b => Sys2Proof.Machine.execXlRol d w a b s
  | .xlRor d w a b => Sys2Proof.Machine.execXlRor d w a b s
  | .xlBfly d w a b => Sys2Proof.Machine.execXlBfly d w a b s
  | .redAddB32 d w a => Sys2Proof.Machine.execRedAddB32 d w a s
  | .redMinI32 d w a => Sys2Proof.Machine.execRedMinI32 d w a s
  | .redMaxI32 d w a => Sys2Proof.Machine.execRedMaxI32 d w a s
  | .redMinN32 d w a => Sys2Proof.Machine.execRedMinN32 d w a s
  | .redMaxN32 d w a => Sys2Proof.Machine.execRedMaxN32 d w a s
  | .redAndB32 d w a => Sys2Proof.Machine.execRedAndB32 d w a s
  | .redOrB32 d w a => Sys2Proof.Machine.execRedOrB32 d w a s
  | .redXorB32 d w a => Sys2Proof.Machine.execRedXorB32 d w a s
  | .redAddF32 d w a => Sys2Proof.Machine.execRedAddF32 d w a s
  | .redMinF32 d w a => Sys2Proof.Machine.execRedMinF32 d w a s
  | .redMaxF32 d w a => Sys2Proof.Machine.execRedMaxF32 d w a s
  | .minidxN32 d w a => Sys2Proof.Machine.execMinidxN32 d w a s
  | .minidxI32 d w a => Sys2Proof.Machine.execMinidxI32 d w a s
  | .minidxF32 d w a => Sys2Proof.Machine.execMinidxF32 d w a s
  | .scanInclAddB32 d w a => Sys2Proof.Machine.execScanInclAddB32 d w a s
  | .scanExclAddB32 d w a => Sys2Proof.Machine.execScanExclAddB32 d w a s
  | .scanInclMaxI32 d w a => Sys2Proof.Machine.execScanInclMaxI32 d w a s
  | .scanInclMinI32 d w a => Sys2Proof.Machine.execScanInclMinI32 d w a s
  | .pollAll p a => Sys2Proof.Machine.execPollAll p a s
  | .pollAny p a => Sys2Proof.Machine.execPollAny p a s
  | .pollMask d w a => Sys2Proof.Machine.execPollMask d w a s
  | .pollSame p a => Sys2Proof.Machine.execPollSame p a s
  | .ldN8 d a b x => Sys2Proof.Machine.execLdN8 d a b x s
  | .ldI8 d a b x => Sys2Proof.Machine.execLdI8 d a b x s
  | .ldN16 d a b x => Sys2Proof.Machine.execLdN16 d a b x s
  | .ldI16 d a b x => Sys2Proof.Machine.execLdI16 d a b x s
  | .ldB32 d a b x => Sys2Proof.Machine.execLdB32 d a b x s
  | .ldB64 d a b x => Sys2Proof.Machine.execLdB64 d a b x s
  | .ldB128 d a b x => Sys2Proof.Machine.execLdB128 d a b x s
  | .stB8 d a b x => Sys2Proof.Machine.execStB8 d a b x s
  | .stB16 d a b x => Sys2Proof.Machine.execStB16 d a b x s
  | .stB32 d a b x => Sys2Proof.Machine.execStB32 d a b x s
  | .stB64 d a b x => Sys2Proof.Machine.execStB64 d a b x s
  | .stB128 d a b x => Sys2Proof.Machine.execStB128 d a b x s
  | .ldsB32 d a b x => Sys2Proof.Machine.execLdsB32 d a b x s
  | .ldsB64 d a b x => Sys2Proof.Machine.execLdsB64 d a b x s
  | .ldsB128 d a b x => Sys2Proof.Machine.execLdsB128 d a b x s
  | .stsB32 d a b x => Sys2Proof.Machine.execStsB32 d a b x s
  | .stsB64 d a b x => Sys2Proof.Machine.execStsB64 d a b x s
  | .stsB128 d a b x => Sys2Proof.Machine.execStsB128 d a b x s
  | .stashMap tok a b x => Sys2Proof.Machine.execStashMap tok a b x s
  | .stashUnmap b x => Sys2Proof.Machine.execStashUnmap b x s
  | .stashFlush b x => Sys2Proof.Machine.execStashFlush b x s
  | .flaskCreate r_ a b x => Sys2Proof.Machine.execFlaskCreate r_ a b x s
  | .flaskSeal r_ a x => Sys2Proof.Machine.execFlaskSeal r_ a x s
  | .flaskReopen r_ a x => Sys2Proof.Machine.execFlaskReopen r_ a x s
  | .flaskRetire r_ a x => Sys2Proof.Machine.execFlaskRetire r_ a x s
  | .flaskAcq r_ a x => Sys2Proof.Machine.execFlaskAcq r_ a x s
  | .flaskRel r_ a x => Sys2Proof.Machine.execFlaskRel r_ a x s
  | .atomAddB32 d a b x => Sys2Proof.Machine.execAtomAddB32 d a b x s
  | .atomAddB64 d a b x => Sys2Proof.Machine.execAtomAddB64 d a b x s
  | .atomMinI32 d a b x => Sys2Proof.Machine.execAtomMinI32 d a b x s
  | .atomMaxI32 d a b x => Sys2Proof.Machine.execAtomMaxI32 d a b x s
  | .atomMinN32 d a b x => Sys2Proof.Machine.execAtomMinN32 d a b x s
  | .atomMaxN32 d a b x => Sys2Proof.Machine.execAtomMaxN32 d a b x s
  | .atomAndB32 d a b x => Sys2Proof.Machine.execAtomAndB32 d a b x s
  | .atomOrB32 d a b x => Sys2Proof.Machine.execAtomOrB32 d a b x s
  | .atomXorB32 d a b x => Sys2Proof.Machine.execAtomXorB32 d a b x s
  | .atomXchgB32 d a b x => Sys2Proof.Machine.execAtomXchgB32 d a b x s
  | .atomXchgB64 d a b x => Sys2Proof.Machine.execAtomXchgB64 d a b x s
  | .atomCasB32 d a b x => Sys2Proof.Machine.execAtomCasB32 d a b x s
  | .atomCasB64 d a b x => Sys2Proof.Machine.execAtomCasB64 d a b x s
  | .atomAddF32 d a b x => Sys2Proof.Machine.execAtomAddF32 d a b x s
  | .atomMinI64 d a b x => Sys2Proof.Machine.execAtomMinI64 d a b x s
  | .atomMaxI64 d a b x => Sys2Proof.Machine.execAtomMaxI64 d a b x s
  | .fence a b x => Sys2Proof.Machine.execFence a b x s
  | .barGroup => Sys2Proof.Machine.execBarGroup s
  | .barTeam => Sys2Proof.Machine.execBarTeam s
  | .barRole q => Sys2Proof.Machine.execBarRole q s
  | .barRollcall => Sys2Proof.Machine.execBarRollcall s
  | .copy a b x => Sys2Proof.Machine.execCopy a b x s
  | .gather a b x => Sys2Proof.Machine.execGather a b x s
  | .coll a b x => Sys2Proof.Machine.execColl a b x s
  | .engWait r_ a => Sys2Proof.Machine.execEngWait r_ a s
  | .lockAcq a x => Sys2Proof.Machine.execLockAcq a x s
  | .lockRel a x => Sys2Proof.Machine.execLockRel a x s
  | .talloc d t f => Sys2Proof.Machine.execTalloc d t f s
  | .tfree a => Sys2Proof.Machine.execTfree a s
  | .tgiveRing a k => Sys2Proof.Machine.execTgiveRing a k s
  | .tgiveRole a q => Sys2Proof.Machine.execTgiveRole a q s
  | .ttakeRing d t k => Sys2Proof.Machine.execTtakeRing d t k s
  | .ttakeRole d t => Sys2Proof.Machine.execTtakeRole d t s
  | .tld h a b x => Sys2Proof.Machine.execTld h a b x s
  | .tst h a b x => Sys2Proof.Machine.execTst h a b x s
  | .tcvt d a r_ f => Sys2Proof.Machine.execTcvt d a r_ f s
  | .tspread d a q f => Sys2Proof.Machine.execTspread d a q f s
  | .ttag h a b gs zv gb => Sys2Proof.Machine.execTtag h a b gs zv gb s
  | .ttagXval h xval => Sys2Proof.Machine.execTtagXval h xval s
  | .mxAcq => Sys2Proof.Machine.execMxAcq s
  | .mxRel => Sys2Proof.Machine.execMxRel s
  | .mxPass r_ a b n f => Sys2Proof.Machine.execMxPass r_ a b n f s
  | .mxQpass q r_ a b n f => Sys2Proof.Machine.execMxQpass q r_ a b n f s
  | .mxBpass r_ a b n f => Sys2Proof.Machine.execMxBpass r_ a b n f s
  | .mxStream ncl b x => Sys2Proof.Machine.execMxStream ncl b x s
  | .mxDrainMem a b x => Sys2Proof.Machine.execMxDrainMem a b x s
  | .mxDrainTile d z h n f => Sys2Proof.Machine.execMxDrainTile d z h n f s
  | .mxDrainColl e z a b x => Sys2Proof.Machine.execMxDrainColl e z a b x s
  | .mxEpi h x => Sys2Proof.Machine.execMxEpi h x s
  | .mxZero n f => Sys2Proof.Machine.execMxZero n f s
  | .hmPut d w a ks op => Sys2Proof.Machine.execHmPut d w a ks op s
  | .hmRput d w a ks => Sys2Proof.Machine.execHmRput d w a ks s
  | .hmGet d ks => Sys2Proof.Machine.execHmGet d ks s
  | .hmDone ks => Sys2Proof.Machine.execHmDone ks s
  | .hmKscfgOpen d w a b ks => Sys2Proof.Machine.execHmKscfgOpen d w a b ks s
  | .hmKscfgQuery d w ks => Sys2Proof.Machine.execHmKscfgQuery d w ks s
  | .hmKscfgClose d w ks => Sys2Proof.Machine.execHmKscfgClose d w ks s
  | .hmGdrain d a b g => Sys2Proof.Machine.execHmGdrain d a b g s
  | .hmGreload d a b g => Sys2Proof.Machine.execHmGreload d a b g s
  | .trap n => Sys2Proof.Machine.execTrap n s
  | .rttResume => Sys2Proof.Machine.execRttResume s
  | .rttEnd => Sys2Proof.Machine.execRttEnd s
  | .rdsys d r_ => Sys2Proof.Machine.execRdsys d r_ s
  | .wrsys a r_ => Sys2Proof.Machine.execWrsys a r_ s
  | .warnClr m => Sys2Proof.Machine.execWarnClr m s
  | .brk n => Sys2Proof.Machine.execBrk n s
  | .ctrRd d k => Sys2Proof.Machine.execCtrRd d k s
  | .ctrCfg a k => Sys2Proof.Machine.execCtrCfg a k s
  | .yield => Sys2Proof.Machine.execYield s
  | .vregGrow n => Sys2Proof.Machine.execVregGrow n s
  | .vregShrink n => Sys2Proof.Machine.execVregShrink n s
  | .schedHint d w a b => Sys2Proof.Machine.execSchedHint d w a b s
  | .pref d w a b x => Sys2Proof.Machine.execPref d w a b x s
  | .evictHint d w a b x => Sys2Proof.Machine.execEvictHint d w a b x s
  | .unimplementedHint op d w a b ext => Sys2Proof.Machine.execUnimplementedHint op d w a b ext s
  | .portTrained port node ok => Sys2Proof.Machine.execPortTrained port node ok s
  | .flitCheckFailure port => Sys2Proof.Machine.execFlitCheckFailure port s
  | .agentReadmission agent => Sys2Proof.Machine.execAgentReadmission agent s
  | .deadAcknowledgement agent from_ => Sys2Proof.Machine.execDeadAcknowledgement agent from_ s
  | .hostDeathNotice node => Sys2Proof.Machine.execHostDeathNotice node s
  | .deepSleepEntry => Sys2Proof.Machine.execDeepSleepEntry s
  | .debuggerResume gid => Sys2Proof.Machine.execDebuggerResume gid s
  | .linkDownHandshake => Sys2Proof.Machine.execLinkDownHandshake s

end Sys2Proof.Machine
end

