-- ==== Sys2Proof/Machine/Step.lean ====
section
/-! DEFINITION. One step of the module, and the placing of one instruction where it takes its next one. -/

namespace Sys2Proof.Machine

/-- One step: the turn that comes next (R165, log 1), the meaning of its instruction or event, and what
follows every step (`State.settle`). -/
noncomputable def step (s : State) : Host.Outcome State Fault Refusal :=
  match s.nextTurn with
  | .instr i n s =>
    match exec i s with
    | .next s => .next (s.afterInstr n).settle
    | .fault r => .fault r
    | .refused r => .refused r
  | .event e s =>
    match exec e s with
    | .next s => .next s.settle
    | .fault r => .fault r
    | .refused r => .refused r
  | .idle s => .next s
  | .neverIssued => .fault .neverIssued
  | .notAnEvent => .refused .notAnEvent

/-- The machine with the instruction of a table word as the next one that it issues (log 8). -/
noncomputable def State.withFetchWord (s : State) (nbits w : Nat) : State := s.withClause (tableWords nbits w)

end Sys2Proof.Machine
end

