-- ==== Sys2Proof/Safety.lean ====
section
/-! DEFINITION. What the claims call a sound state. -/

namespace Sys2Proof.Machine

/-- Memory is in its canonical form. -/
def State.Sound (s : State) : Prop := Memory.wf s.mem = true

end Sys2Proof.Machine
end

