-- ==== Sys2Proof/Safety/Lanes.lean ====
section
/-! DEFINITION. What an instruction that writes registers lane by lane may change, in the terms of the claims: relations
between the state before and after, with everything that stays the same said once. -/

namespace Sys2Proof.Claims

open Sys2Proof.Machine

/-- Lane `i` of the group is in the issuing pick (R165). -/
def InPick (s : State) (g : Group) (i : Nat) : Prop :=
  ∃ p, s.cur = some p ∧ (p.mask g.gid).getLsbD i = true

/-- Nothing but lanes has changed: memory, every scalar, handle, status, exception and event register, every counter and
every other unit hold what they held; a lane for which `who` holds has become what `f` allows, and every other lane is as
it was. -/
structure LanesBecome (s t : State) (who : Group → Nat → Prop) (f : Group → Nat → Lane → Lane → Prop) : Prop where
  elsewhere : t = { s with groups := t.groups }
  count : t.groups.length = s.groups.length
  groups : ∀ (k : Nat) (g : Group), s.groups[k]? = some g → ∃ g' : Group, t.groups[k]? = some g' ∧ g' = { g with lanes := g'.lanes } ∧
    g'.lanes.length = g.lanes.length ∧ ∀ (i : Nat) (l : Lane), g.lanes[i]? = some l → ∃ l' : Lane, g'.lanes[i]? = some l' ∧
      (who g i → f g i l l') ∧ (¬ who g i → l' = l)

/-- The vector register of a lane that has taken the value `x` for `d`, the others being as before. -/
def RegsAfter (l l' : Lane) (d : Nat) (x : Word) : Prop :=
  ∀ n, n < 128 → l'.reg n = if n = d then x else l.reg n

/-- A 32-bit vector result (R190, R191): with the guard true, D takes the value unless WS is 1 and the latches take it;
with the guard false, D is kept and the latches take D, or 0 when WS is 1. A result that was on its way to a written D
will be discarded (R182). Nothing else of the lane changes. -/
structure Result32 (l l' : Lane) (d : Nat) (w : BitVec 1) (x : Word) : Prop where
  kept : l' = { l with v := l'.v, lat := l'.lat, pend := l'.pend }
  regs : if l.guard = true ∧ w = 0#1 then RegsAfter l l' d x ∧ l'.pend = l.pend.filter (fun e => e.1 != d)
    else l'.v = l.v ∧ l'.pend = l.pend
  latches : l'.lat = #v[if l.guard then x else if w = 0#1 then l.reg d else 0#32, l.lat[0], l.lat[1], l.lat[2]]

/-- A 64-bit vector result to the pair of the even register `d` (R188, R190, R191). -/
structure Result64 (l l' : Lane) (d : Nat) (w : BitVec 1) (x : DWord) : Prop where
  kept : l' = { l with v := l'.v, lat := l'.lat, pend := l'.pend }
  regs : if l.guard = true ∧ w = 0#1 then
      (∀ n, n < 128 → l'.reg n = if n = d then x.extractLsb' 0 32 else if n = d + 1 then x.extractLsb' 32 32 else l.reg n) ∧
        l'.pend = (l.pend.filter fun e => e.1 != d).filter fun e => e.1 != d + 1
    else l'.v = l.v ∧ l'.pend = l.pend
  latches : l'.lat = if l.guard then #v[x.extractLsb' 0 32, x.extractLsb' 32 32, l.lat[0], l.lat[1]]
    else if w = 0#1 then #v[l.reg d, l.reg (d + 1), l.lat[0], l.lat[1]] else #v[0#32, 0#32, l.lat[0], l.lat[1]]

/-- A predicate result (R195, R285): with the guard true the predicate takes the value, p7 being written without effect;
nothing else of the lane changes. -/
structure ResultPred (l l' : Lane) (p : Nat) (c : Bool) : Prop where
  kept : l' = { l with p := l'.p }
  preds : ∀ n, n < 8 → l'.pred n = if l.guard = true ∧ n = p ∧ n ≠ 7 then c else l.pred n

/-- No lane of the pick has an operation out whose answer may still trap it: the lanes that have one wait at an instruction
that acts on more than themselves (R193, log 27). -/
def Settled (s : State) : Prop :=
  ∀ p, s.cur = some p → ∀ e ∈ p.members, ∀ i, e.2.getLsbD i = true → s.awaits e.1 i = false

/-- The issuing pick is one group's, all of whose lanes run in its own register bank, and every live lane of the group is
in it, ready: the condition for a convergent instruction to perform at once (R170, R171). -/
structure Converged (s : State) (p : Pick) (gid : Nat) (m : BitVec 64) (g : Group) : Prop where
  pick : s.cur = some p
  members : p.members = [(gid, m)]
  group : s.groups.filter (fun g => g.gid == gid) = [g]
  bank : g.frames = []
  live : g.maskOf (fun _ l => l.live) = m
  some : m ≠ 0#64
  ready : ∀ l ∈ g.lanes, l.live = true → l.status = .ready
  settled : Settled s

/-- Lane `i` of a converged group takes part. -/
def Taking (gid : Nat) (m : BitVec 64) (g : Group) (i : Nat) : Prop := g.gid = gid ∧ m.getLsbD i = true

/-- The lanes that contribute to a cross-lane instruction: those at it whose guard is true, lowest first (R314). -/
def contributes (g : Group) (m : BitVec 64) : List (Nat × Lane) :=
  ((List.range g.lanes.length).filterMap fun i => g.lanes[i]?.map fun l => (i, l)).filter fun e =>
    m.getLsbD e.1 && e.2.guard

end Sys2Proof.Claims
end

