-- ==== Sys2Proof/Safety/Values.lean ====
section
/-! DEFINITION. The results of the register instructions, as the claims state them: for each instruction its destination,
its WS bit, and its value from the operands. The integer values are written with exact integers and the plain bit-vector
operations; the floating-point ones with the rounding of an exact value. -/

namespace Sys2Proof.Claims

open Sys2Proof.Machine

/-- The value of a lane's 32-bit result. -/
abbrev Val32 := Group → Nat → Lane → Word
/-- The value of a lane's 64-bit result. -/
abbrev Val64 := Group → Nat → Lane → DWord
/-- The value of a lane's predicate result. -/
abbrev ValPred := Group → Nat → Lane → Bool

/-- A value of one 32-bit source. -/
def of1 (a : BitVec 8) (f : Word → Word) : Val32 := fun g i l => f (src32 g i l a)
/-- A value of two 32-bit sources. -/
def of2 (a b : BitVec 8) (f : Word → Word → Word) : Val32 := fun g i l => f (src32 g i l a) (src32 g i l b)
/-- A value of two 64-bit sources. -/
def of2w (a b : BitVec 8) (f : DWord → DWord → DWord) : Val64 := fun g i l => f (Machine.src64 g i l a) (Machine.src64 g i l b)
/-- A value of a 64-bit source and a 32-bit count. -/
def ofShift (a b : BitVec 8) (f : DWord → Nat → DWord) : Val64 := fun g i l => f (Machine.src64 g i l a) (src32 g i l b).toNat

/-- An exact integer brought into a range (R265). -/
def clampTo (lo hi x : Int) : Int := if x < lo then lo else if hi < x then hi else x
/-- The exact quotient, truncated towards zero, with the results of R275 for a zero divisor and for the overflow. -/
def quotI (x y : Word) : Word :=
  if y.toInt = 0 then BitVec.ofInt 32 (-1) else if x.toInt = -2147483648 ∧ y.toInt = -1 then BitVec.ofInt 32 (-2147483648)
  else BitVec.ofInt 32 (x.toInt.sign * y.toInt.sign * (x.toInt.natAbs / y.toInt.natAbs : Nat))
/-- The remainder with the sign of the dividend; the dividend itself for a zero divisor (R275). -/
def remI (x y : Word) : Word :=
  if y.toInt = 0 then x else BitVec.ofInt 32 (x.toInt.sign * (x.toInt.natAbs % y.toInt.natAbs : Nat))
/-- R278: the number of bits set. -/
def bitsSet (x : Word) : Word := BitVec.ofNat 32 ((List.range 32).countP fun i => x.getLsbD i)
/-- R278: the zero bits above the highest bit set. -/
def zerosAbove (x : Word) : Word := BitVec.ofNat 32 (((List.range 32).takeWhile fun i => !x.getLsbD (31 - i)).length)
/-- R278: the zero bits below the lowest bit set. -/
def zerosBelow (x : Word) : Word := BitVec.ofNat 32 (((List.range 32).takeWhile fun i => !x.getLsbD i).length)
/-- R279: the bits `pos` to `pos` + `len` − 1 that lie within the word. -/
def fieldBits (pos len : Nat) : Nat := min 32 (pos + len) - pos
/-- The minterm of three bits (R280). -/
def minterm (a b c : Word) (k : Nat) : Word :=
  (if k.testBit 0 then a else ~~~a) &&& (if k.testBit 1 then b else ~~~b) &&& if k.testBit 2 then c else ~~~c
/-- R280: the function of three inputs whose table is `tbl`. -/
def ofTable (tbl : BitVec 8) (a b c : Word) : Word :=
  (List.range 8).foldr (fun k r => if tbl.getLsbD k then minterm a b c k ||| r else r) 0#32

/-- The 32-bit results of class 0 (R273 to R281, R283). -/
def intResult (i : Instr) : Option (BitVec 7 × BitVec 1 × Val32) :=
  match i with
  | .addB32 d w a b => some (d, w, of2 a b fun x y => BitVec.ofNat 32 (x.toNat + y.toNat))
  | .addB32Imm d w a i => some (d, w, of1 a fun x => BitVec.ofInt 32 (x.toInt + i.toInt))
  | .subB32 d w a b => some (d, w, of2 a b fun x y => BitVec.ofInt 32 (x.toInt - y.toInt))
  | .subB32Imm d w a i => some (d, w, of1 a fun x => BitVec.ofInt 32 (x.toInt - i.toInt))
  | .addSatI32 d w a b => some (d, w, of2 a b fun x y => BitVec.ofInt 32 (clampTo (-2147483648) 2147483647 (x.toInt + y.toInt)))
  | .addSatN32 d w a b => some (d, w, of2 a b fun x y => BitVec.ofInt 32 (clampTo 0 4294967295 (x.toNat + y.toNat)))
  | .subSatI32 d w a b => some (d, w, of2 a b fun x y => BitVec.ofInt 32 (clampTo (-2147483648) 2147483647 (x.toInt - y.toInt)))
  | .subSatN32 d w a b => some (d, w, of2 a b fun x y => BitVec.ofInt 32 (clampTo 0 4294967295 (x.toNat - y.toNat)))
  | .mulLoB32 d w a b => some (d, w, of2 a b fun x y => BitVec.ofNat 32 (x.toNat * y.toNat))
  | .mulHiI32 d w a b => some (d, w, of2 a b fun x y => BitVec.ofInt 32 (x.toInt * y.toInt / 4294967296))
  | .mulHiN32 d w a b => some (d, w, of2 a b fun x y => BitVec.ofNat 32 (x.toNat * y.toNat / 4294967296))
  | .divI32 d w a b => some (d, w, of2 a b fun x y => quotI x y)
  | .divN32 d w a b => some (d, w, of2 a b fun x y => if y.toNat = 0 then BitVec.allOnes 32 else x / y)
  | .remI32 d w a b => some (d, w, of2 a b fun x y => remI x y)
  | .remN32 d w a b => some (d, w, of2 a b fun x y => if y.toNat = 0 then x else x % y)
  | .minI32 d w a b => some (d, w, of2 a b fun x y => BitVec.ofInt 32 (min x.toInt y.toInt))
  | .maxI32 d w a b => some (d, w, of2 a b fun x y => BitVec.ofInt 32 (max x.toInt y.toInt))
  | .minN32 d w a b => some (d, w, of2 a b fun x y => BitVec.ofNat 32 (min x.toNat y.toNat))
  | .maxN32 d w a b => some (d, w, of2 a b fun x y => BitVec.ofNat 32 (max x.toNat y.toNat))
  | .shlB32 d w a b => some (d, w, of2 a b fun x y => x <<< y.toNat)
  | .shrN32 d w a b => some (d, w, of2 a b fun x y => x >>> y.toNat)
  | .shrI32 d w a b => some (d, w, of2 a b fun x y => x.sshiftRight y.toNat)
  | .rotlB32 d w a b => some (d, w, of2 a b fun x y => x.rotateLeft y.toNat)
  | .rotrB32 d w a b => some (d, w, of2 a b fun x y => x.rotateRight y.toNat)
  | .shlB32Imm d w a n => some (d, w, of1 a fun x => x <<< n.toNat)
  | .shrN32Imm d w a n => some (d, w, of1 a fun x => x >>> n.toNat)
  | .shrI32Imm d w a n => some (d, w, of1 a fun x => x.sshiftRight n.toNat)
  | .rotlB32Imm d w a n => some (d, w, of1 a fun x => x.rotateLeft n.toNat)
  | .rotrB32Imm d w a n => some (d, w, of1 a fun x => x.rotateRight n.toNat)
  | .popcB32 d w a => some (d, w, of1 a fun x => bitsSet x)
  | .clzB32 d w a => some (d, w, of1 a fun x => zerosAbove x)
  | .ctzB32 d w a => some (d, w, of1 a fun x => zerosBelow x)
  | .brevB32 d w a => some (d, w, of1 a fun x => x.reverse)
  | .bfxN32 d w a pos len => some (d, w, of1 a fun x => (x.extractLsb' pos.toNat (fieldBits pos.toNat (len.toNat + 1))).setWidth 32)
  | .bfxI32 d w a pos len => some (d, w, of1 a fun x => (x.extractLsb' pos.toNat (fieldBits pos.toNat (len.toNat + 1))).signExtend 32)
  | .bfiB32 d w a b pos len => some (d, w, of2 a b fun x y =>
    (x &&& ~~~((BitVec.allOnes (fieldBits pos.toNat (len.toNat + 1))).setWidth 32 <<< pos.toNat)) |||
      ((y.extractLsb' 0 (fieldBits pos.toNat (len.toNat + 1))).setWidth 32 <<< pos.toNat))
  | .ternB32 d w a b c tbl => some (d, w, fun g i l => ofTable tbl (src32 g i l a) (src32 g i l b) (src32 g i l c))
  | .andB32 d w a b => some (d, w, of2 a b fun x y => x &&& y)
  | .orB32 d w a b => some (d, w, of2 a b fun x y => x ||| y)
  | .xorB32 d w a b => some (d, w, of2 a b fun x y => x ^^^ y)
  | .notB32 d w a => some (d, w, of1 a fun x => x ^^^ BitVec.allOnes 32)
  | .andB32Imm d w a i => some (d, w, of1 a fun x => x &&& BitVec.ofInt 32 i.toInt)
  | .orB32Imm d w a i => some (d, w, of1 a fun x => x ||| BitVec.ofInt 32 i.toInt)
  | .xorB32Imm d w a i => some (d, w, of1 a fun x => x ^^^ BitVec.ofInt 32 i.toInt)
  | .movB32 d w a => some (d, w, of1 a fun x => x)
  | .movB32Imm d w _ imm => some (d, w, fun _ _ _ => imm)
  | .selB32 d w a b p => some (d, w, fun g i l => if l.pred p.toNat then src32 g i l a else src32 g i l b)
  | _ => none

/-- The 64-bit results of class 0, to the pair whose number is `d` (R274, R281, R283, R284, R287, R288). -/
def wideResult (i : Instr) : Option (BitVec 6 × BitVec 1 × Val64) :=
  match i with
  | .mulWideI32 d w a b => some (d, w, fun g i l => BitVec.ofInt 64 ((src32 g i l a).toInt * (src32 g i l b).toInt))
  | .mulWideN32 d w a b => some (d, w, fun g i l => BitVec.ofNat 64 ((src32 g i l a).toNat * (src32 g i l b).toNat))
  | .addB64 d w a b => some (d, w, of2w a b fun x y => BitVec.ofNat 64 (x.toNat + y.toNat))
  | .subB64 d w a b => some (d, w, of2w a b fun x y => BitVec.ofInt 64 (x.toInt - y.toInt))
  | .mulLoB64 d w a b => some (d, w, of2w a b fun x y => BitVec.ofNat 64 (x.toNat * y.toNat))
  | .minI64 d w a b => some (d, w, of2w a b fun x y => BitVec.ofInt 64 (min x.toInt y.toInt))
  | .maxI64 d w a b => some (d, w, of2w a b fun x y => BitVec.ofInt 64 (max x.toInt y.toInt))
  | .minN64 d w a b => some (d, w, of2w a b fun x y => BitVec.ofNat 64 (min x.toNat y.toNat))
  | .maxN64 d w a b => some (d, w, of2w a b fun x y => BitVec.ofNat 64 (max x.toNat y.toNat))
  | .shlB64 d w a b => some (d, w, ofShift a b fun x n => x <<< n)
  | .shrN64 d w a b => some (d, w, ofShift a b fun x n => x >>> n)
  | .shrI64 d w a b => some (d, w, ofShift a b fun x n => x.sshiftRight n)
  | .movB64Imm d w imm => some (d, w, fun _ _ _ => BitVec.ofInt 64 imm.toInt)
  | .selB64 d w a b p => some (d, w, fun g i l => if l.pred p.toNat then Machine.src64 g i l a else Machine.src64 g i l b)
  | .ptrAdd d w a b sc e => some (d, w, fun g i l => BitVec.ofInt 64 ((Machine.src64 g i l a).toInt +
    2 ^ sc.toNat * (if e.toNat = 0 then ((src32 g i l b).toNat : Int) else if e.toNat = 1 then (src32 g i l b).toInt else (Machine.src64 g i l b).toInt)))
  | .ptrDiff d w a b => some (d, w, of2w a b fun x y => BitVec.ofInt 64 (x.toInt - y.toInt))
  | .ptrAddImm d w a imm => some (d, w, fun g i l => BitVec.ofInt 64 ((Machine.src64 g i l a).toInt + imm.toInt))
  | _ => none

/-- Two 16-bit codes in a word. -/
def pairOf (f : Nat → Nat) : Word := BitVec.ofNat 32 (f 0 % 65536 + 65536 * (f 1 % 65536))
/-- A word with the field of `n` bits from bit `lo` replaced by the low bits of another (R313). -/
def withField (x y : Word) (lo n : Nat) : Word :=
  (x &&& ~~~((BitVec.allOnes n).setWidth 32 <<< lo)) ||| ((y.extractLsb' 0 n).setWidth 32 <<< lo)
/-- −0 lies below +0, and a NaN gives way to the other operand (R307). -/
def lesserF (x y : Word) : Word :=
  if (xf x).isNaN && (xf y).isNaN then 0x7FC00000#32 else if (xf x).isNaN then y else if (xf y).isNaN then x
  else if (xf x).cmp (xf y) < 0 then x else if (xf x).cmp (xf y) > 0 then y else if (xf x).sign && !(xf y).sign then x else y
/-- The greater under the same order (R307). -/
def greaterF (x y : Word) : Word :=
  if (xf x).isNaN && (xf y).isNaN then 0x7FC00000#32 else if (xf x).isNaN then y else if (xf y).isNaN then x
  else if (xf x).cmp (xf y) > 0 then x else if (xf x).cmp (xf y) < 0 then y else if (xf x).sign && !(xf y).sign then y else x

/-- The predicate results of classes 0 and 1 but for the polls (R285, R286, R310). -/
def predResult (i : Instr) : Option (BitVec 3 × ValPred) :=
  match i with
  | .setpEqB32 p a b => some (p, fun g i l => decide ((src32 g i l a).toInt = (src32 g i l b).toInt))
  | .setpEqB32Imm p a k => some (p, fun g i l => decide ((src32 g i l a).toInt = k.toInt))
  | .setpNeB32 p a b => some (p, fun g i l => decide ((src32 g i l a).toInt ≠ (src32 g i l b).toInt))
  | .setpNeB32Imm p a k => some (p, fun g i l => decide ((src32 g i l a).toInt ≠ k.toInt))
  | .setpLtI32 p a b => some (p, fun g i l => decide ((src32 g i l a).toInt < (src32 g i l b).toInt))
  | .setpLtI32Imm p a k => some (p, fun g i l => decide ((src32 g i l a).toInt < k.toInt))
  | .setpLtN32 p a b => some (p, fun g i l => decide ((src32 g i l a).toNat < (src32 g i l b).toNat))
  | .setpLeI32 p a b => some (p, fun g i l => decide ((src32 g i l a).toInt ≤ (src32 g i l b).toInt))
  | .setpLeI32Imm p a k => some (p, fun g i l => decide ((src32 g i l a).toInt ≤ k.toInt))
  | .setpLeN32 p a b => some (p, fun g i l => decide ((src32 g i l a).toNat ≤ (src32 g i l b).toNat))
  | .setpGtI32 p a b => some (p, fun g i l => decide ((src32 g i l a).toInt > (src32 g i l b).toInt))
  | .setpGtI32Imm p a k => some (p, fun g i l => decide ((src32 g i l a).toInt > k.toInt))
  | .setpGtN32 p a b => some (p, fun g i l => decide ((src32 g i l a).toNat > (src32 g i l b).toNat))
  | .setpGeI32 p a b => some (p, fun g i l => decide ((src32 g i l a).toInt ≥ (src32 g i l b).toInt))
  | .setpGeI32Imm p a k => some (p, fun g i l => decide ((src32 g i l a).toInt ≥ k.toInt))
  | .setpGeN32 p a b => some (p, fun g i l => decide ((src32 g i l a).toNat ≥ (src32 g i l b).toNat))
  | .setpEqB64 p a b => some (p, fun g i l => decide ((Machine.src64 g i l a).toNat = (Machine.src64 g i l b).toNat))
  | .setpNeB64 p a b => some (p, fun g i l => decide ((Machine.src64 g i l a).toNat ≠ (Machine.src64 g i l b).toNat))
  | .setpLtI64 p a b => some (p, fun g i l => decide ((Machine.src64 g i l a).toInt < (Machine.src64 g i l b).toInt))
  | .setpLeI64 p a b => some (p, fun g i l => decide ((Machine.src64 g i l a).toInt ≤ (Machine.src64 g i l b).toInt))
  | .setpLtN64 p a b => some (p, fun g i l => decide ((Machine.src64 g i l a).toNat < (Machine.src64 g i l b).toNat))
  | .setpLeN64 p a b => some (p, fun g i l => decide ((Machine.src64 g i l a).toNat ≤ (Machine.src64 g i l b).toNat))
  | .andPred p a b => some (p, fun _ _ l => l.pred a.toNat && l.pred b.toNat)
  | .orPred p a b => some (p, fun _ _ l => l.pred a.toNat || l.pred b.toNat)
  | .xorPred p a b => some (p, fun _ _ l => l.pred a.toNat ^^ l.pred b.toNat)
  | .notPred p a => some (p, fun _ _ l => !l.pred a.toNat)
  | .setpEqF32 p a b => some (p, fun g i l =>
    let x := src32 g i l a
    let y := src32 g i l b
    feq x y)
  | .setpNeF32 p a b => some (p, fun g i l =>
    let x := src32 g i l a
    let y := src32 g i l b
    !feq x y)
  | .setpLtF32 p a b => some (p, fun g i l =>
    let x := src32 g i l a
    let y := src32 g i l b
    flt x y)
  | .setpLeF32 p a b => some (p, fun g i l =>
    let x := src32 g i l a
    let y := src32 g i l b
    fle x y)
  | .setpGtF32 p a b => some (p, fun g i l =>
    let x := src32 g i l a
    let y := src32 g i l b
    flt y x)
  | .setpGeF32 p a b => some (p, fun g i l =>
    let x := src32 g i l a
    let y := src32 g i l b
    fle y x)
  | .setpNanF32 p a b => some (p, fun g i l =>
    let x := src32 g i l a
    let y := src32 g i l b
    (xf x).isNaN || (xf y).isNaN)
  | _ => none

/-- The results of class 1, lane by lane (R305 to R309, R311 to R313); an addend or a packed word is the destination's own old value. -/
def floatResult (i : Instr) : Option (BitVec 7 × BitVec 1 × Val32) :=
  match i with
  | .addF32 r d w a b => some (d, w, of2 a b fun x y => toF32 (rndOf r) ((xf x).add (rndOf r == .down) (xf y)))
  | .subF32 r d w a b => some (d, w, of2 a b fun x y => toF32 (rndOf r) ((xf x).add (rndOf r == .down) (xf y).neg))
  | .mulF32 r d w a b => some (d, w, of2 a b fun x y => toF32 (rndOf r) ((xf x).mul (xf y)))
  | .fmaF32 r d w a b => some (d, w, fun g i l => toF32 (rndOf r)
    (((xf (src32 g i l a)).mul (xf (src32 g i l b))).add (rndOf r == .down) (xf (l.reg d.toNat))))
  | .addF16x2 r d w a b => some (d, w, of2 a b fun x y => pairOf fun k => f16.round (rnd1 r) ((f16.decode (half x k)).add false (f16.decode (half y k))))
  | .mulF16x2 r d w a b => some (d, w, of2 a b fun x y => pairOf fun k => f16.round (rnd1 r) ((f16.decode (half x k)).mul (f16.decode (half y k))))
  | .fmaF16x2 r d w a b => some (d, w, fun g i l => pairOf fun k => f16.round (rnd1 r)
    (((f16.decode (half (src32 g i l a) k)).mul (f16.decode (half (src32 g i l b) k))).add false (f16.decode (half (l.reg d.toNat) k))))
  | .addBf16x2 r d w a b => some (d, w, of2 a b fun x y => pairOf fun k => bf16.round (rnd1 r) ((bf16.decode (half x k)).add false (bf16.decode (half y k))))
  | .mulBf16x2 r d w a b => some (d, w, of2 a b fun x y => pairOf fun k => bf16.round (rnd1 r) ((bf16.decode (half x k)).mul (bf16.decode (half y k))))
  | .fmaBf16x2 r d w a b => some (d, w, fun g i l => pairOf fun k => bf16.round (rnd1 r)
    (((bf16.decode (half (src32 g i l a) k)).mul (bf16.decode (half (src32 g i l b) k))).add false (bf16.decode (half (l.reg d.toNat) k))))
  | .minF32 d w a b => some (d, w, of2 a b fun x y => lesserF x y)
  | .maxF32 d w a b => some (d, w, of2 a b fun x y => greaterF x y)
  | .absF32 d w a => some (d, w, of1 a fun x => if (xf x).isNaN then 0x7FC00000#32 else 0#1 ++ x.extractLsb' 0 31)
  | .negF32 d w a => some (d, w, of1 a fun x => if (xf x).isNaN then 0x7FC00000#32 else (~~~x.extractLsb' 31 1) ++ x.extractLsb' 0 31)
  | .rcpApproxF32 d w a => some (d, w, of1 a fun x => approxRcp x)
  | .rsqrtApproxF32 d w a => some (d, w, of1 a fun x => approxRsqrt x)
  | .sqrtApproxF32 d w a => some (d, w, of1 a fun x => approxSqrt x)
  | .exp2ApproxF32 d w a => some (d, w, of1 a fun x => approxExp2 x)
  | .log2ApproxF32 d w a => some (d, w, of1 a fun x => approxLog2 x)
  | .sinApproxF32 d w a => some (d, w, of1 a fun x => approxSin x)
  | .cosApproxF32 d w a => some (d, w, of1 a fun x => approxCos x)
  | .tanhApproxF32 d w a => some (d, w, of1 a fun x => approxTanh x)
  | .sqrtF32 r d w a => some (d, w, of1 a fun x => toF32 (rndOf r) (xf x).sqrt)
  | .cvtF32I32 r d w a => some (d, w, of1 a fun x => toF32 (rndOf r) (.ofInt x.toInt))
  | .cvtF32N32 r d w a => some (d, w, of1 a fun x => toF32 (rndOf r) (.ofInt x.toNat))
  | .cvtI32F32 r d w a => some (d, w, of1 a fun x => BitVec.ofInt 32 (roundSat (rndOf r) (-2147483648) 2147483647 (xf x)))
  | .cvtN32F32 r d w a => some (d, w, of1 a fun x => BitVec.ofInt 32 (roundSat (rndOf r) 0 4294967295 (xf x)))
  | .cvtF16F32 r d w a => some (d, w, of1 a fun x => BitVec.ofNat 32 (f16.round (rnd1 r) (xf x)))
  | .cvtBf16F32 r d w a => some (d, w, of1 a fun x => BitVec.ofNat 32 (bf16.round (rnd1 r) (xf x)))
  | .cvtF32F16 d w a => some (d, w, of1 a fun x => toF32 .ne (f16.decode (fldN x 0 16)))
  | .cvtF32Bf16 d w a => some (d, w, of1 a fun x => toF32 .ne (bf16.decode (fldN x 0 16)))
  | .cvtSatF8aF32 d w a => some (d, w, of1 a fun x => BitVec.ofNat 32 (f8a.round .ne (f8a.sat (xf x))))
  | .cvtNanF8aF32 d w a => some (d, w, of1 a fun x => BitVec.ofNat 32 (f8a.round .ne (xf x)))
  | .cvtSatF8bF32 d w a => some (d, w, of1 a fun x => BitVec.ofNat 32 (f8b.round .ne (f8b.sat (xf x))))
  | .cvtNanF8bF32 d w a => some (d, w, of1 a fun x => BitVec.ofNat 32 (f8b.round .ne (xf x)))
  | .cvtSatF4F32 d w a => some (d, w, of1 a fun x => BitVec.ofNat 32 (encodeF4 (xf x)))
  | .cvtF32F8a d w a => some (d, w, of1 a fun x => toF32 .ne (f8a.decode (fldN x 0 8)))
  | .cvtF32F8b d w a => some (d, w, of1 a fun x => toF32 .ne (f8b.decode (fldN x 0 8)))
  | .cvtF32F4 d w a b => some (d, w, of2 a b fun x y => toF32 .ne (decodeF4 (fldN x 0 4) (fldN y 0 16)))
  | .cvtSatI8I32 d w a => some (d, w, of1 a fun x => BitVec.ofInt 32 (clampTo (-128) 127 x.toInt))
  | .cvtI32I8 d w a => some (d, w, of1 a fun x => BitVec.ofInt 32 (x.extractLsb' 0 8).toInt)
  | .quantQ8F32 d w a b => some (d, w, of2 a b fun x y => BitVec.ofNat 32 (quantise (xf x) (f16.decode (fldN y 0 16)) (fldN y 16 8) 8))
  | .dequantF32Q8 d w a b => some (d, w, of2 a b fun x y => toF32 .ne ((f16.decode (fldN y 0 16)).mul (.ofInt ((fldN x 0 8 : Int) - fldN y 16 8))))
  | .quantQ4F32 d w a b => some (d, w, of2 a b fun x y => BitVec.ofNat 32 (quantise (xf x) (f16.decode (fldN y 0 16)) (fldN y 16 4) 4))
  | .dequantF32Q4 d w a b => some (d, w, of2 a b fun x y => toF32 .ne ((f16.decode (fldN y 0 16)).mul (.ofInt ((fldN x 0 4 : Int) - fldN y 16 4))))
  | .packB16 d w a b => some (d, w, of2 a b fun x y => y.extractLsb' 0 16 ++ x.extractLsb' 0 16)
  | .packB8 d w a p => some (d, w, fun g i l => withField (l.reg d.toNat) (src32 g i l a) (8 * p.toNat) 8)
  | .packB4 d w a p => some (d, w, fun g i l => withField (l.reg d.toNat) (src32 g i l a) (4 * p.toNat) 4)
  | .unpackB16 d w a p => some (d, w, of1 a fun x => (x.extractLsb' (16 * p.toNat) 16).setWidth 32)
  | .unpackB8 d w a p => some (d, w, of1 a fun x => (x.extractLsb' (8 * p.toNat) 8).setWidth 32)
  | .unpackB4 d w a p => some (d, w, of1 a fun x => (x.extractLsb' (4 * p.toNat) 4).setWidth 32)
  | _ => none

end Sys2Proof.Claims
end

