-- ==== Sys2Proof/Safety/Cross.lean ====
section
/-! DEFINITION. What the cross-lane instructions write in a lane that takes part, as the claims state it (R314 to R319). -/

namespace Sys2Proof.Claims

open Sys2Proof.Machine

/-- The contributing lanes' values of a source, lowest lane first. -/
def given (g : Group) (m : BitVec 64) (a : BitVec 8) : List Word := (contributes g m).map fun e => src32 g e.1 e.2 a

/-- Source a in lane `k`, or 0 when that lane does not contribute (R315). -/
def fetched (g : Group) (m : BitVec 64) (a : BitVec 8) (k : Nat) : Word :=
  match (contributes g m).find? fun e => e.1 == k with
  | some e => src32 g e.1 e.2 a
  | none => 0#32

/-- The values of the contributing lanes below lane `n`. -/
def below (g : Group) (m : BitVec 64) (a : BitVec 8) (n : Nat) : List Word :=
  ((contributes g m).filter fun e => e.1 < n).map fun e => src32 g e.1 e.2 a

/-- The pair that `minidx` writes: the least value with the lowest lane that holds it (R317). -/
def IsLeast (g : Group) (m : BitVec 64) (a : BitVec 8) (lt : Word → Word → Prop) (written : Word → Word) (x : DWord) : Prop :=
  contributes g m ≠ [] → ∃ e ∈ contributes g m, x = BitVec.ofNat 32 e.1 ++ written (src32 g e.1 e.2 a) ∧
    ∀ k ∈ contributes g m, ¬ lt (src32 g k.1 k.2 a) (src32 g e.1 e.2 a) ∧
      (k.1 < e.1 → lt (src32 g e.1 e.2 a) (src32 g k.1 k.2 a))

/-- Every NaN comes last, and −0 before +0 (R317). -/
def beforeF (x y : Word) : Prop :=
  (xf x).isNaN = false ∧ ((xf y).isNaN = true ∨ (xf x).cmp (xf y) < 0 ∨
    (xf x).cmp (xf y) = 0 ∧ (xf x).sign = true ∧ (xf y).sign = false)

/-- What a lane of a converged group becomes: from the group, the lanes at the instruction, and the lane before. -/
abbrev CrossEffect := Group → BitVec 64 → Nat → Lane → Lane → Prop

/-- A 32-bit result. -/
def cross32 (d : BitVec 7) (w : BitVec 1) (f : Group → BitVec 64 → Nat → Lane → Word) : CrossEffect :=
  fun g m i l l' => Result32 l l' d.toNat w (f g m i l)

/-- The cross-lane instructions (R315 to R319). -/
def crossEffect (i : Instr) : Option CrossEffect :=
  match i with
  | .xlPick d w a b => some (cross32 d w fun g m i l => fetched g m a ((src32 g i l b).toNat % g.width))
  | .xlRol d w a b => some (cross32 d w fun g m i l => fetched g m a ((i + (src32 g i l b).toNat % g.width) % g.width))
  | .xlRor d w a b =>
    some (cross32 d w fun g m i l => fetched g m a ((i + g.width - (src32 g i l b).toNat % g.width) % g.width))
  | .xlBfly d w a b => some (cross32 d w fun g m i l => fetched g m a (i ^^^ (src32 g i l b).toNat % g.width))
  | .redAddB32 d w a => some (cross32 d w fun g m _ _ => BitVec.ofNat 32 ((given g m a).map BitVec.toNat).sum)
  | .redMinI32 d w a =>
    some (cross32 d w fun g m _ _ => BitVec.ofInt 32 (((given g m a).map BitVec.toInt).foldr min 2147483647))
  | .redMaxI32 d w a =>
    some (cross32 d w fun g m _ _ => BitVec.ofInt 32 (((given g m a).map BitVec.toInt).foldr max (-2147483648)))
  | .redMinN32 d w a =>
    some (cross32 d w fun g m _ _ => BitVec.ofNat 32 (((given g m a).map BitVec.toNat).foldr min 4294967295))
  | .redMaxN32 d w a => some (cross32 d w fun g m _ _ => BitVec.ofNat 32 (((given g m a).map BitVec.toNat).foldr max 0))
  | .redAndB32 d w a => some (cross32 d w fun g m _ _ => (given g m a).foldr (· &&& ·) (BitVec.allOnes 32))
  | .redOrB32 d w a => some (cross32 d w fun g m _ _ => (given g m a).foldr (· ||| ·) 0#32)
  | .redXorB32 d w a => some (cross32 d w fun g m _ _ => (given g m a).foldr (· ^^^ ·) 0#32)
  | .redAddF32 d w a =>
    some (cross32 d w fun g m _ _ => toF32 .ne ((given g m a).foldl (fun x y => x.add false (xf y)) (xf 0x80000000#32)))
  | .redMinF32 d w a => some (cross32 d w fun g m _ _ => (given g m a).foldl lesserF 0x7FC00000#32)
  | .redMaxF32 d w a => some (cross32 d w fun g m _ _ => (given g m a).foldl greaterF 0x7FC00000#32)
  | .minidxN32 d w a => some fun g m _ l l' => ∃ x, Result64 l l' (2 * d.toNat) w x ∧
      IsLeast g m a (fun x y => x.toNat < y.toNat) id x
  | .minidxI32 d w a => some fun g m _ l l' => ∃ x, Result64 l l' (2 * d.toNat) w x ∧
      IsLeast g m a (fun x y => x.toInt < y.toInt) id x
  | .minidxF32 d w a => some fun g m _ l l' => ∃ x, Result64 l l' (2 * d.toNat) w x ∧
      IsLeast g m a beforeF (fun x => if (xf x).isNaN then 0x7FC00000#32 else x) x
  | .scanInclAddB32 d w a => some (cross32 d w fun g m i _ => BitVec.ofNat 32 ((below g m a (i + 1)).map BitVec.toNat).sum)
  | .scanExclAddB32 d w a => some (cross32 d w fun g m i _ => BitVec.ofNat 32 ((below g m a i).map BitVec.toNat).sum)
  | .scanInclMaxI32 d w a =>
    some (cross32 d w fun g m i _ => BitVec.ofInt 32 (((below g m a (i + 1)).map BitVec.toInt).foldr max (-2147483648)))
  | .scanInclMinI32 d w a =>
    some (cross32 d w fun g m i _ => BitVec.ofInt 32 (((below g m a (i + 1)).map BitVec.toInt).foldr min 2147483647))
  | .pollAll p a => some fun g m _ l l' => ResultPred l l' p.toNat ((contributes g m).all fun e => e.2.pred a.toNat)
  | .pollAny p a => some fun g m _ l l' => ResultPred l l' p.toNat ((contributes g m).any fun e => e.2.pred a.toNat)
  | .pollMask d w a => some fun g m _ l l' => ∃ x : DWord, Result64 l l' (2 * d.toNat) w x ∧
      ∀ j, j < 64 → x.getLsbD j = (contributes g m).any fun e => e.1 == j && e.2.pred a.toNat
  | .pollSame p a => some fun g m _ l l' => ∃ c, ResultPred l l' p.toNat c ∧
      (c = true ↔ ∀ x ∈ given g m a, ∀ y ∈ given g m a, x = y)
  | _ => none

end Sys2Proof.Claims
end

