-- ==== Sys2Proof/Safety/Groups.lean ====
section
/-! DEFINITION. What an instruction that acts once for each group of its pick may change, and what a trap, a wait and an
exit leave, in the terms of the claims. -/

namespace Sys2Proof.Claims

open Sys2Proof.Machine

/-- The group is listed once in the pick, with the lanes `m`, and is the group of its number. -/
def TakesPart (s : State) (p : Pick) (g : Group) (m : BitVec 64) : Prop :=
  s.cur = some p ∧ p.members.filter (fun e => e.1 == g.gid) = [(g.gid, m)] ∧ s.group? g.gid = some g

/-- The group is not in the pick. -/
def Absent (s : State) (g : Group) : Prop := ∀ p, s.cur = some p → ∀ e ∈ p.members, e.1 ≠ g.gid

/-- Nothing but groups has changed, and what the issuing pick notes of them: memory and every other unit hold what they
held. A group that takes part has become what `f` allows, and one that is not in the pick is as it was. -/
structure GroupsBecome (s t : State) (f : Pick → BitVec 64 → Group → Group → Prop) : Prop where
  elsewhere : t = { s with groups := t.groups, cur := t.cur }
  pick : ∀ p, s.cur = some p → ∃ q : Pick, t.cur = some q ∧ q = { p with members := q.members, wrote := q.wrote } ∧
    q.members.map (fun e => e.1) = p.members.map (fun e => e.1)
  none : s.cur = none → t = s
  count : t.groups.length = s.groups.length
  groups : ∀ (k : Nat) (g : Group), s.groups[k]? = some g → ∃ g' : Group, t.groups[k]? = some g' ∧
    (∀ p m, TakesPart s p g m → f p m g g') ∧ (Absent s g → g' = g)

/-- Lane `i` is the lowest lane of the mask that satisfies a condition. -/
def LowestLane (g : Group) (m : BitVec 64) (c : Lane → Prop) (i : Nat) (l : Lane) : Prop :=
  g.lanes[i]? = some l ∧ m.getLsbD i = true ∧ c l ∧
    ∀ (k : Nat) (x : Lane), k < i → g.lanes[k]? = some x → m.getLsbD k = true → ¬ c x

/-- The lowest guard-true lane of the pick in the group (R192, R323). -/
def Leads (g : Group) (m : BitVec 64) (i : Nat) (l : Lane) : Prop := LowestLane g m (fun x => x.guard = true) i l

/-- The group has no guard-true lane in the pick. -/
def NoLead (g : Group) (m : BitVec 64) : Prop :=
  ∀ (i : Nat) (l : Lane), g.lanes[i]? = some l → m.getLsbD i = true → l.guard = false

/-- The lanes of a group, each related to what it was. -/
def LanesTo (g g' : Group) (f : Nat → Lane → Lane → Prop) : Prop :=
  g'.lanes.length = g.lanes.length ∧
    ∀ (i : Nat) (l : Lane), g.lanes[i]? = some l → ∃ l' : Lane, g'.lanes[i]? = some l' ∧ f i l l'

/-- A convergent instruction has been performed by the lanes `m` of a group: the parked lanes have missed it at the counter
of the lowest of `m`, and none of `m` has missed it any longer (R171). -/
def Performed (t u : State) (p : Pick) (g : Group) (m : BitVec 64) : Prop :=
  ∃ i l, LowestLane g m (fun _ => True) i l ∧ u = t.updGroup g.gid fun h => h.noteConverged (p.counter l) 0 m

/-- A lane that stands at a place. -/
def At (l : Lane) (p : Place) : Lane := { l with pc := p.pc, widx := p.widx, pass := p.pass, loop := p.loop }

/-- An event counter after `n` events of kind `ev` (R422). -/
def counted (ev n : Nat) (c : EventCtr) : EventCtr :=
  if c.sel.toNat = ev ∧ ev ≠ 0 then { c with val := BitVec.ofNat 48 (min 281474976710655 (c.val.toNat + n)) } else c

/-- TAKING A TRAP (R443): the lanes `m` have left the live lanes of the group and form one parked sub-group with the cause,
with the address of the place of its lowest lane as TRAP.PC and what that lane names as TRAP.VA. Each stands at the place
that `at'` gives it; nothing else of the group has changed but the event counters that count traps. -/
structure Parked (g g' : Group) (m : BitVec 64) (at' : Lane → Place) (cause : DWord) (va : Nat → Lane → DWord)
    (keep : List Nat) : Prop where
  kept : g' = { g with lanes := g'.lanes, parkedSubs := g'.parkedSubs, ctrs := g.ctrs.map (counted 5 1) }
  lanes : LanesTo g g' fun i l l' =>
    l' = if m.getLsbD i then { (At l (at' l)) with status := .parked, resume := none, age := 0 } else l
  subs : ∃ i l, LowestLane g m (fun _ => True) i l ∧ g'.parkedSubs = g.parkedSubs ++
    [{ lanes := m, cause := cause, pc := (at' l).pc + BitVec.ofNat 64 (4 * (at' l).widx), va := va i l, keep := keep, fetch := none }]

/-- Lanes have left the pick to wait, each at its instruction, and go on after `n` words of the clause. -/
def Waits (p : Pick) (g g' : Group) (m : BitVec 64) (n : Nat) (w : Wait) : Prop :=
  g' = { g with lanes := g'.lanes } ∧ LanesTo g g' fun i l l' =>
    l' = if m.getLsbD i then { (At l (p.placeHere l)) with status := .waiting w, resume := some (p.placeAfter n l), age := 0 } else l

/-- The guard-true lanes of a mask, as a mask. -/
def IsGuarded (g : Group) (m k : BitVec 64) : Prop :=
  ∀ i, k.getLsbD i = true ↔ m.getLsbD i = true ∧ ∃ l, g.lanes[i]? = some l ∧ l.guard = true

/-- The pick's lanes of a group after the lanes `k` have left it. -/
def LeftPick (t : State) (g : Group) (m k : BitVec 64) : Prop :=
  ∃ q, t.cur = some q ∧ q.members.filter (fun e => e.1 == g.gid) = [(g.gid, m &&& ~~~k)]

end Sys2Proof.Claims
end

