-- ==== Sys2Proof/Safety/Flow.lean ====
section
/-! DEFINITION. Where control goes, and what the checks require, as the claims state it (R289 to R301). -/

namespace Sys2Proof.Claims

open Sys2Proof.Machine

/-- The address of the clause after the pick's own: its header and its words passed over (R179). -/
def clauseAfter (p : Pick) : DWord := BitVec.ofNat 64 (p.hdr.toNat + 4 * (1 + p.words.length))

/-- The header a signed number of words from the pick's own (R187). -/
def headerAt (p : Pick) (o : Int) : DWord := BitVec.ofInt 64 (p.hdr.toInt + 4 * o)

/-- The lane after a call: the link pair holds the address of the next clause. -/
def Linked (l l' : Lane) (k : BitVec 6) (p : Pick) (dest : DWord) : Prop :=
  l' = { l with v := l'.v, pend := l'.pend, target := some dest } ∧
    (∀ n, n < 128 → l'.reg n = if n = 2 * k.toNat then (clauseAfter p).extractLsb' 0 32
      else if n = 2 * k.toNat + 1 then (clauseAfter p).extractLsb' 32 32 else l.reg n) ∧
    l'.pend = (l.pend.filter fun e => e.1 != 2 * k.toNat).filter fun e => e.1 != 2 * k.toNat + 1

/-- The direct and indirect transfers (R289 to R291): what a guard-true lane becomes. -/
def transferEffect (i : Instr) : Option (Pick → Group → Nat → Lane → Lane → Prop) :=
  match i with
  | .bra q n o => some fun p _ _ l l' =>
    l' = if l.pred q.toNat = (n == 0#1) then { l with target := some (headerAt p o.toInt) } else l
  | .jmp a => some fun _ g n l l' => l' = { l with target := some (Machine.src64 g n l a) }
  | .ret a => some fun _ g n l l' => l' = { l with target := some (Machine.src64 g n l a) }
  | .call k o => some fun p _ _ l l' => Linked l l' k p (headerAt p o.toInt)
  | .callInd k a => some fun p g n l l' => Linked l l' k p (Machine.src64 g n l a)
  | _ => none

/-- The passes of a loop that a lane makes: none when its guard is false (R295). -/
def passesOf (g : Group) (n : Nat) (l : Lane) (cnt : BitVec 8) : Nat := if l.guard = true then (src32 g n l cnt).toNat else 0

/-- A lane that enters a loop's body in pass 0 (R296). -/
def EntersBody (p : Pick) (ncl : BitVec 4) (incs : List LoopInc) (count : Nat) (l l' : Lane) : Prop :=
  l' = { l with target := some (clauseAfter p), pass := 0,
                loop := some { start := clauseAfter p, ncl := ncl.toNat, idx := 0, count := count, incs := incs } }

/-- A check: its operand, the cause with which a lane fails it, if it does, the registers that it reads, and whether the walk
of a lane's operand must wait for a line of a table (R41, log 105). -/
structure CheckSpec where
  operand : Group → Nat → Lane → DWord
  fails : State → Group → Nat → Lane → Option DWord
  keep : List Nat
  waits : State → Group → Nat → Lane → Bool := fun _ _ _ _ => false

/-- The operand of a bounds check: 64 bits of a scalar, constant, or, with W, of a pair; else 32 bits, sign-extended (R298). -/
def boundOperand (x : BitVec 1) (a : BitVec 8) : Group → Nat → Lane → DWord := fun g n l =>
  if x = 1#1 ∨ 0x84 ≤ a.toNat then Machine.src64 g n l a else BitVec.ofInt 64 (src32 g n l a).toInt

/-- The registers that a field of a check names. -/
def regsOf (wide : Bool) (a : BitVec 8) : List Nat :=
  if a.toNat < 0x80 then (if wide then [a.toNat, a.toNat + 1] else [a.toNat]) else []

/-- A cause code with a detail (R416). -/
def causeWith (code detail : Nat) : DWord := BitVec.ofNat 64 (code + 281474976710656 * detail)

/-- Why an address is no landing of a kernel (R300): details 0 to 4 in the order in which they are looked for. -/
def landingFault (s : State) (g : Group) (x : DWord) : Option Nat :=
  if 2 ^ 55 ≤ x.toNat ∨ ¬ 4 ∣ x.toNat then some 0
  else match s.peekFetch (quadOf g.core) g.guest x with
    | none => some 1
    | some t =>
      if t.remote = true ∨ isHbm t.ppn = false ∨ sealedBit (s.seal t.ppn) = false then some 2
      else if sealKernel (s.seal t.ppn) ≠ g.kernel then some 3
      else if (alookup s.trusted.bitmaps (sealBitmap (s.seal t.ppn)) 0).getLsbD (x.toNat / 4 % 16384) then none
      else some 4

/-- `chkb`, `chkaln` and `chkland` (R298 to R301). -/
def checkSpec (i : Instr) : Option CheckSpec :=
  match i with
  | .chkb x a b => some
    { operand := boundOperand x a
      fails := fun _ g n l => if 0 ≤ (boundOperand x a g n l).toInt ∧
        (boundOperand x a g n l).toInt < (boundOperand x b g n l).toInt then none else some (causeWith 0x0F 0)
      keep := regsOf (x == 1#1) a ++ regsOf (x == 1#1) b }
  | .chkaln a e => some
    { operand := fun g n l => if 0x84 ≤ a.toNat then Machine.src64 g n l a else (src32 g n l a).setWidth 64
      fails := fun _ g n l => if 2 ^ e.toNat ∣ (if 0x84 ≤ a.toNat then Machine.src64 g n l a else (src32 g n l a).setWidth 64).toNat
        then none else some (causeWith 0x10 0)
      keep := regsOf false a }
  | .chkland a => some
    { operand := fun g n l => Machine.src64 g n l a
      fails := fun s g n l => (landingFault s g (Machine.src64 g n l a)).map (causeWith 0x11)
      keep := regsOf true a
      waits := fun s g n l => (s.peekWait? (quadOf g.core) g.guest (Machine.src64 g n l a)).isSome }
  | _ => none

end Sys2Proof.Claims
end

