-- ==== Sys2Proof/Safety/Access.lean ====
section
/-! DEFINITION. What the accesses of global memory do when they issue and when their results return, as the claims state it
(R321 to R327, R333). -/

namespace Sys2Proof.Claims

open Sys2Proof.Machine

/-- The form of a global access, with its address and index fields and its modifiers (R325, R333). -/
def accessForm (i : Instr) : Option (MemForm × BitVec 8 × BitVec 8 × XM) :=
  match i with
  | .ldN8 d a b x => some (loadForm 1 .zx d, a, b, x)
  | .ldI8 d a b x => some (loadForm 1 .sx d, a, b, x)
  | .ldN16 d a b x => some (loadForm 2 .zx d, a, b, x)
  | .ldI16 d a b x => some (loadForm 2 .sx d, a, b, x)
  | .ldB32 d a b x => some (loadForm 4 .words d, a, b, x)
  | .ldB64 d a b x => some (loadForm 8 .words d, a, b, x)
  | .ldB128 d a b x => some (loadForm 16 .words d, a, b, x)
  | .stB8 d a b x => some (storeForm 1 d, a, b, x)
  | .stB16 d a b x => some (storeForm 2 d, a, b, x)
  | .stB32 d a b x => some (storeForm 4 d, a, b, x)
  | .stB64 d a b x => some (storeForm 8 d, a, b, x)
  | .stB128 d a b x => some (storeForm 16 d, a, b, x)
  | .atomAddB32 d a b x => some (atomForm .add 4 d x, a, b, x)
  | .atomAddB64 d a b x => some (atomForm .add 8 d x, a, b, x)
  | .atomMinI32 d a b x => some (atomForm .mini 4 d x, a, b, x)
  | .atomMaxI32 d a b x => some (atomForm .maxi 4 d x, a, b, x)
  | .atomMinN32 d a b x => some (atomForm .minn 4 d x, a, b, x)
  | .atomMaxN32 d a b x => some (atomForm .maxn 4 d x, a, b, x)
  | .atomAndB32 d a b x => some (atomForm .and 4 d x, a, b, x)
  | .atomOrB32 d a b x => some (atomForm .or 4 d x, a, b, x)
  | .atomXorB32 d a b x => some (atomForm .xor 4 d x, a, b, x)
  | .atomXchgB32 d a b x => some (atomForm .xchg 4 d x, a, b, x)
  | .atomXchgB64 d a b x => some (atomForm .xchg 8 d x, a, b, x)
  | .atomCasB32 d a b x => some (atomForm .cas 4 d x, a, b, x)
  | .atomCasB64 d a b x => some (atomForm .cas 8 d x, a, b, x)
  | .atomAddF32 d a b x => some (atomForm .addf 4 d x, a, b, x)
  | .atomMinI64 d a b x => some (atomForm .mini 8 d x, a, b, x)
  | .atomMaxI64 d a b x => some (atomForm .maxi 8 d x, a, b, x)
  | _ => none

/-- The pick is one group's, some of its lanes have true guards, and none of those waits for an acquire of its own (R136). -/
structure MayAccess (s : State) (p : Pick) (g : Group) (m act : BitVec 64) : Prop where
  pick : s.cur = some p
  members : p.members = [(g.gid, m)]
  group : s.group? g.gid = some g
  guarded : IsGuarded g m act
  nonzero : act ≠ 0#64
  acquired : ∀ (i : Nat) (l : Lane), act.getLsbD i = true → g.lanes[i]? = some l → l.acq = []

/-- No lane waits for its counter (R182), nor, before a write, for an answer of an earlier load (R141, R193). -/
structure MayIssue (s : State) (f : MemForm) (p : Pick) (g : Group) (m act : BitVec 64) : Prop extends MayAccess s p g m act where
  counter : (if f.dst.isSome then g.c0 else g.c1) < 63
  answered : f.acc ≠ .load → ∀ i : Nat, act.getLsbD i = true → s.awaits g.gid i = false

/-- The access is issued: every guard-true lane has passed its checks, which leave the machine in `s₁` (translation marks
pages as accessed), with the accesses `as`; no walk waits, no store follows an earlier one of its lane to its line that has
not performed (R139), and the core has entries for all (R60, R86). -/
structure Issues (s : State) (f : MemForm) (a b : BitVec 8) (x : XM) (p : Pick) (g : Group) (m act : BitVec 64) (s₁ : State)
    (as : List Access) : Prop extends MayIssue s f p g m act where
  checked : s.checkLanes g act f.size f.acc (fun i l => effAddr g i l a b x) = (s₁, ⟨[], 0#64, as⟩)
  behind : f.kind = .store → ∀ y ∈ as, s₁.storeBehind g y = false
  room : s₁.roomFor f g (s₁.buildReqs f g x p) as = as

/-- The request of operation `op` that one of the access's requests has become. -/
def SameRequest (op : Nat) (r q : Req) : Prop :=
  q.op = op ∧ q.gid = r.gid ∧ q.kind = r.kind ∧ q.line = r.line ∧ q.size = r.size ∧ q.scope = r.scope ∧ q.order = r.order ∧
    q.parts.map (fun p => (p.lane, p.pa, p.off, p.len, p.data, p.data2, p.dst)) =
      r.parts.map (fun p => (p.lane, p.pa, p.off, p.len, p.data, p.data2, p.dst))

/-- A lane that has issued a global access keeps its registers, predicates and latches; the destination registers of a lane
that performs it await the operation (R182). -/
def LaneIssued (f : MemForm) (act : BitVec 64) (op i : Nat) (l l' : Lane) : Prop :=
  l'.v = l.v ∧ l'.p = l.p ∧ l'.lat = l.lat ∧
    ∀ d, f.dst = some d → act.getLsbD i = true → ∀ k, k < f.nregs → (d + k, op) ∈ l'.pend

/-- What a group that has issued an operation on c0 or c1 keeps. -/
def GroupIssued (g g' : Group) : Prop :=
  g'.s = g.s ∧ g'.h = g.h ∧ g'.q2 = g.q2 ∧ g'.q3 = g.q3 ∧ g'.trapMask = g.trapMask ∧ g'.parkedSubs = g.parkedSubs ∧
    g'.frames = g.frames ∧ g'.budget = g.budget

/-- The bytes that a load returns, as its destination registers take them (R325). -/
def loadedWord (f : LoadFmt) (size : Nat) (v : BitVec 128) (k : Nat) : Word :=
  match f with
  | .sx => if size = 1 then BitVec.ofInt 32 (v.extractLsb' 0 8).toInt else BitVec.ofInt 32 (v.extractLsb' 0 16).toInt
  | _ => v.extractLsb' (32 * k) 32

end Sys2Proof.Claims
end

