-- ==== Sys2Proof/Safety/Once.lean ====
section
/-! DEFINITION. Instructions that perform once for a group: who performs, what the group keeps, and what they issue, in the
terms of the claims (R323, R327, R341, R384). -/

namespace Sys2Proof.Claims

open Sys2Proof.Machine

/-- The pick is one group's, and lane `i` is the lowest of its guard-true lanes: it performs for the group (R323). It has no
operation out whose answer may trap it (log 27). -/
structure Performs (s : State) (p : Pick) (g : Group) (m : BitVec 64) (i : Nat) (l : Lane) : Prop where
  pick : s.cur = some p
  members : p.members = [(g.gid, m)]
  group : s.group? g.gid = some g
  leads : Leads g m i l
  settled : s.awaits g.gid i = false

/-- Every group but one is as it was. -/
def OthersKept (s t : State) (gid : Nat) : Prop :=
  t.groups.length = s.groups.length ∧ ∀ (k : Nat) (h : Group), s.groups[k]? = some h → h.gid ≠ gid → t.groups[k]? = some h

/-- The registers, predicates and latches of a lane, and the results that it awaits, are as they were. -/
def LaneKept (l l' : Lane) : Prop := l'.v = l.v ∧ l'.p = l.p ∧ l'.lat = l.lat ∧ l'.pend = l.pend

/-- The scalar and handle registers, the trap state and the budget of a group are as they were. -/
def GroupKept (g g' : Group) : Prop :=
  g'.s = g.s ∧ g'.h = g.h ∧ g'.trapMask = g.trapMask ∧ g'.parkedSubs = g.parkedSubs ∧ g'.frames = g.frames ∧ g'.budget = g.budget

/-- The group has become `g'`: nothing of it but its lanes' places and states, the queues of its counters, WARN and event
counts may differ, and the lanes keep their registers. -/
structure OnlyIssued (s t : State) (g g' : Group) : Prop where
  others : OthersKept s t g.gid
  group : t.group? g.gid = some g'
  kept : GroupKept g g'
  lanes : LanesTo g g' fun _ l l' => LaneKept l l'

/-- Lanes `k` of the group park at the instruction with one cause and one TRAP.VA, leave the pick, and nothing else has
changed. -/
structure OnlyParks (s t : State) (p : Pick) (g : Group) (m k : BitVec 64) (cause va : DWord) : Prop where
  elsewhere : t = { s with groups := t.groups, cur := t.cur }
  others : OthersKept s t g.gid
  left : LeftPick t g m k
  parked : ∃ g', t.group? g.gid = some g' ∧ Parked g g' k p.placeHere cause (fun _ _ => va) []

/-- Lanes `k` of the group wait, leave the pick, and nothing else of the group has changed. -/
structure OnlyWaits (t : State) (p : Pick) (g : Group) (m k : BitVec 64) (n : Nat) (w : Wait) : Prop where
  left : LeftPick t g m k
  waits : ∃ g', t.group? g.gid = some g' ∧ Waits p g g' k n w

/-! ### Hints -/

/-- The destination and modifiers of the hints that concern lines (R199, R200). -/
def lineHint (i : Instr) : Option (BitVec 7 × BitVec 1 × XM) :=
  match i with
  | .pref d w _ _ x => some (d, w, x)
  | .evictHint d w _ _ x => some (d, w, x)
  | _ => none

/-! ### Stash accesses (R328, R329) -/

/-- The form of a stash access: whether it stores, and its operand fields. -/
def stashForm (i : Instr) : Option (MemForm × Bool × BitVec 8 × BitVec 8 × XM) :=
  match i with
  | .ldsB32 d a b x => some (ldsForm 4 d, false, a, b, x)
  | .ldsB64 d a b x => some (ldsForm 8 d, false, a, b, x)
  | .ldsB128 d a b x => some (ldsForm 16 d, false, a, b, x)
  | .stsB32 d a b x => some (stsForm 4 d, true, a, b, x)
  | .stsB64 d a b x => some (stsForm 8 d, true, a, b, x)
  | .stsB128 d a b x => some (stsForm 16 d, true, a, b, x)
  | _ => none

/-- The stash access of every guard-true lane passes its checks, meets a line that holds bytes or is being filled, and no lane
waits at issue. -/
structure Touches (s : State) (f : MemForm) (store : Bool) (a b : BitVec 8) (x : XM) (p : Pick) (g : Group) (m act : BitVec 64) :
    Prop extends MayIssue s f p g m act where
  passes : ∀ (i : Nat) (l : Lane), act.getLsbD i = true → g.lanes[i]? = some l →
    s.touchTrap g (stashOffset g i l a b x) f.size store = 0#64 ∧
      (s.sline g.core (s.stashByte g (stashOffset g i l a b x) / 128)).state ≠ .invalid

/-! ### Flasks (R332) -/

/-- Number, destination scalar and token operand of a flask operation on a flask that exists. -/
def flaskForm (i : Instr) : Option (Nat × BitVec 6 × BitVec 8) :=
  match i with
  | .flaskSeal r a _ => some (1, r, a)
  | .flaskReopen r a _ => some (2, r, a)
  | .flaskRetire r a _ => some (3, r, a)
  | .flaskAcq r a _ => some (4, r, a)
  | .flaskRel r a _ => some (5, r, a)
  | _ => none

/-- A lane can issue a flask operation for its group: the counter has room, and it waits for no acquire (R136). -/
def FlaskIssues (g : Group) (l : Lane) : Prop := g.c0 < 63 ∧ l.acq = []

/-- The request of a flask operation has been issued on c0, and the scalar awaits its answer. -/
structure FlaskIssued (s t : State) (g : Group) (f : Nat) (sd : BitVec 6) (words : List DWord) : Prop where
  elsewhere : t = { s with groups := t.groups, reqs := t.reqs, nextId := t.nextId }
  request : ∃ r : Req, t.reqs = s.reqs ++ [r] ∧ r.kind = .flask f ∧ r.op = s.nextId ∧ r.gid = g.gid ∧ r.done = false ∧
    r.words = 0#64 :: sd.setWidth 64 :: words
  group : ∃ g', OnlyIssued s t g g' ∧ g'.q0 = g.q0 ++ [{ op := s.nextId, left := 1 }] ∧ g'.q1 = g.q1 ∧ g'.q2 = g.q2 ∧ g'.q3 = g.q3 ∧
    (sd.toNat, s.nextId) ∈ g'.spend

/-! ### Barriers and locks -/

/-- The barrier that an instruction names: 0 the group's, 1 the team's, 2 + r role r's (R336, R337). -/
def barrierOf (i : Instr) : Option Nat :=
  match i with
  | .barGroup => some 0
  | .barTeam => some 1
  | .barRole q => some (2 + q.toNat)
  | _ => none

/-- Every live lane of a group has trapped where it stands, those of the pick at the instruction, and has left every pick
(R338). -/
structure GroupParks (s t : State) (p : Pick) (g : Group) (m : BitVec 64) (cause : DWord) : Prop where
  elsewhere : t = { s with groups := t.groups, cur := t.cur, ports := t.ports }
  others : OthersKept s t g.gid
  parked : ∃ g₀ g' k va, LanesTo g g₀ (fun n l l' => l' = if m.getLsbD n then At l (p.placeHere l) else l) ∧
    g₀ = { g with lanes := g₀.lanes } ∧ t.group? g.gid = some g' ∧
    (∀ n : Nat, k.getLsbD n = true ↔ ∃ l, g.lanes[n]? = some l ∧ l.live = true) ∧
    LeftPick t g m k ∧ Parked g₀ g' k (fun l => l.standing) cause (fun _ _ => va) []

/-- Pointer, modifiers and kind of a lock instruction, and what its compare-and-swap compares with and writes: `acq` swaps the
holder's tag for 0, `rel` swaps 0 for the tag (R339, R340). -/
def lockForm (i : Instr) (tag : DWord) : Option (BitVec 8 × ReqKind × DWord × DWord) :=
  match i with
  | .lockAcq a _ => some (a, .lockAcq, 0#64, tag)
  | .lockRel a _ => some (a, .lockRel, tag, 0#64)
  | _ => none

/-! ### Engine operations (R341 to R346) -/

/-- What an engine instruction issues: the operation with its operands, whether they are refused and with which cause, and
the ranges that it registers: destination or source, in the stash or not, address, and lines. -/
structure EngineForm where
  op : EngOp
  bad : Nat
  ranges : List (Bool × Bool × DWord × Nat)
  /-- a line of its collective set that must be asked for first (log 24) -/
  waits : Option Nat := none

/-- An address operand: of the stash as it is, otherwise with bits 6 to 0 ignored (R341). -/
def engPtr (stash : Bool) (x : DWord) : DWord := if stash then x else x &&& ~~~(0x7F#64)

/-- The engine operation of an instruction that lane `i` performs. -/
def engineForm (s : State) (ins : Instr) (g : Group) (i : Nat) (l : Lane) : Option EngineForm :=
  match ins with
  | .copy a b x =>
    let ds := x.mode.getLsbD 0
    let ss := x.mode.getLsbD 1
    let dst := engPtr ds (Machine.src64 g i l a)
    let src := engPtr ss (Machine.src64 g i l b)
    let n := x.off.toNat + 1
    some { op := { EngOp.zero with kind := .copy, scope := (engineFallbacks x.scope x.order).1, ret := x.ret, dst := dst,
                                   dstStash := ds, src := src, srcStash := ss, lines := n },
           bad := if (ds && s.badStash g dst n) || (ss && s.badStash g src n) then 12 else 0,
           ranges := [(false, ss, src, n), (true, ds, dst, n)] }
  | .gather a b x =>
    let ds := x.mode.getLsbD 2
    let z := [4, 8, 16, 128].getD (x.mode.toNat % 4) 0
    let dst := engPtr ds (Machine.src64 g i l a)
    let idx := g.scalar i (b.toNat - 0xC0)
    let n := x.off.toNat + 1
    some { op := { EngOp.zero with kind := .gather, scope := (engineFallbacks x.scope x.order).1, ret := x.ret, dst := dst,
                                   dstStash := ds, src := idx, lines := n,
                                   table := g.scalar i (b.toNat - 0xC0 + 1) &&& ~~~(BitVec.ofNat 64 (z - 1)),
                                   tlen := g.scalar i (b.toNat - 0xC0 + 2), esize := z },
           bad := if ds && s.badStash g dst n then 12 else 0,
           ranges := [(false, false, engPtr false idx, hullLines idx.toNat (4 * (128 * n / z))), (true, ds, dst, n)] }
  | .coll a b x =>
    let recv := engPtr false (g.scalar i (a.toNat - 0xC0))
    let send := engPtr false (g.scalar i (b.toNat - 0xC0))
    let rlen := g.scalar i (a.toNat - 0xC0 + 1)
    let ctrl := g.scalar i (b.toNat - 0xC0 + 1)
    let ranks := s.collRanks (fldN ctrl 36 12)
    let n := x.off.toNat + 1
    some { op := { EngOp.zero with kind := .coll, scope := (engineFallbacks x.scope x.order).1, ret := x.ret, dst := recv,
                                   src := send, lines := n, rlen := rlen, ctrl := ctrl, ranks := ranks },
           bad := if badCollWord ctrl ranks.length || !ranks.contains (s.thisNode, quadOf g.core) then 10 else 0,
           ranges := [(false, false, send, n), (true, false, recv, min (2 ^ 48) ((rlen.toNat + 127) / 128))],
           waits := s.collWaits (fldN ctrl 36 12) }
  | _ => none

/-- The range-lock entries of an operation's ranges. -/
def EngineForm.entries (c : EngineForm) (s : State) (g : Group) (opid : Nat) : List (BitVec 128) :=
  c.ranges.flatMap fun r => s.rangeOf g r.1 r.2.1 c.op.kind r.2.2.1 r.2.2.2 opid

/-- The engine error word of a group after an operation has stopped at line 0: the count saturates at 255, and the first
error is kept (R348). -/
def ErrorWord (w w' : DWord) (opid cause : Nat) : Prop :=
  fldN w' 0 8 = min 255 (fldN w 0 8 + 1) ∧
    (if fldN w 8 8 = 0 then fldN w' 8 8 = cause % 256 ∧ fldN w' 16 8 = opid % 256 ∧ fldN w' 24 24 = 0
     else fldN w' 8 40 = fldN w 8 40)

end Sys2Proof.Claims
end

