-- ==== Sys2Proof/Safety/Platform.lean ====
section
/-! DEFINITION. What the steps of the platform do: resets of functions, the host link, ports, power, management, firmware,
debug states, repair, and registers, in the terms of the claims (R463, R465, R472 to R489). -/

namespace Sys2Proof.Claims

open Sys2Proof.Machine

/-- Nothing of the platform but what `f` changes; the rest of the machine is as it was. -/
def PlatIs (s t : State) (p : Plat) : Prop := t = { s with plat := p }

/-- Nothing but the registers of BAR 0. -/
def RegsAre (s t : State) (r : Regs) : Prop := t = { s with regs := r }

/-- A register with one bit set or cleared. -/
def withBit (x : DWord) (n : Nat) (v : Bool) : DWord := if v then x ||| (1#64 <<< n) else x &&& ~~~(1#64 <<< n)

/-- A Function Level Reset of function `n` other than function 0 begins: its contexts freeze and their engine operations end, and
the quads that they lie on are listed until the contexts of other guests have left them; a second one changes nothing (R476). -/
structure ResetBegins (s t : State) (n : Nat) : Prop where
  again : s.inReset n = true → t = s
  listed : s.inReset n = false → t.plat.resets = s.plat.resets ++
    [(n, ((s.groups.filter fun g => g.resident && g.guest == n).map fun g => g.core / 4).eraseDups)]
  freezes : s.inReset n = false → ∀ l ∈ t.sched.launches, l.guest = n → l.tier = 2
  engines : s.inReset n = false → ∀ o ∈ t.engOps, ∀ g ∈ s.groups, g.resident = true → g.guest = n → o.gid ≠ g.gid
  mem : t.mem = s.mem

/-- A Function Level Reset of function `n` other than function 0 has ended: none of the guest's launches, queues, waiting descriptors
and Hamper contents is left, and the Hamper is not the guest's (R476). -/
structure GuestGone (t : State) (n : Nat) : Prop where
  launches : ∀ l ∈ t.sched.launches, l.guest ≠ n
  hamper : t.hamper.guest ≠ some n
  saved : ∀ e ∈ t.hamper.saved, e.1 ≠ n
  invalidations : ∀ e ∈ t.xlate.iqs, e.1 ≠ n
  submissions : ∀ e ∈ t.sched.sqs, e.1 ≠ n
  pending : ∀ p ∈ t.sched.pending, p.fn ≠ n
  switch : t.sched.switchTo ≠ some n
  over' : t.inReset n = false

/-- No team of another guest is on the quads of a reset of guest `n`. -/
def OthersAway (s : State) (n : Nat) (quads : List Nat) : Prop :=
  ∀ x ∈ s.teams, x.resident = true → x.core / 4 ∈ quads → ∀ l, s.launch? x.launch = some l → l.guest = n

/-- The reset of function 0 discards the cached remote lines, when no request waits for one, and empties the Hamper (R477,
R123). -/
structure DeviceGone (s t : State) : Prop where
  caches : s.groups = [] → s.teams = [] → s.home.inbox = [] → (∀ c ∈ s.home.caches, c.queue = []) → t.home.caches = []
  hamper : t.hamper.guest = none
  l1 : ∀ c ∈ t.cores, ∀ x ∈ c.2.l1, keyNode x.line = none

/-- A function reset: of the device, of a guest, or of no function. -/
def functionGone (s : State) (n : Nat) (t : State) : Prop :=
  (n = 0 → DeviceGone s t) ∧ (0 < n → n < 4096 → ResetBegins s t n) ∧ (4096 ≤ n → t = s)

/-- A cold reset: every unit holds its reset state, and of the platform the fuse and the firmware image stay, and the
management controller's copy of the log where the reset keeps it (R483, R485, R487). -/
structure ColdStart (s t : State) (mirror : List LogEntry) (recovery : Bool) : Prop where
  memory : t.mem = [] ∧ t.home = State.reset.home ∧ t.trusted = Trusted.reset ∧ t.xlate = State.reset.xlate ∧ t.regs = Regs.reset
  units : t.dies = [] ∧ t.cores = [] ∧ t.quads = [] ∧ t.groups = [] ∧ t.teams = [] ∧ t.ports = [] ∧ t.cur = none ∧ t.reqs = [] ∧
    t.engOps = [] ∧ t.tileOps = [] ∧ t.flasks = [] ∧ t.hamper = State.reset.hamper ∧ t.sched = State.reset.sched ∧ t.errlog = []
  plat : t.plat = { Plat.reset with fused := s.plat.fused, firmware := s.plat.firmware, recovery := recovery, mirror := mirror }

/-- QREP commands: taken in some states of the quad, and otherwise discarded and logged (R489). -/
def qrepTaken (s t : State) (quad : Nat) (from' : List (BitVec 3)) (into : BitVec 3) : Prop :=
  fldN t.regs.qrep 0 8 = quad % 256 ∧
    (quad < 160 → alookup s.plat.qstates quad 0#3 ∈ from' → alookup t.plat.qstates quad 0#3 = into ∧ t.errlog = s.errlog) ∧
    ((160 ≤ quad ∨ alookup s.plat.qstates quad 0#3 ∉ from') → t.plat.qstates = s.plat.qstates ∧
      t.errlog = s.errlog ++ [.commandDiscarded 0xC0010])

/-- A command of HBM.RETIRE that is not taken in its state. -/
def retireDiscarded (s t : State) : Prop := t.regs = s.regs ∧ t.errlog = s.errlog ++ [.commandDiscarded 0xC0008]

/-- STATE and FIRST of HBM.RETIRE (R489). -/
def retireState (x : DWord) : Nat := fldN x 12 2
def retireFirst (x : DWord) : Nat := fldN x 16 32

/-- A write of one register of function 0's BAR 0, by its offset and size; other registers of the machine are as they were
(R474, R475). -/
def registerTakes (s : State) (off size : Nat) (v : DWord) : Option State :=
  if off = 0x00000 ∧ size = 8 then some { s with regs := { s.regs with gdtBase := v &&& 0x0000FFFFFFFF0000#64 } }
  else if off = 0x00008 ∧ size = 8 then some { s with regs := { s.regs with preDL := v } }
  else if off = 0x00018 ∧ size = 8 then
    some (if s.regs.domCtrl.getLsbD 1 then s else { s with regs := { s.regs with domNode := v &&& 0xFFF#64 } })
  else if off = 0x00028 ∧ size = 8 then some { s with regs := { s.regs with pwrLimit := v &&& 0xFFFF#64 } }
  else if 0x20000 ≤ off ∧ off < 0x20040 ∧ off % 4 = 0 ∧ size = 4 then
    some { s with regs := { s.regs with stickyQuota := aset s.regs.stickyQuota ((off - 0x20000) / 4) (v.setWidth 32 &&& 0x7F#32) } }
  else if 0x30000 ≤ off ∧ off < 0x34000 ∧ off % 4 = 0 ∧ size = 4 then
    some { s with regs := { s.regs with schedQuant := aset s.regs.schedQuant ((off - 0x30000) / 4) (v.setWidth 32 &&& 0xFFFFF#32) } }
  else if off = 0xC0000 ∧ size = 8 then some { s with regs := { s.regs with collBase := v &&& 0x0000FFFFFFFF0000#64 } }
  else none

/-- THE STEPS OF FUNCTION RESETS, OF THE LINKS AND OF DOMAIN FORMATION: what holds after each, for a step from `s`. -/
def linkEffect (s : State) (i : Instr) : Option (State → Prop) :=
  match i with
  | .flrVf n => some fun t => if n = 0 then t = s else functionGone s n t
  | .flrPf => some fun t => DeviceGone s t
  | .mgmtFlr n => some fun t => functionGone s n t
  | .linkLoss => some fun t =>
      fldN t.regs.hloss 32 32 = min (2 ^ 32 - 1) (fldN s.regs.hloss 32 32 + 1) ∧ t.regs.hloss.getLsbD 0 = true ∧
        t.plat.linkUp = false ∧ t.outbox.getLast? = some (.linkLoss (min (2 ^ 32 - 1) (fldN s.regs.hloss 32 32 + 1)))
  | .linkDownHandshake => some fun t => PlatIs s t { s.plat with linkUp := false }
  | .linkUp => some fun t => PlatIs s t { s.plat with linkUp := true, dead := s.plat.dead.filter fun n => n != 4096 }
  | .hlossThaw => some fun t => t.regs = { s.regs with hloss := withBit s.regs.hloss 0 false } ∧ t.mem = s.mem ∧
      ∀ l ∈ t.sched.launches, l.linkFrozen = false
  | .domEnWrite v => some fun t => t.regs = { s.regs with domCtrl := withBit s.regs.domCtrl 0 v } ∧
      ∀ p, p < 144 → alookup t.plat.ports p .off =
        if v = true ∧ alookup s.plat.ports p .off = .off then .training else alookup s.plat.ports p .off
  | .domFormedWrite v => some fun t => RegsAre s t { s.regs with domCtrl := withBit s.regs.domCtrl 1 v }
  | .portTrained port node ok => some fun t =>
      if alookup s.plat.ports port .off = .training ∧ s.regs.domCtrl.getLsbD 0 = true then
        if ok = false then alookup t.plat.ports port .off = .awaitingRetry ∧ t.errlog = s.errlog
        else if node = s.thisNode then alookup t.plat.ports port .off = .down ∧ t.errlog = s.errlog ++ [.identityConflict port]
        else alookup t.plat.ports port .off = .up ∧ alookup t.plat.portNode port 0 = node ∧ node ∈ t.plat.nodes ∧ t.errlog = s.errlog
      else t = s
  | .portTrainRetry port => some fun t =>
      if s.regs.domCtrl.getLsbD 0 = true ∧ (alookup s.plat.ports port .off = .awaitingRetry ∨ alookup s.plat.ports port .off = .down) then
        PlatIs s t { s.plat with ports := aset s.plat.ports port .training } else t = s
  | .flitCheckFailure port => some fun t =>
      if alookup s.plat.ports port .off = .up then
        PlatIs s t { s.plat with flits := aset s.plat.flits port (alookup s.plat.flits port 0 + 1) } else t = s
  | .portTakedown port => some fun t =>
      if alookup s.plat.ports port .off = .off then t = s
      else alookup t.plat.ports port .off = .down ∧ LogEntry.portDown port ∈ t.errlog ∧ t.mem = s.mem
  | _ => none

/-- THE STEPS OF POWER, MANAGEMENT, DEBUGGING, REPAIR AND REGISTERS: what holds after each, for a step from `s`. -/
def platformEffect (s : State) (i : Instr) : Option (State → Prop) :=
  match i with
  | .powerWindow above => some fun t => PlatIs s t { s.plat with throttled := above }
  | .tempCritical die => some fun t => ColdStart s t (s.plat.mirror ++ [.overTemperature die]) false
  | .moduleReset => some fun t => ColdStart s t s.plat.mirror false
  | .coldReset ok => some fun t => ColdStart s t [] (!ok)
  | .readFaultLog => some fun t => t = { s with outbox := s.outbox ++ [.faultLog s.plat.mirror] }
  | .dumpState => some fun t => t = { s with outbox := s.outbox ++ [match s.plat.debug with
      | .device => .stateDump (s.sched.launches.map fun l => l.id)
      | .tenant n => .stateDump ((s.sched.launches.filter fun l => l.tenant == n && !l.prot).map fun l => l.id)
      | .off => .refusal 0] }
  | .recover ok => some fun t =>
      if s.security = .protectedPresent ∨ ok = false then t = { s with outbox := s.outbox ++ [.refusal 1] }
      else PlatIs s t { s.plat with firmware := s.plat.firmware + 1, recovery := false, pendingImage := false }
  | .spdmRequest _ => some fun t => ∃ ds, t = { s with outbox := s.outbox ++ [.measurements ds] } ∧
      ds = Config.firmwareDigest s.plat.firmware ::
        (s.trusted.kernels.filter fun e => keValid e.2).map fun e => fld e.2 1664 384
  | .pldmTelemetry => some fun t => t = { s with outbox := s.outbox ++ [.telemetry s.regs.hloss] }
  | .pldmFirmwareUpdate ok => some fun t =>
      if ok = true then t = { s with plat := { s.plat with pendingImage := true }, sched := { s.sched with handover := true } }
      else t = { s with outbox := s.outbox ++ [.refusal 2] }
  | .firmwareHandover => some fun t =>
      if s.plat.pendingImage = true ∧ s.sched.pending = [] ∧ s.sched.taken = [] then
        t = { s with plat := { s.plat with firmware := s.plat.firmware + 1, pendingImage := false },
                     sched := { s.sched with handover := false } }
      else t = s
  | .debugStateRequest st token tenant => some fun t =>
      if 2 < st then t = s
      else if st = 0 ∨ s.security = .open' ∨ (s.security = .production ∧ token = true) ∨ (s.security = .protectedPresent ∧ st = 1) then
        PlatIs s t { s.plat with debug := if st = 0 then .off else if st = 1 then .tenant tenant else .device }
      else t.plat.debug = s.plat.debug ∧ t.errlog = s.errlog ++ [.debugRefused] ∧ t.outbox = s.outbox ++ [.refusal 3]
  | .deepSleepEntry => some fun t =>
      if ∃ x ∈ s.teams, x.resident = true then t = s else PlatIs s t { s.plat with power := .deepSleep }
  | .deepSleepWake => some fun t => PlatIs s t { s.plat with power := .active }
  | .qrepDrain quad => some fun t => qrepTaken s t quad [0] 1 ∧
      (quad < 160 → alookup s.plat.qstates quad 0#3 = 0#3 → quad ∈ t.sched.withdrawn)
  | .qrepRetest quad => some fun t => qrepTaken s t quad [2, 4] 3
  | .qrepReturn quad => some fun t => qrepTaken s t quad [2, 5] 0 ∧
      (quad < 160 → alookup s.plat.qstates quad 0#3 ∈ [2#3, 5#3] → quad ∉ t.sched.withdrawn ∧ (t.quad quad).off = false)
  | .qrepDrainDone => some fun t => ((∀ e ∈ s.plat.qstates, e.2 ≠ 1#3) → t = s) ∧
      ∀ quad, s.plat.qstates = [(quad, 1#3)] → (∀ x ∈ s.teams, x.core / 4 = quad → x.resident = false) →
        PlatIs s t { s.plat with qstates := [(quad, 2#3)] }
  | .qrepRetestDone ok spare => some fun t => ∀ e : Nat × BitVec 3, (s.plat.qstates.find? fun e => e.2 == 3#3) = some e →
      alookup t.plat.qstates e.1 0#3 = (if ok = true ∨ (spare = true ∧ alookup s.plat.spares (e.1 / 20) 0 < 4) then 5#3 else 4#3) ∧
      alookup t.plat.spares (e.1 / 20) 0 = alookup s.plat.spares (e.1 / 20) 0 +
        if ok = false ∧ spare = true ∧ alookup s.plat.spares (e.1 / 20) 0 < 4 then 1 else 0
  | .hbmRetireRequest v => some fun t =>
      if retireState s.regs.hbmRetire = 0 ∨ retireState s.regs.hbmRetire = 3 then
        retireState t.regs.hbmRetire = 1 ∧ fldN t.regs.hbmRetire 0 9 = fldN v 0 9 ∧ retireFirst t.regs.hbmRetire % 32768 = 0 ∧
          t = { s with regs := { s.regs with hbmRetire := t.regs.hbmRetire }, fresh := s.fresh + 1 }
      else retireDiscarded s t
  | .hbmRetireCommit _ => some fun t =>
      if retireState s.regs.hbmRetire = 1 then
        retireState t.regs.hbmRetire = 2 ∧ retireFirst t.regs.hbmRetire = retireFirst s.regs.hbmRetire ∧
          fldN t.regs.hbmRetire 0 9 = fldN s.regs.hbmRetire 0 9 ∧ RegsAre s t { s.regs with hbmRetire := t.regs.hbmRetire }
      else retireDiscarded s t
  | .restripeDone => some fun t =>
      if retireState s.regs.hbmRetire = 2 then
        retireState t.regs.hbmRetire = 3 ∧ retireFirst t.regs.hbmRetire = retireFirst s.regs.hbmRetire ∧
          t = { s with regs := { s.regs with hbmRetire := t.regs.hbmRetire },
                       plat := { s.plat with retired := s.plat.retired ++ [retireFirst s.regs.hbmRetire] } }
      else t = s
  | .featMaskWrite guest v => some fun t =>
      if (s.guestDesc guest).valid = true then t.regs = s.regs ∧ t.errlog = s.errlog ++ [.featMaskIgnored guest]
      else RegsAre s t { s.regs with featMask := aset s.regs.featMask guest v }
  | .keyTransfer launch idx out_ key ctrs => some fun t =>
      if out_ = true then
        t = { s with trusted := { s.trusted with savedCtr := s.trusted.savedCtr.filter fun e => e.1 != launch },
                     outbox := s.outbox ++ [.keyTransfer launch idx ((s.trusted.savedCtr.filter fun e => e.1 == launch).map fun e => (e.2.1, e.2.2))] }
      else alookup t.trusted.keys idx 0 = key ∧ (∀ c ∈ ctrs, (launch, c.1, c.2) ∈ t.trusted.savedCtr) ∧
        t = { s with trusted := { s.trusted with keys := t.trusted.keys, savedCtr := t.trusted.savedCtr } }
  | .registerWrite off size v => some fun t =>
      ((size ≠ 4 ∧ size ≠ 8 ∨ off % size ≠ 0) → t = s) ∧ ∀ u, registerTakes s off size v = some u → t = u
  | _ => none

end Sys2Proof.Claims
end

