-- ==== Sys2Proof/Safety/SystemRegs.lean ====
section
/-! DEFINITION. The system registers and the return from a trap, as the claims state them (R414 to R422, R446). -/

namespace Sys2Proof.Claims

open Sys2Proof.Machine

/-- The feature vector that a guest reads: the native one under the guest's mask, with bit 0 set (R462, R463). -/
def featuresOf (s : State) (guest : Nat) : Nat :=
  (s.regs.featNative &&& alookup s.regs.featMask guest (BitVec.allOnes 256) ||| 1#256).toNat

/-- The system registers, by number: what lane `n` of a group reads (R414). -/
def sysValue (s : State) (g : Group) (n : Nat) : List (Nat × DWord) :=
  [(0x000, BitVec.ofNat 64 n), (0x001, BitVec.ofNat 64 g.width), (0x002, BitVec.ofNat 64 g.index),
   (0x003, BitVec.ofNat 64 g.role), (0x004, BitVec.ofNat 64 g.rank), (0x005, BitVec.ofNat 64 g.team),
   (0x006, BitVec.ofNat 64 g.core), (0x007, BitVec.ofNat 64 (g.core / 4)), (0x010, g.ctxId), (0x011, s.clock),
   (0x020, g.trapCause), (0x021, g.trapPC), (0x022, g.trapVA), (0x023, 0#62 ++ g.trapMask), (0x024, g.trapVec),
   (0x030, 0#60 ++ g.warn), (0x040, BitVec.ofNat 64 (featuresOf s g.guest)),
   (0x041, BitVec.ofNat 64 (featuresOf s g.guest / 2 ^ 64)), (0x042, BitVec.ofNat 64 (featuresOf s g.guest / 2 ^ 128)),
   (0x043, BitVec.ofNat 64 (featuresOf s g.guest / 2 ^ 192))]

/-- The registers that are 64 bits wide (R414). -/
def wideSys : List Nat := [0x010, 0x011, 0x020, 0x021, 0x022, 0x024, 0x040, 0x041, 0x042, 0x043]

/-- What `rdsys` and `ctr.rd` read: the destination field, whether a vector destination is a pair, and the value. -/
def sysRead (i : Instr) : Option (BitVec 8 × Bool × (State → Group → Nat → DWord)) :=
  match i with
  | .rdsys d r => some (d, wideSys.contains r.toNat, fun s g n => ((sysValue s g n).find? fun e => e.1 == r.toNat).elim 0 fun e => e.2)
  | .ctrRd d k => some (d, true, fun _ g _ => (g.ctrs.toList.getD k.toNat default).val.setWidth 64)
  | _ => none

/-- What `wrsys`, `warn.clr` and `ctr.cfg` write in a group, given the lowest guard-true lane. -/
def sysWrite (i : Instr) : Option (Group → Nat → Lane → Group → Prop) :=
  match i with
  | .wrsys a _ => some fun g n l g' => g' = { g with trapMask := (src32 g n l a).extractLsb' 0 2 }
  | .warnClr m => some fun g _ _ g' => g' = { g with warn := g'.warn } ∧
      ∀ k, k < 4 → g'.warn.getLsbD k = (g.warn.getLsbD k && !m.getLsbD k)
  | .ctrCfg a k => some fun g n l g' => g' = { g with ctrs := g'.ctrs } ∧
      ∀ j, j < 4 → (g'.ctrs.toList.getD j default) = if j = k.toNat then
        { sel := (src32 g n l a).extractLsb' 0 8,
          val := if (src32 g n l a).getLsbD 8 then 0 else (g.ctrs.toList.getD j default).val }
        else g.ctrs.toList.getD j default
  | _ => none

/-- The vector registers of a lane that returns from a handler: as the frame kept them, but for those that the trapping check
reads, which keep the handler's values (R446). -/
def Returned (f : Frame) (l kept l' : Lane) : Prop :=
  l' = { kept with v := l'.v, status := .ready, age := 0, skip := false, missed := l.missed } ∧
    ∀ n, n < 128 → l'.reg n = if n ∈ f.sub.keep then l.reg n else kept.reg n

/-- What a lane of the innermost frame becomes when its handler returns (R446). -/
def HandlerLane (resume : Bool) (f : Frame) (i : Nat) (l l' : Lane) : Prop :=
  ∀ e, f.saved.find? (fun e => e.idx == i) = some e →
    if resume then Returned f l e.lane l' else l' = { l with status := .exited, resume := none, target := none, pend := [], acq := [] }

/-- The hints of which the C640 follows none, with D and WS (R200, R425). -/
def hintTarget (i : Instr) : Option (BitVec 7 × BitVec 1) :=
  match i with
  | .schedHint d w _ _ => some (d, w)
  | .unimplementedHint _ d w _ _ _ => some (d, w)
  | _ => none

end Sys2Proof.Claims
end

