-- ==== Sys2Proof/Safety/Tiles.lean ====
section
/-! DEFINITION. Tiles, the matrix engine and the Hamper in the terms of the claims: handles, rings, posted operations,
reservation entries and records (R353 to R411). -/

namespace Sys2Proof.Claims

open Sys2Proof.Machine

/-- The performing lane's group is of a team of the machine (R356). -/
structure InTeam (s : State) (p : Pick) (g : Group) (m : BitVec 64) (i : Nat) (l : Lane) (tm : Team) : Prop
    extends Performs s p g m i l where
  team : s.team? g.launch g.team = some tm

/-! ### Handles and rings -/

/-- The cores on which an allocation takes a slot: the four of the quad for a blanket handle, or the group's own (R358). -/
def allocCores (tm : Team) (g : Group) (blanket : Bool) : List Nat :=
  if blanket then (List.range 4).map fun c => 4 * (tm.core / 4) + c else [g.core]

/-- The team's slots on a core. -/
def ownSlots (tm : Team) (c : Nat) : List Nat := (tm.slots.filter fun a => a.1 == c).map fun a => a.2

/-- The team's rename table after a change of one entry. -/
def EntryBecomes (t : State) (tm : Team) (lh : Nat) (gen : BitVec 8) (st : BitVec 2) : Prop :=
  ∃ tm', t.team? tm.launch tm.team = some tm' ∧ renGen (tm'.entry lh) = gen ∧ renState (tm'.entry lh) = st ∧
    ∀ n, n < tm.handles → n ≠ lh → tm'.entry n = tm.entry n

/-- Handle register `d`, as lane `i` reads it, has taken a value, and every other handle is as it was. -/
def HandleBecomes (t : State) (g : Group) (i d : Nat) (h : BitVec 16) : Prop :=
  ∃ g', t.group? g.gid = some g' ∧ ∀ n, n < 32 → g'.handle i n = if n = d then h else g.handle i n

/-- Where a lane stands that will perform the instruction again: at it, or before the clause when it is the clause's first
(R165, log 123). -/
def againPlace (p : Pick) (l : Lane) : Place :=
  { pc := p.hdr, widx := if p.pos = 0 then 0 else p.pos + 1, pass := l.pass, loop := l.loop }

/-- Every lane of the pick waits in a ring or box operation, which it will perform again (R360, R361). -/
structure RingWaits (s t : State) (p : Pick) (g : Group) (m : BitVec 64) : Prop where
  elsewhere : t = { s with groups := t.groups, cur := t.cur }
  others : OthersKept s t g.gid
  left : LeftPick t g m m
  waits : ∃ g', t.group? g.gid = some g' ∧ g' = { g with lanes := g'.lanes } ∧ LanesTo g g' fun n l l' =>
    l' = if m.getLsbD n then { (At l (againPlace p l)) with status := .waiting .ring, resume := some (againPlace p l) } else l

/-- The line of a ring after a change: its counts, and handle `n` of its 62 (R360). -/
structure RingBecomes (s t : State) (core line : Nat) (put take : BitVec 16) (h : Nat → BitVec 16) : Prop where
  kept : t.sline core line = { s.sline core line with data := (t.sline core line).data }
  put : fld (t.sline core line).data 0 16 = put
  take : fld (t.sline core line).data 16 16 = take
  handles : ∀ n, n < 62 → fld (t.sline core line).data (32 + 16 * n) 16 = h n

/-- Handle `n` of a ring's line. -/
def ringHandle (d : LineData) (n : Nat) : BitVec 16 := fld d (32 + 16 * n) 16

/-- A box of a team after a change, the others being as they were (R361). -/
def BoxBecomes (t : State) (tm : Team) (r : Nat) (b : List BoxEntry) : Prop :=
  ∃ tm', t.team? tm.launch tm.team = some tm' ∧ tm'.boxes.getD r [] = b ∧
    ∀ k, k < 4 → k ≠ r → tm'.boxes.getD k [] = tm.boxes.getD k []

/-- A handle value that a take accepts: current, in transit, and of the format (R362). -/
def Takeable (s : State) (tm : Team) (h : BitVec 16) (f : BitVec 4) : Prop :=
  ∃ e a rest, tm.current h = some e ∧ renState e = 2#2 ∧ tm.slotsOf e = a :: rest ∧ tagFmt (s.slot a.1 a.2).tag = f.toNat

/-! ### Posted operations -/

/-- A tile operation has been posted: it counts on c3, the slots that it reads and writes know of it, and no slot has changed
its bytes (R363 to R367). -/
structure TilePosted (s t : State) (g : Group) (kind : TileKind) (src dst : Option OpTile) (reads writes : List (Nat × Nat)) :
    Prop where
  elsewhere : t = { s with groups := t.groups, cores := t.cores, tileOps := t.tileOps, nextId := s.nextId + 1 }
  job : t.tileOps = s.tileOps ++ [{ op := s.nextId, gid := g.gid, kind := kind, src := src, dst := dst, writes := writes }]
  readers : ∀ a ∈ reads, s.nextId ∈ (t.slot a.1 a.2).readers
  writers : ∀ a ∈ writes, s.nextId ∈ (t.slot a.1 a.2).writers
  bytes : ∀ c k, (t.slot c k).data = (s.slot c k).data
  group : t.group? g.gid = some { g with q3 := g.q3 ++ [s.nextId] }

/-- An entry of the reservation table with what its posting brings: its tile, its operands, its kind, and the operation that
it counts down (R371, R372). -/
structure EntryPosted (e : ResvEntry) (kind : ResvKind) (tm : Team) (g : Group) (acc op : Nat) : Prop where
  kind : e.kind = kind
  team : e.launch = tm.launch ∧ e.team = tm.team ∧ e.gid = g.gid
  acc : e.acc = acc
  counts : e.counts = [(g.gid, op)]
  waits : e.dispatched = false

/-- Format, slice, overwriting and quarters of a pass (R371). -/
structure PassEntry (e : ResvEntry) (pl : PassPlan) (slice : Nat) (ovr : Bool) : Prop where
  b : e.b = pl.b
  slice : e.slice = slice
  ovr : e.ovr = ovr
  isInt : e.isInt = pl.isInt

/-! ### Hamper requests -/

/-- A Hamper instruction has been issued: it counts on c3, its requests follow those of the machine, and its destination
registers await their answers in the guard-true lanes (R403). -/
structure HamperIssued (s t : State) (g : Group) (act : BitVec 64) (dst : Option (Nat × Nat)) (requests : List Req → Prop) : Prop where
  elsewhere : t = { s with groups := t.groups, reqs := t.reqs, nextId := t.nextId }
  others : OthersKept s t g.gid
  reqs : ∃ rs, t.reqs = s.reqs ++ rs ∧ requests rs ∧ ∀ r ∈ rs, r.op = s.nextId ∧ r.gid = g.gid ∧ r.done = false
  group : ∃ g', t.group? g.gid = some g' ∧ g' = { g with lanes := g'.lanes, q3 := g.q3 ++ [s.nextId] } ∧
    LanesTo g g' fun i l l' => l'.v = l.v ∧ l'.p = l.p ∧ l'.lat = l.lat ∧
      ∀ d n, dst = some (d, n) → act.getLsbD i = true → ∀ k, k < n → (d + k, s.nextId) ∈ l'.pend

/-- The pick is one group's, which may issue a Hamper instruction for its guard-true lanes (R182, R136). -/
structure HamperIssues (s : State) (p : Pick) (g : Group) (m act : BitVec 64) : Prop extends MayAccess s p g m act where
  counter : g.c3 < 63
  settled : ∀ i : Nat, act.getLsbD i = true → s.awaits g.gid i = false

/-- The words of a record that a lane puts: key, entry label, operator and key space, then its payload (R385, R404, R405). -/
def recordWords (s : State) (g : Group) (l : Lane) (r ks op n : Nat) : List DWord :=
  [l.reg (r + 3) ++ l.reg (r + 2), ((l.reg (r + 5) ++ l.reg (r + 4) - s.codeBase g) >>> 2) &&& 0xFFFFFFFF#64,
   BitVec.ofNat 64 op, BitVec.ofNat 64 ks] ++
    (List.range 8).map fun i => if i < n then (l.reg (r + 6 + i)).setWidth 64 else if op = 0x10 ∧ i = 0 then 1#64 else 0#64

end Sys2Proof.Claims
end

