-- ==== Sys2Proof/Safety/Scheduling.lean ====
section
/-! DEFINITION. What the steps of the issue vote and of the scheduler do, in the terms of the claims (R165, R175 to R178, R426
to R440, R450 to R459). -/

namespace Sys2Proof.Claims

open Sys2Proof.Machine

/-! ### The vote (R165) -/

/-- Port `port` of a slot issues the clause of a class whose first lane is `v`: the pick is formed with the clause's words of
the lanes' pass; lanes at the header take their guard and clear their latches, and no other lane changes. -/
def PortIssues (s t : State) (core slot port : Nat) (v : Voter) (c : List Voter) : Prop :=
  ∀ (g : Group) (s' : State) (h : Word) (ws : List Word) (l : Lane), s.group? v.gid = some g → g.lanes[v.lane]? = some l →
    s.fetchClause core g.guest v.pc = (s', .ok (h, ws)) →
    t = { s' with groups := t.groups, ports := s'.ports ++ [pickOf core slot port (v :: c) v h (l.wordsOf ws)] } ∧
      t.groups.length = s'.groups.length ∧
      ∀ (k : Nat) (g : Group), s'.groups[k]? = some g → ∃ g' : Group, t.groups[k]? = some g' ∧ g'.s = g.s ∧ g'.h = g.h ∧
        LanesTo g g' fun i l l' => l' = if (classMask (v :: c) g.gid).getLsbD i then l.issue h else l

/-- The vote of a slot whose ports are free. -/
def Voted (s t : State) (core slot : Nat) : Prop :=
  let vs := s.voters core slot
  (voteA (classesOf vs) = none → t = s.ageLanes core slot vs []) ∧
    (∀ v c, voteA (classesOf vs) = some (v :: c) → voteB (classesOf vs) (v :: c) = none →
      PortIssues (s.ageLanes core slot vs (v :: c)) t core slot 0 v c) ∧
    ∀ a v c, voteA (classesOf vs) = some a → voteB (classesOf vs) a = some (v :: c) →
      PortIssues ((s.ageLanes core slot vs (a ++ (v :: c))).issueClass core slot 0 a) t core slot 1 v c

/-! ### Grow requests (R176, R177) -/

/-- A granted request: the window has the rows asked for, the new registers are zero, the others are kept, and the lanes that
waited are ready. -/
structure Grown (g g' : Group) (n row : Nat) : Prop where
  kept : g' = { g with budget := n, row := row, growLate := false, lanes := g'.lanes, frames := g'.frames }
  lanes : LanesTo g g' fun _ l l' => (∀ k, k < 128 → l'.reg k = if g.budget ≤ k ∧ k < n then 0#32 else l.reg k) ∧
    l'.p = l.p ∧ ∀ m, l.status = .waiting (.grow m) → l'.status = .ready

/-! ### Submission queues and launches -/

/-- The slots of a ring that are free, and the advance of a write of TAIL (R43). -/
def ringFree (q : Queue) : Nat := 4095 - (fldN q.tail 0 12 + 4096 - fldN q.head 0 12) % 4096
def ringAdvance (q : Queue) (v : DWord) : Nat := (fldN v 0 12 + 4096 - fldN q.tail 0 12) % 4096

/-- A descriptor has been accepted: the launch enters with the descriptor's values, the trusted firmware has approved it, and
HEAD passes the descriptor (R427 to R431, R486). -/
structure Accepted (s t : State) (a : Asked) (q place : Nat) (args : List DWord) : Prop where
  launch : ∃ l : Launch, t.sched.launches = s.sched.launches ++ [l] ∧ l.id = s.sched.nextLaunch ∧ l.fn = a.fn ∧ l.queue = q ∧
    l.guest = a.guest ∧ l.tenant = a.tenant ∧ l.kernel = dKernel a.desc ∧ l.nteam = dNteam a.desc ∧ l.nextTeam = 0 ∧
    l.prio = dPrio a.desc ∧ l.tag = dTag a.desc ∧ l.cplPA = place ∧ l.image = s.imageScalars a args ∧ l.reset = false
  approved : s.sched.nextLaunch ∈ t.trusted.approved
  head : (t.sq a.fn q).headN = ((s.sq a.fn q).headN + 1) % 4096
  memory : t.mem = s.mem
  teams : t.teams = s.teams ∧ t.groups = s.groups

/-- A descriptor that has been read, with a good completion address, is decided by the checks of R431. -/
def Decided (s t : State) (far : FarLines) (fn q : Nat) (d : Desc) (place : Nat) (rejected : Option Nat) : Prop :=
  (∀ s₁, s.asked far fn d rejected = (s₁, none) → t = s₁) ∧ ∀ (s₁ : State) (a : Asked), s.asked far fn d rejected = (s₁, some a) →
    (∀ st rule s₂, s₁.verdict a = .refuse st rule →
      s₁.writeRecord place (completionRecord (dTag d) st rule) = (s₂, true) → t = s₂.passDescriptor fn q) ∧
    (s₁.verdict a = .needsAdmission → t = s₁.awaitAdmission a q place) ∧
    ∀ s₂ args, s₁.verdict a = .accept → s₁.arguments far a.guest d = (s₂, some args) → Accepted s₂ t a q place args

/-- A descriptor that has been read: a bad completion address stops its queue, and a good one has it decided (R427, R431). -/
def Judged (s t : State) (far : FarLines) (fn q : Nat) (d : Desc) : Prop :=
  ((dCpl d).toNat % 16 ≠ 0 → t = s.stopSq fn q) ∧
    (∀ s₁, (dCpl d).toNat % 16 = 0 → s.firmPage (guestOf fn) (dCpl d) .store = (s₁, .fails) → t = s₁.stopSq fn q) ∧
    ∀ s₁ tr, (dCpl d).toNat % 16 = 0 → s.firmPage (guestOf fn) (dCpl d) .store = (s₁, .value tr) →
      Decided s₁ t far fn q d (tr.place (dCpl d)) none

/-- LAUNCH_DESCRIPTOR takes up the descriptor at HEAD of a queue that is served next, and reads it once (R426, R427, R431,
R434). -/
def DescriptorTaken (s t : State) (far : FarLines) (fn q : Nat) : Prop :=
  (∀ e, (s.sched.taken.find? fun e => e.1 == fn && e.2.1 == q) = some e → Judged s t far fn q e.2.2) ∧
    ((s.sched.taken.find? fun e => e.1 == fn && e.2.1 == q) = none →
      (∀ s₁, s.descriptorAt fn q = (s₁, .fails) → t = s₁.stopSq fn q) ∧
        ∀ s₁ s₂ pa, s.descriptorAt fn q = (s₁, .value pa) → s₁.linesReady (linesOf pa 256) = (s₂, true) →
          let d : Desc := readLE s₂.mem pa 2048 256
          Judged { s₂ with sched := { s₂.sched with taken := s₂.sched.taken ++ [(fn, q, d)] } } t far fn q d)

/-- A new team has been placed: it is resident where it fits, and its groups start at their entries with every register of a
lane zero and with the scalars of the launch image (R85, R430, R436). -/
structure TeamPlaced (t : State) (l : Launch) (f : Fit) : Prop where
  team : ∃ x ∈ t.teams, x.launch = l.id ∧ x.team = l.nextTeam ∧ x.resident = true ∧ x.core = f.core ∧ x.slots = f.slots
  groups : ∃ (old new : List Group), t.groups = old ++ new ∧ new.length = min l.members.length f.spots.length ∧
    ∀ g ∈ new, g.launch = l.id ∧ g.team = l.nextTeam ∧ g.s = l.image ∧ g.trapVec = l.trapVec ∧ g.lanes.length = l.width ∧
      ∀ x ∈ g.lanes, x.v = Vector.replicate 128 0#32 ∧ x.p = 0#8 ∧ x.widx = 0 ∧ x.status = .ready

/-! ### Pre-emption (R450 to R455) -/

/-- The context is frozen: its resident groups issue nothing, and no memory and no register has changed. -/
structure Freezes (s t : State) (launch : Nat) : Prop where
  elsewhere : t = { s with groups := t.groups, ports := t.ports, engOps := t.engOps, sched := t.sched }
  tier : ∃ m, t.launch? launch = some m ∧ m.tier = 2 ∧ m.quiesced = false
  frozen : ∀ g ∈ t.groups, g.launch = launch → g.resident = true → g.frozen = true
  issued : ∀ p ∈ t.ports, ∀ g ∈ t.groups, g.launch = launch → g.resident = true → ∀ e ∈ p.members, e.1 ≠ g.gid

/-- The context has ended by forced reset: none of its teams is left (R455). -/
structure ResetEnds (s t : State) (launch : Nat) : Prop where
  becomes : t = s.forcedReset launch
  teams : ∀ x ∈ t.teams, x.launch ≠ launch
  launch : ∃ m, t.launch? launch = some m ∧ m.reset = true ∧ m.tier = 0

/-- An image that passes its checks is restored: the team is resident at the place, and a refused one ends its context
(R459). -/
def Restored (s t : State) (l : Launch) (img : Image) (f : Fit) (edits : List ImageEdit) : Prop :=
  (s.checkImage l img edits = restoreOk → t.sched.restoreResult = 0 ∧
      ∃ x ∈ t.teams, x.launch = img.launch ∧ x.team = img.team.team ∧ x.resident = true ∧ x.core = f.core) ∧
    (s.checkImage l img edits ≠ restoreOk → t = s.refuseRestore img (s.checkImage l img edits)) ∧
    (l.prot = false → s.checkImage l img edits = restoreOk) ∧ (l.prot = true → edits ≠ [] → s.checkImage l img edits = 1)

/-- THE STEPS OF THE VOTE AND OF GROW REQUESTS: what holds after each, for a step from `s`. -/
def voteEffect (s : State) (i : Instr) : Option (State → Prop) :=
  match i with
  | .votePoint core slot => some fun t =>
      ((s.slotFree core slot = false ∨ s.plat.throttled = true) → t = s) ∧
        (s.slotFree core slot = true → s.plat.throttled = false → Voted s t core slot)
  | .growGrant gid => some fun t => (s.group? gid = none → t = s) ∧ ∀ g, s.group? gid = some g →
      ((g.growing = none ∨ s.grantable g = none) → t = s) ∧
        ∀ n row, g.growing = some n → s.grantable g = some row →
          t = { s with groups := t.groups } ∧ OthersKept s t gid ∧ ∃ g', t.group? gid = some g' ∧ Grown g g' n row
  | .growWaitLimit gid => some fun t => t = { s with groups := t.groups } ∧ OthersKept s t gid ∧ ∀ g, s.group? gid = some g →
      t.group? gid = some { g with growLate := g.growLate || g.growing.isSome }
  | .growDeadlock core => some fun t =>
      (s.growDeadlocked core = false → t = s) ∧
        (s.growDeadlocked core = true →
          (∀ gid, s.growReady core = some gid → t = s.grantGrow gid) ∧
            ∀ v u, s.growReady core = none → s.survivor core = some v →
              youngest ((s.teamsOn [] core).filter fun x => x.key != v.key) = some u →
              ((s.stopTeam u (.deadlock core)).2 = false → t = (s.stopTeam u (.deadlock core)).1) ∧
                ((s.stopTeam u (.deadlock core)).2 = true →
                  t = (s.stopTeam u (.deadlock core)).1.breakDeadlock core (s.teamsOn [] core).length))
  | _ => none

/-- THE STEPS OF QUEUES, LAUNCHES AND PLACEMENT: what holds after each, for a step from `s`. -/
def launchEffect (s : State) (i : Instr) : Option (State → Prop) :=
  match i with
  | .sqTailWrite fn q v => some fun t =>
      if ringAdvance (s.sq fn q) v ≤ ringFree (s.sq fn q) then
        t = { s.setSq fn q { s.sq fn q with tail := BitVec.ofNat 64 (fldN v 0 12) } with
          plat := { s.plat with power := if s.plat.power = .deepSleep then .active else s.plat.power } }
      else t = s.log (.queueOverrun (8192 + 16 * fn + q))
  | .sqErrClear fn q => some fun t => t = s.setSq fn q { s.sq fn q with ctrl := (s.sq fn q).ctrl &&& ~~~(2#64) }
  | .launchDescriptor fn ⟨q, far⟩ => some fun t =>
      let runs := s.schedRuns && !s.inReset (guestOf fn)
      let begun := s.sched.taken.any fun e => e.1 == fn && e.2.1 == q
      (runs = false → t = s) ∧
        (runs = true → (s.sched.pending.find? fun (p : Pending) => p.fn == fn && p.queue == q) = none →
          (¬ (s.nextSq fn = some q ∧ (begun = true ∨ s.sched.handover = false)) → t = s) ∧
            (s.nextSq fn = some q → begun = true ∨ s.sched.handover = false → DescriptorTaken s t far fn q)) ∧
        ∀ p, runs = true → (s.sched.pending.find? fun (p : Pending) => p.fn == fn && p.queue == q) = some p →
          (s.admissionRecord p = none → t = s) ∧
            (∀ rule, s.admissionRecord p = some (true, rule) → Decided s t far fn q p.desc p.cplPA (some rule)) ∧
            ∀ rule, s.admissionRecord p = some (false, rule) → keValid (s.kernelEntry p.kernel) = true →
              Decided s t far fn q p.desc p.cplPA none
  | .placement launch team core => some fun t => (s.launch? launch = none → t = s) ∧ ∀ l, s.launch? launch = some l →
      ((s.schedRuns = false ∨ s.mayPlace l = false) → t = s) ∧
        (s.schedRuns = true → s.mayPlace l = true →
          (s.isSaved launch team = false → team = l.nextTeam → s.mayPlaceNew l = true → s.goesFirst l false team = false →
            ∀ f, s.placeFor l = some f → (f.core ≠ core → t = s) ∧ (f.core = core → t = s.placeNew l f ∧ TeamPlaced t l f)) ∧
          ∀ img, s.isSaved launch team = true → s.imageFor launch team = some img → s.goesFirst l true team = false →
            ∀ f, s.placeForSaved l img = some f → (f.core ≠ core → t = s) ∧ (f.core = core → t = s.placeSaved l img f))
  | .launchCompletion launch => some fun t => (s.launch? launch = none → t = s) ∧ ∀ l, s.launch? launch = some l →
      (s.launchOver l = false → t = s) ∧
        ∀ s₁, s.launchOver l = true →
          s.writeRecord l.cplPA (completionRecord l.tag (if l.reset then cplReset else cplDone) 0xFFFF) = (s₁, true) →
          t = s₁.endLaunch l ∧ t.launch? launch = none ∧ launch ∉ t.trusted.approved ∧ t.mem = s₁.mem
  | .placementWaitLimit launch => some fun t => ∀ l, s.launch? launch = some l →
      (s.waits l = false → t = s) ∧
        (s.waits l = true → (∃ m, t.launch? launch = some m ∧ m.waitLimit = true) ∧
          t = (s.updLaunch launch fun m => { m with waitLimit := true }).pressOn { l with waitLimit := true })
  | .quantumExpiry => some fun t =>
      ((s.sched.switchTo.isSome = true ∨ s.nextGuest = none) → t = s) ∧
        ∀ g, s.sched.switchTo = none → s.nextGuest = some g → t = s.startSwitch g ∧ t.sched.switchTo = some g
  | _ => none

/-- THE STEPS OF PRE-EMPTION, ROTATION AND RESTORE: what holds after each, for a step from `s`. -/
def preemptEffect (s : State) (i : Instr) : Option (State → Prop) :=
  match i with
  | .teamRotation launch team => some fun t => ∀ l img, s.launch? launch = some l → s.imageFor launch team = some img →
      (s.mayPlace l = false → t = s) ∧
        (s.mayPlace l = true →
          let rs := s.teams.filter fun x => x.launch == launch && x.resident && (s.fitImage [x.key] img x.core).isSome
          (youngest rs = none → t = s) ∧
            ∀ u, youngest rs = some u →
              ((s.stopTeam u (.rotation team)).2 = false → t = (s.stopTeam u (.rotation team)).1) ∧
                ∀ f, (s.stopTeam u (.rotation team)).2 = true → (s.stopTeam u (.rotation team)).1.fitImage [] img u.core = some f →
                  t = (s.stopTeam u (.rotation team)).1.restoreAt l img f [])
  | .restore image core edits => some fun t =>
      ((s.sched.images.find? fun i => i.id == image) = none → t = s) ∧
        ∀ img l, (s.sched.images.find? fun i => i.id == image) = some img → s.launch? img.launch = some l →
          (s.mayPlace l = false → t = s) ∧
            (s.mayPlace l = true →
              (s.isSaved img.launch img.team.team = false → l.prot = false → t = s) ∧
                (s.isSaved img.launch img.team.team = false → l.prot = true → t = s.refuseRestore img (s.checkImage l img edits)) ∧
                (s.isSaved img.launch img.team.team = true →
                  (s.fitImage [] img core = none → t = s) ∧
                    ∀ f, s.fitImage [] img core = some f → img.team.launch = img.launch → Restored s t l img f edits))
  | .preemptRequest launch tier => some fun t => ∀ l, s.launch? launch = some l →
      (4 < tier → t = s) ∧ (tier = 3 → t = if l.reset = true then s else s.forcedReset launch) ∧
        (tier = 4 → t = if l.reset = true then s else s.resetFor launch (causeOf cDataPoison 0)) ∧
        (tier = 0 → t = if l.tier = 2 then s.thawLaunch launch else s) ∧
        (tier = 1 ∨ tier = 2 →
          ((tier ≤ l.tier ∨ l.reset = true) → t = s) ∧
            (l.tier < tier → l.reset = false →
              (tier = 1 → s.noDrain = false → t = s.updLaunch launch fun m => { m with stoppedFor := none, tier := 1 }) ∧
                ((tier = 2 ∨ s.noDrain = true) → Freezes s t launch)))
  | .drainDeadline launch => some fun t => ∀ l, s.launch? launch = some l →
      (l.tier ≠ 1 → t = s) ∧ (l.tier = 1 → Freezes s t launch)
  | .freezeDeadline launch => some fun t => ∀ l, s.launch? launch = some l →
      (∀ n, s.resetStops launch = some n → ResetEnds (s.log (.flrEnded launch n)) t launch) ∧
        (s.resetStops launch = none →
          (¬ (l.tier = 2 ∧ l.quiesced = false ∧ s.inReset l.guest = false) → t = s) ∧
            (l.tier = 2 → l.quiesced = false → s.inReset l.guest = false → ResetEnds s t launch))
  | .freezeQuiesced launch => some fun t => ∀ l, s.launch? launch = some l →
      (l.tier ≠ 2 → t = s) ∧
        (l.tier = 2 →
          let s₁ := (s.launchGids launch).foldl (fun s k => s.abandonLocks k) s
          ((s₁.launchGids launch).all s₁.quietGroup = false → t = s₁) ∧ ∀ s₂ ok, (s₁.launchGids launch).all s₁.quietGroup = true →
            s₁.backTeams (s₁.teams.filter fun x => x.launch == launch && x.resident) = (s₂, ok) →
            (ok = false → t = s₂) ∧ (ok = true → t = s₂.updLaunch launch fun m => { m with quiesced := true }))
  | _ => none

end Sys2Proof.Claims
end

