-- ==== Sys2Proof/Safety/Upkeep.lean ====
section
/-! DEFINITION. What the steps of trap delivery, of the invalidation queues, of the walkers and of the Stile do, in the terms
of the claims (R25, R40 to R50, R219 to R221, R250, R419, R434, R443 to R448). -/

namespace Sys2Proof.Claims

open Sys2Proof.Machine

/-! ### Traps (R443 to R448) -/

/-- HANDLER ENTRY (R445): the sub-group's lanes stand ready at the handler with their registers kept; the trap registers hold
its cause and addresses; traps are masked; and a new frame keeps the lanes as they were, with fresh scalar and handle banks. -/
structure HandlerEntered (g g' : Group) (k : Nat) (x : SubGroup) (image : Vector DWord 64) : Prop where
  kept : g' = { g with lanes := g'.lanes, trapCause := x.cause, trapPC := x.pc, trapVA := x.va, trapMask := g.trapMask ||| 1#2,
                       frames := g'.frames, parkedSubs := g.parkedSubs.eraseIdx k }
  lanes : LanesTo g g' fun i l l' => if x.lanes.getLsbD i = true then
      l'.v = l.v ∧ l'.p = l.p ∧ l'.pc = g.trapVec ∧ l'.widx = 0 ∧ l'.status = .ready ∧ l'.pend = [] ∧ l'.lat = Vector.replicate 4 0#32
    else l' = l
  frame : ∃ f, g'.frames = f :: g.frames ∧ f.sub = x ∧ f.bankS = image ∧ f.bankH = Vector.replicate 32 0#16 ∧
    ∀ (i : Nat) (l : Lane), g.lanes[i]? = some l → x.lanes.getLsbD i = true → ({ idx := i, lane := l } : FrameLane) ∈ f.saved

/-- A parked sub-group goes on where its lanes stand. -/
structure GoesOn (g g' : Group) (k : Nat) (x : SubGroup) : Prop where
  kept : g' = { g with lanes := g'.lanes, parkedSubs := g.parkedSubs.eraseIdx k }
  lanes : LanesTo g g' fun i l l' =>
    l' = if x.lanes.getLsbD i = true ∧ l.status = .parked then { l with status := .ready, age := 0 } else l

/-- THE DELIVERY of the sub-group `x` at position `k` (R444). -/
structure Delivered (s t : State) (g : Group) (k : Nat) (x : SubGroup) : Prop where
  /-- a fetch of a page that is not resident goes to the host -/
  host : ∀ r, x.forHost = true → x.fetch = some r →
    t = { s with groups := t.groups, outbox := s.outbox ++ [.pageRequest g.guest r.va] } ∧ OthersKept s t g.gid ∧
      t.group? g.gid = some { g with parkedSubs := g.parkedSubs.modify k fun x => { x with fetch := some { r with sent := true } } }
  /-- a warning in a handler goes to nothing -/
  warning : x.forHost = false → codeOf x.cause = 0x0D → g.trapMask.getLsbD 0 = true →
    t = { s with groups := t.groups } ∧ OthersKept s t g.gid ∧ ∃ g', t.group? g.gid = some g' ∧ GoesOn g g' k x
  /-- with traps masked another sub-group waits, and one of the handler's own lanes ends the context -/
  masked : x.forHost = false → codeOf x.cause ≠ 0x0D → g.trapMask.getLsbD 0 = true →
    t = if g.inHandler x then s.resetFor g.launch x.cause else s
  /-- without a vector, or in a second handler, the context ends -/
  ends : x.forHost = false → g.trapMask.getLsbD 0 = false → (g.trapVec = 0#64 ∨ 2 ≤ g.frames.length) →
    t = s.resetFor g.launch x.cause
  /-- otherwise the handler is entered -/
  enters : x.forHost = false → g.trapMask.getLsbD 0 = false → g.trapVec ≠ 0#64 → g.frames.length < 2 →
    t = { s with groups := t.groups } ∧ OthersKept s t g.gid ∧
      ∃ g', t.group? g.gid = some g' ∧ HandlerEntered g g' k x (s.launchImage g)

/-- A response of the host for the sub-group at position `k` of a resident group (R448). -/
def Answered (s t : State) (gid k code : Nat) : Prop :=
  t = { s with groups := t.groups, sched := t.sched } ∧ OthersKept s t gid ∧
    ∀ g x r, s.group? gid = some g → g.parkedSubs[k]? = some x → x.fetch = some r → r.sent = true →
      (code = 0 → ∃ g', t.group? gid = some g' ∧ GoesOn g g' k x) ∧
        (code ≠ 0 → t.group? gid = some { g with parkedSubs := g.parkedSubs.modify k fun x =>
          { x with fetch := none, cause := causeOf 0x04 0x1000 } })

/-! ### Rings of commands (R43) -/

/-- A step that consumes the command at the head of a queue when it has the operation code `op`: with nothing to consume
nothing happens, a command in error stops the queue with HEAD at it, and a good one has the effect `f`. -/
def Consumes (s t : State) (q op : Nat) (f : State → BitVec 128 → Prop) : Prop :=
  (s.headCommand q = none → t = s) ∧
    ∀ c s₁, s.headCommand q = some c → s.devReadable (65536 * (s.iq q).page + 16 * (s.iq q).headN) 16 = (s₁, true) →
      (cmdOp c ≠ op → 1 ≤ cmdOp c → cmdOp c ≤ 5 → t = s₁) ∧
        ((cmdOp c = op ∨ cmdOp c = 0 ∨ 5 < cmdOp c) → cmdBad q c = true →
          t = s₁.setIq q { s₁.iq q with ctrl := (s₁.iq q).ctrl ||| 2#64 }) ∧
        (cmdOp c = op → cmdBad q c = false → f s₁ c)

/-- An invalidation: every TLB entry and walk-cache entry that is named is gone and no other, HEAD has advanced, and the records
of the guests' descriptors become what `d` says (R35, R42). -/
structure Invalidates (s t : State) (q : Nat) (p : TlbEntry → Bool) (w : WalkEntry → Bool) (d : DescUse → DescUse) : Prop where
  elsewhere : t = { s with cores := t.cores, quads := t.quads, xlate := t.xlate }
  cores : t.cores = s.cores.map fun c => (c.1, { c.2 with itlb := c.2.itlb.filter (fun e => !p e), dtlb := c.2.dtlb.filter (fun e => !p e) })
  quads : t.quads = s.quads.map fun x => (x.1, { x.2 with l2tlb := x.2.l2tlb.filter fun e => !p e })
  walks : t.xlate.walkCaches = s.xlate.walkCaches.map fun x => (x.1, x.2.filter fun e => !w e)
  descs : t.xlate.descs = s.xlate.descs.map d
  kept : t.xlate.syncs = s.xlate.syncs ∧ t.xlate.iqs = (s.setIq q (t.iq q)).xlate.iqs
  head : t.iq q = { s.iq q with head := BitVec.ofNat 64 (((s.iq q).headN + 1) % 4096) }

/-- Kind of access of a code of R510. -/
def kindOf (n : Nat) : AccKind :=
  if n = 0 then .load else if n = 1 then .store else if n = 2 then .atomic else if n = 3 then .fetch else if n = 4 then .fill else .writeBack

/-! ### The Stile (R219 to R221, R250) -/

/-- The engine of a die has begun an admission: its request has left the queue, its pages are PENDING, and the verdict stands. -/
structure Begun (s t : State) (d : Nat) (a : Admission) : Prop where
  engine : (t.die d).stile = some a ∧ (t.die d).stileQ = (s.die d).stileQ.drop 1
  pending : ∀ p ∈ a.pages, pendingBit (t.seal p) = true

/-- A rejection under a rule, found before the pages are marked. -/
def rejected (r : BitVec 512) (rule : Nat) : Admission := rejection r [] { rule := rule }

/-- An idle engine takes the request at the head of its queue (R220, R221). -/
structure Taken (s t : State) (d : Nat) (r : BitVec 512) (far : FarLines) : Prop where
  untrusted : s.trusts r = false → Begun s t d (rejected r 14)
  unreadable : ∀ s₁, s.trusts r = true → s.span (rqGuest r) (rqBtab r) 64 = (s₁, .fails) → Begun s₁ t d (rejected r 14)
  judged : ∀ s₁ s₂ s₃ s₄ s₅ head tab code, s.trusts r = true → s.span (rqGuest r) (rqBtab r) 64 = (s₁, .value head) →
    s₁.linesReady (head.lines 64) = (s₂, true) → head.came far 64 = true →
    let h := BitVec.ofNat 512 (head.read s₂.mem far 0 64)
    let n := 64 + 16 * bhNBlock h + bhPoolLen h
    s₂.span (rqGuest r) (rqBtab r) n = (s₃, .value tab) →
    s₃.span (rqGuest r) (rqCode r) (max 1 (bhCodeLen h)) = (s₄, .value code) →
    s₄.linesReady (tab.lines n ++ if code.nodes.all (fun m => m == none) then code.allLines else []) = (s₅, true) →
    tab.came far n = true →
    let v := Stile.judge h (tab.read s₅.mem far) (fun o => BitVec.ofNat 32 (code.read s₅.mem far o 4)) (rqCode r) (rqPriv r)
      (s₅.featVec (rqGuest r))
    (∀ rule, s₅.stage1 r h (Stile.rawEntries h (tab.read s₅.mem far)) code = some rule → Begun s₅ t d (rejected r rule)) ∧
      (s₅.stage1 r h (Stile.rawEntries h (tab.read s₅.mem far)) code = none →
        (∀ f, v = .error f → Begun s₅ t d (rejection r code.pages f)) ∧
          ∀ g seen, v = .ok (g, seen) → Begun s₅ t d (s₅.passed r code (s₅.digest far code tab n) g seen))

/-- THE STEPS OF TRAP DELIVERY: what holds after each, for a step from `s`. -/
def trapEffect (s : State) (i : Instr) : Option (State → Prop) :=
  match i with
  | .trapDelivery gid => some fun t => (s.group? gid = none → t = s) ∧ ∀ g, s.group? gid = some g →
      ((g.frozen = true ∨ g.resident = false ∨ g.nextSub = none) → t = s) ∧
        ∀ k x, g.frozen = false → g.resident = true → g.nextSub = some k → g.parkedSubs[k]? = some x →
          (s.subAwaits gid x = true → t = s) ∧ (s.subAwaits gid x = false → Delivered s t g k x)
  | .prgResponse gid k code => some fun t => Answered s t gid k code
  | .priTimeout gid k => some fun t => Answered s t gid k 2
  | .debuggerResume gid => some fun t => t = { s with groups := t.groups } ∧ OthersKept s t gid ∧ ∀ g, s.group? gid = some g →
      ∃ g', t.group? gid = some g' ∧ g' = { g with lanes := g'.lanes } ∧
        LanesTo g g' fun _ l l' => l' = if l.status = .waiting .debugger then l.goOn else l
  | _ => none

/-- THE STEPS OF THE STILE AND OF THE TRUSTED FIRMWARE: what holds after each, for a step from `s`. -/
def stileEffect (s : State) (i : Instr) : Option (State → Prop) :=
  match i with
  | .admissionRequest ⟨r, far⟩ => some fun t =>
      let goes : State → Nat → Prop := fun u d =>
        (¬ ((u.die d).stile = none ∧ (u.die d).stileQ.head? = some r) → t = u) ∧
          ((u.die d).stile = none → (u.die d).stileQ.head? = some r → Taken u t d r far)
      (∀ d, s.queuedAt r = some d → goes s d) ∧
        ∀ s₁ d, s.queuedAt r = none → s.stileDie (rqGuest r) (rqCode r) = (s₁, .value d) →
          goes (s₁.updDie d fun x => { x with stileQ := x.stileQ ++ [r] }) d
  | .admissionResult die => some fun t => ((s.die die).stile = none → t = s) ∧ ∀ a, (s.die die).stile = some a →
      let u := if a.pass then s.sealKernelPages a else s.clearPending a.pages
      let line := rqResult a.request / 128
      ((isHbmLine line || isHostLine line) = false →
        t = (u.log (.droppedWrite line)).updDie die fun x => { x with stile := none }) ∧
        ∀ u₁, (isHbmLine line || isHostLine line) = true → u.devWrite (64 * (rqResult a.request / 64)) 64 a.result = (u₁, true) →
          t = (u₁.updDie die fun x => { x with stile := none }) ∧
            (a.pass = true → alookup t.trusted.kernels (rqKernel a.request % 65536) 0 = a.entry)
  | .sealClear ppn => some fun t =>
      if sealedBit (s.seal ppn) = true ∧ (∀ l ∈ s.sched.launches, l.kernel ≠ sealKernel (s.seal ppn)) then
        t = { s with cores := s.cores.map fun c => (c.1, { c.2 with icache := c.2.icache.filter fun l => l / 512 != ppn }),
                     trusted := { s.trusted with seals := aset s.trusted.seals ppn 0 } }
      else t = s
  | .capabilityRevoke idx entry => some fun t =>
      let gen : BitVec 32 := fld (s.cap idx) 192 32
      if ∃ l ∈ s.sched.launches, idx ∈ l.caps then t = { s with outbox := s.outbox ++ [.busy idx] }
      else if idx < 1048576 ∧ ∀ e ∈ s.trusted.caps, e.1 ≠ idx → capApart e.2 entry = true then
        t = { s with trusted := { s.trusted with caps := t.trusted.caps } } ∧
          t.trusted.caps = aset s.trusted.caps idx (t.cap idx) ∧
          (fld (t.cap idx) 192 32 : BitVec 32) = (if capValid entry then gen + 1 else gen) ∧
          (fld (t.cap idx) 0 192 : BitVec 192) = fld entry 0 192 ∧ (fld (t.cap idx) 224 32 : BitVec 32) = fld entry 224 32
      else t = s
  | _ => none

/-- THE STEPS OF THE INVALIDATION QUEUES AND OF THE WALKERS: what holds after each, for a step from `s`. -/
def translationEffect (s : State) (i : Instr) : Option (State → Prop) :=
  match i with
  | .iqTailWrite q v => some fun t =>
      if ringAdvance (s.iq q) v ≤ ringFree (s.iq q) then t = s.setIq q { s.iq q with tail := BitVec.ofNat 64 (fldN v 0 12) }
      else t = s.log (.queueOverrun q)
  | .iqErrClear q => some fun t => t = s.setIq q { s.iq q with ctrl := (s.iq q).ctrl &&& ~~~(2#64) }
  | .invS1Va q => some fun t => Consumes s t q 1 fun u c =>
      Invalidates u t q (fun e => e.guest == targetGuest q c && windowMeets e.window ((cmdAddr c).toNat / 65536) (cmdCount c)) (fun _ => false) fun d => d
  | .invS1All q => some fun t => Consumes s t q 2 fun u c =>
      Invalidates u t q (fun e => e.guest == targetGuest q c) (fun w => w.guest == targetGuest q c && !w.stage2)
        fun d => if d.guest = targetGuest q c then { d with s1 := q :: d.s1 } else d
  | .invS2Ipa q => some fun t => Consumes s t q 3 fun u c =>
      let lo := (cmdAddr c).toNat / 65536
      Invalidates u t q (fun e => e.guest == targetGuest q c && e.ipas.any fun p => decide (lo ≤ p) && decide (p < lo + cmdCount c))
        (fun w => w.guest == targetGuest q c && w.stage2) fun d => d
  | .invS2All q => some fun t => Consumes s t q 4 fun u c =>
      Invalidates u t q (fun e => e.guest == targetGuest q c) (fun w => w.guest == targetGuest q c)
        fun d => if d.guest = targetGuest q c then { d with s2 := q :: d.s2 } else d
  | .sync q => some fun t => Consumes s t q 5 fun u c =>
      (∀ u₁, u.syncTarget q (cmdAddr c).toNat = (u₁, .bad) → t = u₁.setIq q { u₁.iq q with ctrl := (u₁.iq q).ctrl ||| 2#64 }) ∧
        (∀ u₁, u.syncTarget q (cmdAddr c).toNat = (u₁, .wait) → t = u₁) ∧
        ∀ u₁ pa, u.syncTarget q (cmdAddr c).toNat = (u₁, .at' pa) →
          t = { u₁ with xlate := { u₁.xlate with syncs := u₁.xlate.syncs ++ [(q, u₁.nextId, cmdAddr c, cmdData c)] } }
  | .syncComplete q => some fun t =>
      ((s.xlate.syncs.find? fun y => y.1 == q) = none → t = s) ∧
        ∀ y, (s.xlate.syncs.find? fun y => y.1 == q) = some y →
          (s.accessesDone q y.2.1 = false → t = s) ∧
            (∀ s₁, s.accessesDone q y.2.1 = true → s.syncTarget q y.2.2.1.toNat = (s₁, .bad) →
              t = { s₁ with xlate := t.xlate } ∧ t.xlate.syncs = s₁.xlate.syncs.filter (fun z => z.1 != q) ∧
                t.iq q = { s₁.iq q with ctrl := (s₁.iq q).ctrl ||| 2#64 }) ∧
              ∀ s₁ s₂ pa, s.accessesDone q y.2.1 = true → s.syncTarget q y.2.2.1.toNat = (s₁, .at' pa) →
                s₁.devWrite pa 4 y.2.2.2 = (s₂, true) →
                t = { s₂ with xlate := t.xlate } ∧ t.xlate.syncs = s₂.xlate.syncs.filter (fun z => z.1 != q) ∧
                  t.iq q = { s₂.iq q with head := BitVec.ofNat 64 (((s₂.iq q).headN + 1) % 4096) } ∧
                  t.xlate.descs = (s₂.xlate.descs.map fun d =>
                    { d with s1done := d.s1done || d.s1.contains q, s2done := d.s2done || d.s2.contains q }).filter
                      fun d => !(d.s1done && d.s2done)
  | .walkComplete guest core va kind => some fun t =>
      (∀ s₁ e, s.walkMiss (some core) (quadOf core) guest va (kindOf kind) = (s₁, .error e) → t = if e.waits then s₁ else s) ∧
        ∀ s₁ tr, s.walkMiss (some core) (quadOf core) guest va (kindOf kind) = (s₁, .ok tr) → t = s₁ ∧
          ∃ e ∈ (t.core core).tlb (kindOf kind), e.maps guest (pageOf va) = true ∧
            e.base = (tr.ppn + 2 ^ 32 - pageOf va % 32) % 2 ^ 32 ∧ e.coh = tr.coh ∧ e.ret = tr.ret ∧ e.remote = tr.remote
  | _ => none

end Sys2Proof.Claims
end

