-- ==== Sys2Proof/Safety/Homes.lean ====
section
/-! DEFINITION. What the steps of memory do: results that return, requests at their homes, drains, stash fills and recalls,
flasks, tickets, locks and engines, in the terms of the claims (R57 to R83, R126, R144 to R152, R324 to R348). -/

namespace Sys2Proof.Claims

open Sys2Proof.Machine

/-- A line of HBM that nothing else is using: the slice holds no tag of it and has room for one, no request waits for it, and
it has not been forwarded. -/
structure QuietLine (s : State) (line : Nat) : Prop where
  hbm : isHbmLine line = true
  tag : s.tag? line = none
  room : (s.setTags line).length < 16
  inbox : ∀ e ∈ s.home.inbox, e.1 ≠ line
  kept : s.forwardOf line = none

/-- A load has performed: each part has the bytes of the line (R57, R134). -/
def LoadPerformed (s t : State) (r : Req) : Prop :=
  t.mem = s.mem ∧ ∃ q ∈ t.reqs, q.id = r.id ∧ q.done = true ∧
    q.parts = r.parts.map fun p => { p with value := p.slice (readLine s.mem r.line) }

/-- A store that has waited enters the coalescing buffer, unless it needs an entry and all are in use: memory keeps its
contents, and the entry of its line has its bytes and its operation (R59, R60). -/
structure StoreEntered (s t : State) (r : Req) : Prop where
  full : (s.core r.core).entry? r.line = none → 64 ≤ (s.core r.core).cbuf.length → t = s
  enters : ((s.core r.core).entry? r.line ≠ none ∨ (s.core r.core).cbuf.length < 64) →
    t.mem = s.mem ∧ t.req? r.id = none ∧ ∃ e ∈ (t.core r.core).cbuf, e.line = r.line ∧ (r.gid, r.op) ∈ e.ops ∧
      e.mask &&& partsMask r.parts = partsMask r.parts ∧
      ∀ f, (s.core r.core).entry? r.line = some f → e.data = storeParts f.data r.parts

/-- An atomic has performed: the lanes in ascending order, each on the value that the one before it wrote; each part that
returns a value has the value from before its own (R324, R333, R334). -/
structure AtomPerformed (s t : State) (r : Req) (a : AtomOp) : Prop where
  writes : t.mem = writeMasked s.mem r.line (partsMask r.parts) (atomParts a r.size (readLine s.mem r.line) r.parts).1 128
  returns : r.returns = true → ∃ q ∈ t.reqs, q.id = r.id ∧ q.done = true ∧
    q.parts = (atomParts a r.size (readLine s.mem r.line) r.parts).2
  gone : r.returns = false → t.req? r.id = none

/-- A request of this module reaches the home of a line that nothing else is using; a store's way leads through the coalescing
buffer. -/
structure PerformsAtHome (s t : State) (r : Req) : Prop where
  load : r.kind = .load → s.poisoned r.line = false → (s.core r.core).entry? r.line = none → LoadPerformed s t r
  store : r.kind = .store → StoreEntered s t r
  atom : ∀ a, r.kind = .atom a → s.poisoned r.line = false → s.refusesWrite r.line = false → AtomPerformed s t r a

/-- The requests of the instruction that a request belongs to, as the sequencer sees them (R144). -/
def sameSeq (r q : Req) : Bool := q.gid == r.gid && q.op == r.op && q.seq == r.seq

/-- The lanes of that instruction, ascending. -/
def seqLanes (s : State) (r : Req) : List Nat :=
  (List.range 64).filter fun i => s.reqs.any fun q => sameSeq r q && q.parts.any fun p => p.lane == i

/-- One run of tickets from `base`, one for each lane in ascending order (R144). -/
def TicketsGiven (s t : State) (r : Req) (base : Nat) : Prop :=
  ∀ q ∈ s.reqs, sameSeq r q = true → ∃ q' ∈ t.reqs, q' = { q with granted := true, parts := q.parts.map fun p =>
    { p with ticket := base + ((seqLanes s r).takeWhile fun j => j != p.lane).length } }

/-- A flask operation on a flask that the token names, by the table of R79: the status, and the flask's entry after it. -/
structure FlaskRule (s u : State) (f : Nat) (g : Group) (x : Team) (tok : BitVec 30) (st : Nat) : Prop where
  stale : s.flStale? tok g.guest g.tenant = true → st = 4 ∧ u = s
  seal' : f = 1 → s.flStale? tok g.guest g.tenant = false →
    if flState (s.flaskEntry (tokId tok)) = 1 then st = 0 ∧ u.flaskEntry (tokId tok) = flWith (s.flaskEntry (tokId tok)) 2 0
    else st = 3 ∧ u = s
  reopen : f = 2 → s.flStale? tok g.guest g.tenant = false →
    let e := s.flaskEntry (tokId tok)
    (flState e = 1 → st = 0 ∧ u = s) ∧
      (flState e = 2 → st = 0 ∧ u.flaskEntry (tokId tok) = if flCount e = 0 then flWith e 1 0 else flWith e 3 (flCount e)) ∧
      (flState e ≠ 1 → flState e ≠ 2 → st = 3 ∧ u = s)
  retire : f = 3 → s.flStale? tok g.guest g.tenant = false →
    let e := s.flaskEntry (tokId tok)
    (flState e = 1 → st = 0 ∧ u.flaskEntry (tokId tok) = flWith e 0 0) ∧
      (flState e = 2 → st = 0 ∧ u.flaskEntry (tokId tok) = if flCount e = 0 then flWith e 0 0 else flWith e 4 (flCount e)) ∧
      (flState e ≠ 1 → flState e ≠ 2 → st = 3 ∧ u = s)
  acquire : f = 4 → s.flStale? tok g.guest g.tenant = false →
    let e := s.flaskEntry (tokId tok)
    (flState e = 1 → st = 1 ∧ u = s) ∧ (flState e ≠ 1 → flState e ≠ 2 → st = 2 ∧ u = s) ∧
      (flState e = 2 → (1048575 ≤ flCount e ∨ 8 ≤ x.flaskRefs.length) → st = 6 ∧ u = s) ∧
      (flState e = 2 → flCount e < 1048575 → x.flaskRefs.length < 8 →
        st = 0 ∧ u.flaskEntry (tokId tok) = flWith e 2 (flCount e + 1))
  free : f = 5 → s.flStale? tok g.guest g.tenant = false →
    if tok ∈ x.flaskRefs then st = 0 ∧ u.flaskEntry (tokId tok) = flDrop (s.flaskEntry (tokId tok)) else st = 4 ∧ u = s

/-- One line of a copy: every source line is read before a destination line is written (R342). -/
structure CopyLine (s t : State) (o : EngOp) (ans : List LineAnswer) : Prop where
  reads : o.cause = 0 → o.captured.length < o.lines →
    (∀ s₁ d rest, s.engSource o o.captured.length ans = (s₁, .data d, rest) →
      t = s₁.updEng o.id fun o => { o with captured := o.captured ++ [d] }) ∧
    (∀ s₁ rest, s.engSource o o.captured.length ans = (s₁, .wait, rest) → t = s₁) ∧
    ∀ s₁ c rest, s.engSource o o.captured.length ans = (s₁, .stop c, rest) →
      t = s₁.updEng o.id fun o => { o with cause := c, errLine := o.captured.length }
  writes : o.lines ≤ o.captured.length → o.next < o.captured.length → o.cause = 0 → ∀ d, o.captured[o.next]? = some d →
    (∀ s₁ x rest, s.engDest o o.next (BitVec.allOnes 128) d ans = (s₁, .data x, rest) →
      t = s₁.updEng o.id fun o => { o with next := o.next + 1 }) ∧
    (∀ s₁ rest, s.engDest o o.next (BitVec.allOnes 128) d ans = (s₁, .wait, rest) → t = s₁) ∧
    ∀ s₁ c rest, s.engDest o o.next (BitVec.allOnes 128) d ans = (s₁, .stop c, rest) →
      t = s₁.updEng o.id fun o => { o with cause := c, errLine := o.next }

/-- THE STEPS OF REQUESTS, DRAINS AND STASH LINES: what holds after each, for a step from `s`. -/
def memoryEffect (s : State) (i : Instr) : Option (State → Prop) :=
  match i with
  | .resultReturn gid op => some fun t =>
      let rs := s.opReqs gid op
      ((rs = [] ∨ (∃ r ∈ rs, r.kind.isHamper = true ∨ r.done = false) ∨ (∃ o ∈ s.tileOps, o.op = op)) → t = s) ∧
        ∀ g r rest, s.group? gid = some g → rs = r :: rest → (∀ q ∈ rs, q.done = true ∧ (q.kind = .load ∨ ∃ a, q.kind = .atom a)) →
          (∀ i, trapOf rs i = 0#64) → g.frames = [] → (∀ o ∈ s.tileOps, o.op ≠ op) →
          t.mem = s.mem ∧ OthersKept s t gid ∧
            t.reqs.map (fun q => q.id) = (s.reqs.filter fun q => !(q.gid == gid && q.op == op && q.kind.byOp)).map (fun q => q.id) ∧
            ∃ g', t.group? gid = some g' ∧ g' = { g with lanes := g'.lanes, q0 := finishOp op g.q0, q1 := finishOp op g.q1 } ∧
              LanesTo g g' fun i l l' => l' = if (rs.foldl (fun m q => m ||| q.lanes) 0#64).getLsbD i = true then
                (match dstOf rs i with
                  | some d => l.returned op d r.size r.fmt (valueOf rs i)
                  | none => l) else l
  | .homeRequest (.own id _ _) => some fun t => (s.req? id = none → t = s) ∧ ∀ r, s.req? id = some r →
      ((r.sent = true ∨ r.done = true ∨ s.orderedReady r = false ∨ s.ticketFirst r = false ∨ s.runElsewhere r = true) → t = s) ∧
        (r.sent = false → r.done = false → s.orderedReady r = true → s.ticketFirst r = true → s.runElsewhere r = false →
          QuietLine s r.line → r.attr.mig = false → PerformsAtHome s t r)
  | .homeRequest (.foreign node line kind mig mask d) => some fun t =>
      ((fldN s.regs.domCtrl 1 1 = 0 ∨ s.inCarve (128 * line) = true) → t = { s with outbox := s.outbox ++ [.nack line node none] }) ∧
        (fldN s.regs.domCtrl 1 1 = 1 → s.inCarve (128 * line) = false → mig = false → QuietLine s line →
          (kind = 0 → t.mem = s.mem ∧ t.outbox = s.outbox ++ [.remoteAnswer node line (s.poisoned line) (readLine s.mem line)]) ∧
          (kind ≠ 0 → s.refusesWrite line = true →
            t.mem = s.mem ∧ t.outbox = s.outbox ++ [.nack line node (some (readLine s.mem line))]) ∧
          (s.refusesWrite line = false → kind = 1 →
            t.mem = writeMasked s.mem line mask d 128 ∧ t.outbox = s.outbox ++ [.remoteAnswer node line false 0]) ∧
          (s.refusesWrite line = false → 2 ≤ kind →
            t.outbox = s.outbox ++ [.remoteAnswer node line (s.poisoned line) (readLine s.mem line)] ∧
              (s.poisoned line = true → t.mem = s.mem) ∧ ∀ a, a / 128 ≠ line → memGet t.mem a = memGet s.mem a))
  | .homeRequest (.ecc key corrected) => some fun t =>
      (corrected = true → t = s.log (.correctedError key)) ∧
        (corrected = false → keyNode key = none → t.poisoned key = true ∧ t.mem = s.mem ∧ LogEntry.poisoned key ∈ t.errlog)
  | .coalesceTimeout core line => some fun t => t = s.setCore core { s.core core with
      cbuf := (s.core core).cbuf.map fun (e : CbEntry) => { e with due := e.due || decide (e.line = line) } }
  | .storeDrain core line => some fun t => ((s.core core).entry? line = none → t = s) ∧
      ∀ e, (s.core core).entry? line = some e → (s.core core).entryOf? e.id = some e → QuietLine s line → e.mig = false →
        (∀ c ∈ s.home.tags, Waiter.drain core e.id ∉ c.queue) → (∀ c ∈ s.home.caches, Waiter.drain core e.id ∉ c.queue) →
        (∀ w ∈ s.home.inbox, w.2 ≠ .drain core e.id) →
        (s.refusesWrite line = false → t.mem = writeMasked s.mem line e.mask e.data 128) ∧
          (s.refusesWrite line = true → t.mem = s.mem ∧ LogEntry.refusedWrite line ∈ t.errlog) ∧
          ∀ f ∈ (t.core core).cbuf, f.id ≠ e.id
  | .stashFillReturn core line => some fun t =>
      let found := s.reqs.find? fun r => r.core == core && r.op == line && r.done && (r.kind == .stash true || r.kind == .stash false)
      (found = none → t = s) ∧
        ∀ r, found = some r → r.poison = false → (∀ p ∈ r.parts, p.trap = 0#64) →
          t = ((((s.dropReq r.id).updCore core fun c => { c with outst := c.outst.erase r.id }).setSline core line
            { s.sline core line with state := .clean, data := wordsLine r.words })).settleTouches
  | .stashReadRecall core line => some fun t =>
      (s.tag? line = none → t = s) ∧ ∀ h, s.tag? line = some h →
        ((h.owner ≠ some core ∨ h.recallSent ≠ 1) → t = s) ∧
          ∀ k l, h.owner = some core → h.recallSent = 1 → (s.core core).ownedLine? line = some (k, l) →
            (l.state = .filling → t = s) ∧
              (l.state = .clean → t = ((s.setSline core k { l with state := .clean }).updTag line fun x =>
                { x with recallSent := 0, owner := some core }).pumpAll line) ∧
              ∀ s₁ a, l.state = .dirty → s.writeBack core line l.ret (s.lineCls core k) l.data = (s₁, a) →
                t = if a = none then s₁ else ((s₁.setSline core k { l with state := .clean }).updTag line fun x =>
                  { x with recallSent := 0, owner := some core }).pumpAll line
  | .stashWriteRecall core line => some fun t =>
      (s.tag? line = none → t = s) ∧ ∀ h, s.tag? line = some h →
        ((h.owner ≠ some core ∨ h.recallSent ≠ 2) → t = s) ∧
          ∀ k l, h.owner = some core → h.recallSent = 2 → (s.core core).ownedLine? line = some (k, l) →
            (l.state = .filling → t = s) ∧
              (l.state = .clean → t = ((s.setSline core k { l with state := .invalid }).updTag line fun x =>
                { x with recallSent := 0, owner := none }).pumpAll line) ∧
              ∀ s₁ a, l.state = .dirty → s.writeBack core line l.ret (s.lineCls core k) l.data = (s₁, a) →
                t = if a = none then s₁ else ((s₁.setSline core k { l with state := .invalid }).updTag line fun x =>
                  { x with recallSent := 0, owner := none }).pumpAll line
  | .outstandingEntryFree core req => some fun t =>
      (∀ r, s.req? req = some r → r.done = false → t = s) ∧
        ((∀ r, s.req? req = some r → r.done = true) →
          t = s.setCore core { s.core core with outst := (s.core core).outst.erase req })
  | .stickyQuotaWrite c v => some fun t =>
      if c < 16 then t = { s with regs := { s.regs with stickyQuota := aset s.regs.stickyQuota c (v.setWidth 32 &&& 0x7F#32) } } else t = s
  | .otgerNack (.request req value) => some fun t => (s.req? req = none → t = s) ∧ ∀ r, s.req? req = some r →
      ((r.attr.remote = false ∨ r.done = true) → t = s) ∧
        (r.attr.remote = true → r.done = false →
          (value = none → t.errlog = s.errlog ++ [.refusedWrite r.line] ∧ t.mem = s.mem ∧
            ((r.kind = .lockAcq ∨ r.kind = .lockRel ∨ r.kind = .hint) → t.req? req = none) ∧
            ((r.kind = .load ∨ ∃ a, r.kind = .atom a) → r.parts ≠ [] → ∃ q ∈ t.reqs, q.id = req ∧ q.done = true ∧
              q.parts = r.parts.map fun p => { p with trap := causeOf 0x02 (if r.kind = .load then 32 else 34) })) ∧
            ∀ d a, value = some d → r.kind = .atom a →
              t.errlog = s.errlog ++ [.refusedWrite r.line] ∧ t.mem = s.mem ∧
                (r.returns = true → ∃ q ∈ t.reqs, q.id = req ∧ q.done = true ∧ q.parts = r.parts.map fun p => { p with value := p.slice d }) ∧
                (r.returns = false → t.req? req = none))
  | .otgerNack (.write key) => some fun t => t = s.log (.refusedWrite key)
  | .otgerNack (.cache key) => some fun t => (s.cacheTag? key = none → t = s) ∧
      (s.cacheTag? key ≠ none → t.cacheTag? key = none ∧ t.tag? key = none)
  | _ => none

/-- THE STEPS OF FLASKS, TICKETS, LOCKS, ENGINES AND THE ROLL-CALL: what holds after each, for a step from `s`. -/
def syncEffect (s : State) (i : Instr) : Option (State → Prop) :=
  match i with
  | .flaskRequestAtHome req => some fun t => (s.req? req = none → t = s) ∧
      ∀ r f w sd tok lines slice ws g x, s.req? req = some r → r.kind = .flask f → r.words = w :: sd :: tok :: lines :: slice :: ws →
        s.group? r.gid = some g → s.team? g.launch g.team = some x →
        ((r.done = true ∨ s.orderedReady r = false ∨ (f = 5 ∧ s.teamReading g.launch g.team r.id = true)) → t = s) ∧
          (r.done = false → s.orderedReady r = true → (f = 5 → s.teamReading g.launch g.team r.id = false) →
            (∀ u st new, f = 0 → s.flaskCreate g slice.toNat (tok.toNat % 2 ^ 55) lines.toNat = (u, st, new) →
              t = u.updReq req fun q => { q with done := true, words := [flaskAnswer st new, sd] }) ∧
            ∀ u st, 0 < f → f < 6 → s.flaskOp f g x (tok.setWidth 30) = (u, st) → FlaskRule s u f g x (tok.setWidth 30) st ∧
              (f ≠ 4 → t = u.updReq req fun q => { q with done := true, words := [flaskAnswer st (tok.setWidth 30), sd] }) ∧
              (f = 4 → t.flasks = u.flasks ∧ t.teams = u.teams ∧ t.mem = u.mem ∧ ∃ q ∈ t.reqs, q.id = req ∧ q.done = true ∧
                q.words = [flaskAnswer st (tok.setWidth 30), sd]))
  | .ticketGrant req grant => some fun t =>
      (s.req? req = none → t = s) ∧ ∀ r, s.req? req = some r → ((r.seq = none ∨ r.granted = true ∨ s.asksTicket r = false) → t = s) ∧
        ∀ fab, r.seq = some fab → r.granted = false → s.asksTicket r = true →
          ((fab = true ∧ (grant = false ∨ s.plat.dead.contains (fldN s.regs.domCtrl 20 12) = true)) →
            t = { s with reqs := s.reqs.map fun q => if sameSeq r q then
              { q with granted := true, done := q.kind != .fence, seq := none,
                       parts := q.parts.map fun p => { p with trap := causeOf 0x08 0 } } else q }) ∧
          (¬ (fab = true ∧ (grant = false ∨ s.plat.dead.contains (fldN s.regs.domCtrl 20 12) = true)) →
            t = { s with reqs := t.reqs, seqr := t.seqr } ∧
              (fab = false → TicketsGiven s t r s.seqr.devNext ∧ t.seqr.devNext = s.seqr.devNext + (seqLanes s r).length ∧
                t.seqr.fabNext = s.seqr.fabNext) ∧
              (fab = true → TicketsGiven s t r s.seqr.fabNext ∧ t.seqr.fabNext = s.seqr.fabNext + (seqLanes s r).length ∧
                t.seqr.devNext = s.seqr.devNext))
  | .lockRetry gid => some fun t =>
      let found := s.reqs.find? fun r => r.gid == gid && r.kind == .lockAcq && r.done
      ((found = none ∨ s.group? gid = none) → t = s) ∧ ∀ r g p ps, found = some r → s.group? gid = some g → r.parts = p :: ps →
        let room := s.hasEntry g.core || (s.core g.core).outst.contains r.id
        ((g.frozen = true ∨ room = false) → t = s) ∧
          (g.frozen = false → room = true →
            (∀ s₁ sp xs, s.checkAccess g p.va 8 .atomic = (s₁, .ok (sp :: xs)) →
              t = (s₁.updReq r.id fun _ => { s₁.lockAt g (lockMods r.words) sp r with done := false, sent := false }).takeEntry g.core r.id) ∧
              (∀ s₁, s.checkAccess g p.va 8 .atomic = (s₁, .error .wait) → t = s₁) ∧
              ∀ s₁ c, s.checkAccess g p.va 8 .atomic = (s₁, .error (.trap c)) →
                t = (s₁.dropReq r.id).trapWaiting gid (g.waitersOn .lock) c p.va)
  | .engineStart op => some fun t => (s.engOp? op = none → t = s) ∧ ∀ o, s.engOp? op = some o →
      if o.started = false ∧ o.paused = false ∧ s.released o.core o.after = true ∧ s.engineBlocked o = false then
        t = s.updEng op fun o => { o with started := true } else t = s
  | .engineLinePerform op ans peers => some fun t => (s.engOp? op = none → t = s) ∧ ∀ o, s.engOp? op = some o →
      ((o.started = false ∨ o.paused = true) → t = s) ∧
        (o.started = true → o.paused = false →
          (o.kind = .copy → CopyLine s t o ans) ∧ (o.kind = .gather → t = s.gatherLine o ans) ∧
            (o.kind = .coll → t = s.collLine o ans peers) ∧ (o.kind = .drainMem → t = s.drainRow o ans) ∧
            (o.kind = .drainColl → t = if o.captured.length = o.lines then s.collLine o ans peers else s) ∧
            (o.kind = .stream → t = s))
  | .engineComplete op => some fun t => (s.engOp? op = none → t = s) ∧ ∀ o, s.engOp? op = some o →
      ((o.started = false ∨ o.finished = false) → t = s) ∧
        (o.started = true → o.finished = true → t.mem = s.mem ∧ (∀ p ∈ t.engOps, p.id ≠ o.id) ∧
          (∀ e ∈ (t.quad o.quad).ranges, rangeValid e.2 = true → rangeOpid e.2 ≠ o.opid) ∧
          ∀ g, s.group? o.gid = some g → ∃ g', t.group? o.gid = some g' ∧ g'.q2 = g.q2.erase o.id ∧
            g'.engErr = if o.cause = 0 then g.engErr else (g.engineError o.opid o.errLine o.cause).engErr)
  | .rollcallComplete launch => some fun t => (s.launch? launch = none → t = s) ∧ ∀ l, s.launch? launch = some l →
      ((l.super = false ∨ s.rollcallReady l = false) → t = s) ∧
        (l.super = true → s.rollcallReady l = true → t.mem = s.mem ∧
          ∀ (k : Nat) (g : Group), s.groups[k]? = some g → g.launch = launch → ∃ g' : Group, t.groups[k]? = some g' ∧
            g' = { g with lanes := g'.lanes } ∧
            LanesTo g g' fun _ l l' => l' = if l.status = .waiting (.barrier 6) then l.goOn else l)
  | _ => none

end Sys2Proof.Claims
end

