-- ==== Sys2Proof/Safety/Chains.lean ====
section
/-! DEFINITION. What the steps of the chain protocol, of the host as a sharer, of migration and of dead agents do, in the terms
of the claims (R92 to R124). -/

namespace Sys2Proof.Claims

open Sys2Proof.Machine

/-! ### Messages -/

/-- One more message has been sent, and nothing else has changed. -/
def Sends (s t : State) (m : Msg) : Prop := t = { s with outbox := s.outbox ++ [m] }

/-- A chain message about a line: the home's node and the sender's incarnation go with it (R97). -/
def chainMsg (s : State) (key : Nat) (src dst : ChainPtr) (m : ChainMsg) : Msg :=
  .chain (keyLine key) ((keyNode key).getD s.thisNode) (s.incOf s.thisNode) src dst m

/-- A message of the home of a line, of a caching entry to the home, and of one entry to another. -/
def homeMsg (s : State) (line : Nat) (dst : ChainPtr) (m : ChainMsg) : Msg := chainMsg s line (homePtrOf s.thisNode line) dst m
def toHomeMsg (s : State) (key : Nat) (m : ChainMsg) : Msg := chainMsg s key (s.selfPtr key) (homePtr key) m
def entryMsg (s : State) (key : Nat) (dst : ChainPtr) (m : ChainMsg) : Msg := chainMsg s key (s.selfPtr key) dst m

/-- A line of HBM that its slice holds and that nothing is using: a home without an exclusive holder, an owning stash, a host
copy, or half-done atomics. -/
structure IdleLine (s : State) (line : Nat) (h : HomeTag) : Prop where
  hbm : isHbmLine line = true
  tag : s.tag? line = some h
  idle : h.busy = false ∧ h.queue = []
  free : h.owner = none ∧ h.hostHi = 0#2 ∧ h.hostLo = 0#2 ∧ h.hst ≠ 2#3 ∧ h.run = none
  inbox : ∀ e ∈ s.home.inbox, e.1 ≠ line
  kept : s.forwardOf line = none

/-- A READ has been answered at the home: the requester is the head of the chain, and has the old head and the line (R98). -/
def ReadAnswered (s t : State) (line : Nat) (src old : ChainPtr) : Prop :=
  t.mem = s.mem ∧ t.outbox = s.outbox ++ [homeMsg s line src (.data old false (s.poisoned line) (readLine s.mem line))] ∧
    ∃ h, t.tag? line = some h ∧ h.hst = 1#3 ∧ h.head = src

/-- The home of a line accepts chain messages of an entry: the sender is current, the module is in a domain, the line is not
in the carve-out, and no declaration names the sender (R27, R97, R118, R120). -/
structure Accepts (s : State) (line : Nat) (src : ChainPtr) (inc : BitVec 8) : Prop where
  current : s.incOk (ptrNode src) inc = true
  formed : fldN s.regs.domCtrl 1 1 = 1
  outside : s.inCarve (128 * line) = false
  named : s.declaring (ptrNode src) = false

/-- An OWN has been granted at the home of a line without a chain: the requester is the exclusive holder, and has the line. -/
def OwnGranted (s t : State) (line : Nat) (src : ChainPtr) : Prop :=
  t.mem = s.mem ∧ t.outbox = s.outbox ++ [homeMsg s line src (.grant nullPtr false (s.poisoned line) (readLine s.mem line))] ∧
    ∃ h, t.tag? line = some h ∧ h.hst = 2#3 ∧ h.head = src

/-- An OWN has been granted at the home of a line with sharers: the requester walks the chain from the old head, or from
its own entry when that is the head. -/
def WalkGranted (s t : State) (line : Nat) (src head : ChainPtr) : Prop :=
  t.mem = s.mem ∧ t.outbox = s.outbox ++ [homeMsg s line src (.grant (if ptrNode head = ptrNode src then nullPtr else head)
    (ptrNode head == ptrNode src) (s.poisoned line) (readLine s.mem line))] ∧
    ∃ h, t.tag? line = some h ∧ h.hst = 3#3 ∧ h.head = src ∧ h.homeWalk = false

/-- A READ or an OWN reaches the home (R27, R98, R99, R118, R120). -/
structure ChainRequest (s t : State) (line : Nat) (src : ChainPtr) (inc : BitVec 8) (mig own : Bool) : Prop where
  old : s.incOk (ptrNode src) inc = false → t = s
  refused : s.incOk (ptrNode src) inc = true → (fldN s.regs.domCtrl 1 1 = 0 ∨ s.inCarve (128 * line) = true) →
    Sends s t (.nack line (ptrNode src) none)
  held : s.incOk (ptrNode src) inc = true → fldN s.regs.domCtrl 1 1 = 1 → s.inCarve (128 * line) = false → ptrKind src ≠ 0 →
    s.declaring (ptrNode src) = true →
    t = { s with plat := { s.plat with held := s.plat.held ++ [⟨line, src, inc, if own then .own mig else .read mig⟩] } }
  quiet : Accepts s line src inc → mig = false → QuietLine s line →
    (own = false → ReadAnswered s t line src nullPtr) ∧ (own = true → OwnGranted s t line src)
  idle : Accepts s line src inc → mig = false → ∀ h, IdleLine s line h →
    (own = false → ReadAnswered s t line src (if h.hst = 1#3 then h.head else nullPtr)) ∧
      (own = true → h.hst ≠ 1#3 → OwnGranted s t line src) ∧ (own = true → h.hst = 1#3 → WalkGranted s t line src h.head)

/-- A message to the home of a line: of a sender that is not current, or for a line that the slice does not hold, it does
nothing. -/
def AtHome (s t : State) (line : Nat) (src : ChainPtr) (inc : BitVec 8) (f : HomeTag → Prop) : Prop :=
  ((s.incOk (ptrNode src) inc = false ∨ s.tag? line = none) → t = s) ∧
    ∀ h, s.incOk (ptrNode src) inc = true → s.tag? line = some h → f h

/-- The bytes of an exclusive holder reach the home, unless its page refuses them (R52, R98). -/
def holderBytes (s : State) (line : Nat) (dirty : Bool) (d : LineData) : List Host.Cell :=
  if dirty = true ∧ s.refuses line = false then writeMasked s.mem line (BitVec.allOnes 128) d 128 else s.mem

/-- The exclusive holder has given the line up, or keeps a copy of it: its bytes and their poison are at the home (R98, R121);
with nothing waiting for the line, the home is free again. -/
def HolderAnswered (s t : State) (line : Nat) (dirty poison : Bool) (d : LineData) (hst : BitVec 3) : Prop :=
  t.mem = holderBytes s line dirty d ∧ t.outbox = s.outbox ∧
    t.poisoned line = (if dirty then (if s.refuses line then s.poisoned line else poison) else s.poisoned line || poison) ∧
    ∃ h', t.tag? line = some h' ∧ h'.hst = hst ∧ (hst = 0#3 → h'.head = nullPtr)

def HolderAnswers (s t : State) (line : Nat) (h : HomeTag) (from' : Bool) (dirty poison : Bool) (d : LineData) (hst : BitVec 3) : Prop :=
  (from' = false → t = s) ∧ (from' = true → h.queue = [] → HolderAnswered s t line dirty poison d hst)

/-- A message to a caching entry: of a sender that is not current it does nothing, and without an entry it is STALE (R97). -/
def AtCache (s t : State) (key node : Nat) (src : ChainPtr) (inc : BitVec 8) (f : CacheTag → Prop) : Prop :=
  (s.incOk node inc = false → t = s) ∧
    (s.incOk node inc = true → (s.cacheTag? key = none ∨ ∃ c, s.cacheTag? key = some c ∧ c.cst = 0#4) →
      Sends s t (entryMsg s key src .stale)) ∧
    ∀ c, s.incOk node inc = true → s.cacheTag? key = some c → c.cst ≠ 0#4 → f c

/-- A chain request that names an agent whose declaration is in progress is held; one of a sender that is not current does
nothing (R118, R120). -/
def Holds (s t : State) (src : ChainPtr) (inc : BitVec 8) (h : Held) : Prop :=
  (s.incOk (ptrNode src) inc = true → t = { s with plat := { s.plat with held := s.plat.held ++ [h] } }) ∧
    (s.incOk (ptrNode src) inc = false → t = s)

/-- The head of a chain has left it: the next entry is the head, and without one the line has no sharer (R98). -/
def unheaded (s : State) (line : Nat) (fwd : ChainPtr) : State :=
  s.updTag line fun x => { x with head := fwd, hst := if fwd = nullPtr then 0#3 else 1#3 }

/-- The entry of a line that nothing waits for has taken another value. -/
def EntryIs (t : State) (key : Nat) (c : CacheTag) : Prop := t.cacheTag? key = some c

/-! ### The host (R105 to R109) -/

/-- A host request of a half of an HBM line that nothing is using. -/
structure HostServed (s t : State) (line half : Nat) (mem : List Host.Cell) (m : Msg) (st : BitVec 2) : Prop where
  mem : t.mem = mem
  message : t.outbox = s.outbox ++ [m]
  half' : ∃ h, t.tag? line = some h ∧ h.hostHalf half = st

/-- The host gives a half up: a write-back writes its bytes, and an eviction notice writes nothing (R105). -/
def HostGives (s t : State) (line half : Nat) (mem : List Host.Cell) : Prop :=
  ((isHbmLine line = false ∨ 2 ≤ half) → t = s) ∧
    (isHbmLine line = true → half < 2 → s.forwardOf line = none → (∀ h, s.tag? line = some h → h.hst ≠ 3#3 ∧ h.hst ≠ 4#3) →
      t.mem = mem ∧ ∀ h, t.tag? line = some h → h.hostHalf half = 0#2)

/-- The host has answered a snoop of a half, with its bytes when it had modified them; a half that a crossing write-back has
made I stays so (R106). -/
def SnoopAnswered (s t : State) (line half : Nat) (dirty : Bool) (x : BitVec 512) (st : BitVec 2) : Prop :=
  (s.tag? line = none → t = s) ∧ ∀ h, s.tag? line = some h →
    ((h.pending &&& (1#2 <<< half) = 0#2 ∨ isHbmLine line = false) → t = s) ∧
      (h.pending &&& (1#2 <<< half) ≠ 0#2 → isHbmLine line = true → h.queue = [] →
        t.mem = (if h.hostHalf half ≠ 0#2 ∧ dirty = true ∧ s.refusesWrite line = false
          then writeMasked s.mem line (halfMask half) (fullHalf x half) 128 else s.mem) ∧
          ∃ h', t.tag? line = some h' ∧ h'.hostHalf half = (if h.hostHalf half = 0#2 then 0#2 else st) ∧
            h'.pending = h.pending &&& ~~~(1#2 <<< half))

/-- Data or ownership of a half of a host-window line has come (R108). -/
def HalfCame (s t : State) (line half : Nat) (own : Bool) (x : BitVec 512) : Prop :=
  (s.tag? line = none → t = s) ∧ ∀ h, s.tag? line = some h →
    ((h.pending &&& (1#2 <<< half) = 0#2 ∨ isHostLine line = false) → t = s) ∧
      (h.pending &&& (1#2 <<< half) ≠ 0#2 → isHostLine line = true → h.queue = [] →
        t.mem = (if h.bridgeHalf half = 0#2 then writeMasked s.mem line (halfMask half) (fullHalf x half) 128 else s.mem) ∧
          ∃ h', t.tag? line = some h' ∧ h'.pending = h.pending &&& ~~~(1#2 <<< half) ∧
            h'.bridgeHalf half = if own then 2#2 else if h.bridgeHalf half = 0#2 then 1#2 else h.bridgeHalf half)

/-- The host snoops a half of a host-window line that nothing is using (R109): modified bytes are supplied, and the half takes
the state that the snoop asks for. -/
def Snooped (s t : State) (line half : Nat) (after : BitVec 2 → BitVec 2) : Prop :=
  ((isHostLine line = false ∨ 2 ≤ half ∨ s.tag? line = none) → t = s) ∧
    ∀ h, isHostLine line = true → half < 2 → s.tag? line = some h → h.busy = false → h.queue = [] → h.owner = none → h.hst = 0#3 →
      h.run = none → (∀ e ∈ s.home.inbox, e.1 ≠ line) → s.forwardOf line = none →
      t.mem = s.mem ∧
        t.outbox = s.outbox ++ (if h.bridgeHalf half = 0#2 then []
          else [.snoopAnswer line half (if h.bridgeHalf half = 3#2 then some (halfData (readLine s.mem line) half) else none)]) ∧
        ∃ h', t.tag? line = some h' ∧ h'.bridgeHalf half = after (h.bridgeHalf half)

/-- The bytes of a half that the host reads: none of a poisoned line. -/
def hostBytes (s : State) (line half : Nat) : BitVec 512 := if s.poisoned line then 0#512 else halfData (readLine s.mem line) half

/-- THE STEPS OF THE HOST AS A SHARER: what holds after each, for a step from `s`. -/
def hostEffect (s : State) (i : Instr) : Option (State → Prop) :=
  match i with
  | .hostReadShared line ⟨half, mig⟩ => some fun t => ((isHbmLine line = false ∨ 2 ≤ half) → t = s) ∧
      (mig = false → half < 2 → QuietLine s line → s.inCarve (128 * line) = false →
        HostServed s t line half s.mem (.hostData line half (s.poisoned line) (hostBytes s line half)) 1#2)
  | .hostReadExclusive line ⟨half, mig⟩ => some fun t => ((isHbmLine line = false ∨ 2 ≤ half) → t = s) ∧
      (mig = false → half < 2 → QuietLine s line → s.inCarve (128 * line) = false →
        HostServed s t line half s.mem (.hostData line half (s.poisoned line) (hostBytes s line half)) 2#2)
  | .hostWriteHalf line ⟨half, mig⟩ x => some fun t => ((isHbmLine line = false ∨ 2 ≤ half) → t = s) ∧
      (mig = false → half < 2 → QuietLine s line →
        (s.refusesWrite line = false →
          HostServed s t line half (writeMasked s.mem line (halfMask half) (fullHalf x half) 128) (.hostDone line half false) 2#2) ∧
        (s.refusesWrite line = true → t.mem = s.mem ∧ t.outbox = s.outbox ++ [.hostDone line half true] ∧
          LogEntry.hostAccess line .uncorrectable ∈ t.errlog))
  | .hostReadNoCopy line ⟨half, mig⟩ => some fun t => ((isHbmLine line = false ∨ 2 ≤ half) → t = s) ∧
      (mig = false → half < 2 → QuietLine s line → s.inCarve (128 * line) = false →
        HostServed s t line half s.mem (.hostData line half (s.poisoned line) (hostBytes s line half)) 0#2)
  | .hostWriteback line ⟨half, mig⟩ x => some fun t => HostGives (s.countHost line (mig && isHbmLine line && decide (half < 2))) t line half
      (if s.refusesWrite line then s.mem else writeMasked s.mem line (halfMask half) (fullHalf x half) 128)
  | .hostEvictNotice line half => some fun t => HostGives s t line half s.mem
  | .bisnpinvResponse line half dirty x => some fun t => SnoopAnswered s t line half dirty x 0#2
  | .bisnpdataResponse line half dirty x => some fun t => SnoopAnswered s t line half dirty x 1#2
  | .rdsharedData line half x => some fun t => HalfCame s t line half false x
  | .rdownGrant line half x => some fun t => HalfCame s t line half true x
  | .snpdata line half => some fun t => Snooped s t line half fun b => if b = 0#2 then 0#2 else 1#2
  | .snpinv line half => some fun t => Snooped s t line half fun _ => 0#2
  | .snpcur line half => some fun t => Snooped s t line half fun b => b
  | .bar2Read off => some fun t =>
      (isHbmLine (off / 128) = false → Sends s t (.bar2Data (off / 64) (BitVec.allOnes 512))) ∧
        (QuietLine s (off / 128) → t.mem = s.mem ∧ t.outbox = s.outbox ++ [.bar2Data (2 * (off / 128) + off / 64 % 2)
          (if s.inCarve (128 * (off / 128)) then BitVec.allOnes 512 else halfData (readLine s.mem (off / 128)) (off / 64 % 2))])
  | .bar2Write off x => some fun t => (isHbmLine (off / 128) = false → t = s) ∧
      (QuietLine s (off / 128) → t.outbox = s.outbox ∧
        t.mem = if s.refusesWrite (off / 128) then s.mem
          else writeMasked s.mem (off / 128) (halfMask (off / 64 % 2)) (fullHalf x (off / 64 % 2)) 128)
  | .hostSnoopTimeout line => some fun t =>
      ((s.tag? line = none ∨ ∃ h, s.tag? line = some h ∧ h.pending = 0) → t = s) ∧
        ∀ h, s.tag? line = some h → h.pending ≠ 0 → 4096 ∈ t.plat.dead ∧
          (4096 ∉ s.plat.dead → t.outbox.getLast? = some .hostDeath ∧ LogEntry.hostDead ∈ t.errlog)
  | _ => none

/-- THE STEPS OF THE CHAIN PROTOCOL: what holds after each, for a step from `s`. -/
def chainEffect (s : State) (i : Instr) : Option (State → Prop) :=
  match i with
  | .read line src inc mig => some fun t => ChainRequest s t line src inc mig false
  | .own line src inc mig => some fun t => ChainRequest s t line src inc mig true
  | .unhead line src inc fwd => some fun t =>
      (s.holds src (.unhead fwd) = true → Holds s t src inc ⟨line, src, inc, .unhead fwd⟩) ∧
        (s.holds src (.unhead fwd) = false → AtHome s t line src inc fun h =>
          (h.hst ≠ 1#3 → t = s) ∧ (h.hst = 1#3 → h.head ≠ src → Sends s t (homeMsg s line src .notHead)) ∧
            (h.hst = 1#3 → h.head = src → Sends (unheaded s line fwd) t (homeMsg s line src .ack)))
  | .done line src inc => some fun t => AtHome s t line src inc fun h =>
      if h.hst = 3#3 ∧ h.homeWalk = false ∧ ptrNode h.head = ptrNode src then
        t = (s.updTag line fun x => { x with hst := 2#3, head := src }).pumpAll line
      else t = s
  | .wb line src inc dirty ⟨poison, d⟩ => some fun t => AtHome s t line src inc fun h =>
      HolderAnswers s t line h ((h.hst == 2#3 || h.hst == 4#3) && ptrNode h.head == ptrNode src) dirty poison d 0#3
  | .purgeAnswerCopy line src inc next => some fun t => AtHome s t line src inc fun h =>
      t = if h.hst = 3#3 then s.updTag line fun x => { x with walkPos := next } else s
  | .fetchAnswer line src inc dirty ⟨poison, d⟩ => some fun t => AtHome s t line src inc fun h =>
      HolderAnswers s t line h (h.hst == 4#3 && ptrNode h.head == ptrNode src) dirty poison d 1#3
  | .recallAnswer line src inc dirty ⟨poison, d⟩ => some fun t => AtHome s t line src inc fun h =>
      HolderAnswers s t line h (h.hst == 4#3 && ptrNode h.head == ptrNode src) dirty poison d 0#3
  | .fetch line inc => some fun t => AtCache s t line (homeNode line) (homePtr line) inc fun c =>
      ((c.cst ≠ 7#4 ∧ c.cst ≠ 8#4) → t = s) ∧
        ((c.cst = 7#4 ∨ c.cst = 8#4) → s.running line = true → t = s.updCache line fun x => { x with asked := some false }) ∧
        ((c.cst = 7#4 ∨ c.cst = 8#4) → s.running line = false → c.queue = [] → t.mem = s.mem ∧
          t.outbox = s.outbox ++ [toHomeMsg s line (.fetchAnswer (c.cst == 8#4) c.poison c.data)] ∧
          EntryIs t line { c with cst := 3#4, fwd := nullPtr, back := homePtr line })
  | .recall line inc => some fun t => AtCache s t line (homeNode line) (homePtr line) inc fun c =>
      ((c.cst ≠ 7#4 ∧ c.cst ≠ 8#4) → t = s) ∧
        ((c.cst = 7#4 ∨ c.cst = 8#4) → s.running line = true → t = s.updCache line fun x => { x with asked := some true }) ∧
        ((c.cst = 7#4 ∨ c.cst = 8#4) → s.running line = false → c.queue = [] → t.mem = s.mem ∧
          t.outbox = s.outbox ++ [toHomeMsg s line (.recallAnswer (c.cst == 8#4) c.poison c.data)] ∧ t.cacheTag? line = none)
  | .data line inc old uncached poison d => some fun t => AtCache s t line (homeNode line) (homePtr line) inc fun c =>
      (c.cst ≠ 1#4 → t = s) ∧
        (c.cst = 1#4 → c.queue = [] →
          (uncached = true → t.cacheTag? line = none) ∧
            (uncached = false → old = nullPtr → t.outbox = s.outbox ∧
              EntryIs t line { c with data := d, poison := poison, backoff := 0, fwd := nullPtr, back := homePtr line, cst := 3#4 }) ∧
            (uncached = false → old ≠ nullPtr →
              EntryIs t line { c with data := d, poison := poison, backoff := 0, fwd := old, back := homePtr line, cst := 2#4 } ∧
                t.outbox = s.outbox ++ [entryMsg s line old (.setback (s.selfPtr line))]))
  | .grant line inc old walk poison d => some fun t => AtCache s t line (homeNode line) (homePtr line) inc fun c =>
      let next := if walk then c.fwd else old
      (c.cst ≠ 5#4 → t = s) ∧
        (c.cst = 5#4 → c.queue = [] →
          (next = nullPtr → t.outbox = s.outbox ++ (if walk then [toHomeMsg s line .done] else []) ∧
            EntryIs t line { c with data := d, poison := poison, backoff := 0, fwd := nullPtr, back := homePtr line, cst := 7#4 }) ∧
          (next ≠ nullPtr → t.outbox = s.outbox ++ [entryMsg s line next .purge] ∧
            EntryIs t line { c with data := d, poison := poison, backoff := 0, fwd := nullPtr, back := homePtr line, cst := 6#4, target := next }))
  | .purge line inc walker => some fun t => AtCache s t line (ptrNode walker) walker inc fun c =>
      let answers := s.outbox ++ [entryMsg s line walker (.purgeAnswer c.fwd), toHomeMsg s line (.purgeCopy c.fwd)]
      ((c.cst = 3#4 ∨ c.cst = 4#4) → c.queue = [] → t.outbox = answers ∧ t.cacheTag? line = none) ∧
        (c.cst = 2#4 → t = s.updCache line fun x => { x with heldPurge := some walker }) ∧
        (c.cst = 5#4 → t.outbox = answers ∧ EntryIs t line { c with fwd := nullPtr }) ∧
        ((c.cst ≠ 2#4 ∧ c.cst ≠ 3#4 ∧ c.cst ≠ 4#4 ∧ c.cst ≠ 5#4) → t = s)
  | .purgeAnswer line src inc next => some fun t =>
      (s.incOk (ptrNode src) inc = false → t = s) ∧
        (s.incOk (ptrNode src) inc = true →
          (∀ h, keyNode line = none → s.tag? line = some h → h.hst = 3#3 → h.homeWalk = true →
            (next ≠ nullPtr → Sends (s.updTag line fun x => { x with walkPos := next }) t (homeMsg s line next .purge)) ∧
              (next = nullPtr → t = (s.updTag line fun x => { x with hst := 0#3, head := nullPtr, homeWalk := false, walkPos := nullPtr }).pumpAll line)) ∧
          (∀ node o, keyNode line = some node → (s.plat.orphans.find? fun o => o.key == line) = some o → next ≠ nullPtr →
            Sends { s with plat := { s.plat with orphans := s.plat.orphans.map fun x => if x.key = o.key then { x with target := next } else x } } t
              (entryMsg s line next .purge)) ∧
          ∀ node c, keyNode line = some node → (s.plat.orphans.find? fun o => o.key == line) = none → s.cacheTag? line = some c →
            (c.cst ≠ 6#4 → t = s) ∧
              (c.cst = 6#4 → next ≠ nullPtr → Sends (s.updCache line fun x => { x with target := next }) t (entryMsg s line next .purge)) ∧
              (c.cst = 6#4 → next = nullPtr → c.queue = [] → t.outbox = s.outbox ++ [toHomeMsg s line .done] ∧ EntryIs t line { c with cst := 7#4 }))
  | .setfwd line src inc p => some fun t =>
      (s.holds src (.setfwd p) = true → Holds s t src inc ⟨line, src, inc, .setfwd p⟩) ∧
        (s.holds src (.setfwd p) = false → AtCache s t line (ptrNode src) src inc fun c =>
          ((c.cst = 3#4 ∨ c.cst = 5#4 ∨ c.cst = 2#4) →
            Sends (s.updCache line fun x => { x with fwd := p }) t (entryMsg s line src .ack)) ∧
          (c.cst = 4#4 → s.thisNode ≤ ptrNode src → Sends s t (entryMsg s line src .retry)) ∧
          (c.cst = 4#4 → ptrNode src < s.thisNode → p ≠ nullPtr →
            t.outbox = s.outbox ++ [entryMsg s line src .ack, entryMsg s line p (.setback c.back)] ∧ EntryIs t line { c with fwd := p }) ∧
          ((c.cst ≠ 2#4 ∧ c.cst ≠ 3#4 ∧ c.cst ≠ 4#4 ∧ c.cst ≠ 5#4) → Sends s t (entryMsg s line src .stale)))
  | .setback line src inc p => some fun t =>
      (s.holds src (.setback p) = true → Holds s t src inc ⟨line, src, inc, .setback p⟩) ∧
        (s.holds src (.setback p) = false → AtCache s t line (ptrNode src) src inc fun c =>
          ((c.cst = 3#4 ∨ c.cst = 5#4) → c.queue = [] →
            t.outbox = s.outbox ++ [entryMsg s line src .ack] ∧ EntryIs t line { c with back := p }) ∧
          (c.cst = 4#4 → p ≠ src → s.thisNode ≤ ptrNode src → Sends s t (entryMsg s line src .retry)) ∧
          (c.cst = 4#4 → (p = src ∨ ptrNode src < s.thisNode) → EntryIs t line { c with back := p } ∧
            t.outbox = s.outbox ++ [entryMsg s line src .ack,
              if ptrKind p = 2 then toHomeMsg s line (.unhead c.fwd) else entryMsg s line p (.setfwd c.fwd)]) ∧
          ((c.cst ≠ 3#4 ∧ c.cst ≠ 4#4 ∧ c.cst ≠ 5#4) → Sends s t (entryMsg s line src .stale)))
  | .ack line src inc => some fun t => ((s.incOk (ptrNode src) inc = false ∨ s.cacheTag? line = none) → t = s) ∧
      ∀ c, s.incOk (ptrNode src) inc = true → s.cacheTag? line = some c →
        (c.cst = 4#4 → 1 < c.acks → EntryIs t line { c with acks := c.acks - 1 }) ∧
          (c.cst = 4#4 → c.acks ≤ 1 → c.queue = [] → t.cacheTag? line = none) ∧
          (c.cst = 2#4 → c.queue = [] → c.heldPurge = none → EntryIs t line { c with cst := 3#4 }) ∧
          ((c.cst ≠ 2#4 ∧ c.cst ≠ 4#4) → t = s)
  | .notHead line inc => some fun t => AtCache s t line (homeNode line) (homePtr line) inc fun _ => t = s
  | .stale line src inc => some fun t => (s.incOk (ptrNode src) inc = false → t = s) ∧
      ∀ c, s.incOk (ptrNode src) inc = true → s.cacheTag? line = some c → (∀ o ∈ s.plat.orphans, o.key ≠ line) →
        (c.cst = 4#4 → 1 < c.acks → EntryIs t line { c with acks := c.acks - 1 }) ∧
          (c.cst = 2#4 → c.queue = [] → c.heldPurge = none → EntryIs t line { c with cst := 3#4, fwd := nullPtr }) ∧
          (∀ node, c.cst = 6#4 → keyNode line = some node → (∀ o ∈ s.plat.orphans, o.key ≠ line) → c.queue = [] →
            t.outbox = s.outbox ++ [toHomeMsg s line .done] ∧ EntryIs t line { c with cst := 7#4 })
  | .retry line src inc => some fun t => AtCache s t line (ptrNode src) src inc fun c =>
      t = if c.cst = 1#4 ∨ c.cst = 5#4 then
        s.updCache line fun x => { x with backoff := if x.backoff = 0 then 64 else min 8192 (2 * x.backoff) } else s
  | .retryResend line => some fun t => (s.cacheTag? line = none → t = s) ∧ ∀ c, s.cacheTag? line = some c →
      (c.backoff = 0 → t = s) ∧ (c.backoff ≠ 0 → c.cst = 1#4 → Sends s t (toHomeMsg s line (.read (s.headMig c)))) ∧
        (c.backoff ≠ 0 → c.cst = 5#4 → Sends s t (toHomeMsg s line (.own (s.headMig c)))) ∧ ((c.cst ≠ 1#4 ∧ c.cst ≠ 5#4) → t = s)
  | _ => none

/-! ### Migration (R110 to R116) -/

/-- A migration request has been answered with a completion word and consumed (R113). -/
def MigAnswered (s t : State) (die : Nat) (r : BitVec 256) (owner : Nat) (host : Bool) (status : Nat) : Prop :=
  ∀ s₁, s.migAnswer (mqCaddr r) (migWord (mqTag r) owner host status) = (s₁, true) → t = s₁.migNext die

/-- A report of an agent has reached the manager: the first is followed by a probe, and the second by a declaration (R117). -/
def Reported (s t : State) (node by' : Nat) : Prop :=
  (s.isManager = false → t = s) ∧
    (s.isManager = true → (∀ r ∈ s.plat.reports, r.1 ≠ node) →
      Sends { s with plat := { s.plat with reports := s.plat.reports ++ [(node, by')] } } t (.probe node)) ∧
    (s.isManager = true → (∃ r ∈ s.plat.reports, r.1 = node) → t = s.declare node)

/-- A declaration: none of an agent that is dead, and otherwise DEAD goes out with the next incarnation (R118). -/
def Declared (s t : State) (agent : Nat) : Prop :=
  (agent ∈ s.plat.dead → t = s) ∧
    (agent ∉ s.plat.dead → Sends { s with plat := { s.plat with declarations := s.plat.declarations ++
      [{ agent := agent, inc := (s.incOf agent + 1).toNat, acks := [], scans := [], phase := 1 }] } } t
      (.dead agent (s.incOf agent + 1).toNat))

/-- THE STEPS OF MIGRATION AND OF DEAD AGENTS: what holds after each, for a step from `s`. -/
def agentEffect (s : State) (i : Instr) : Option (State → Prop) :=
  match i with
  | .migRqtailWrite die v => some fun t =>
      if ringAdvance (s.die die).requests v ≤ ringFree (s.die die).requests then
        t = s.setDie die { s.die die with rqTail := BitVec.ofNat 64 (fldN v 0 12) }
      else t = s.log (.queueOverrun (8192 + die))
  | .migrate die => some fun t => (s.migRequest die = none → t = s) ∧ ∀ r, s.migRequest die = some r →
      let good := mqOp r = 1 ∧ mqBad r = false ∧ (if mqDhost r then isHost (mqDppn r) else isHbm (mqDppn r)) = true
      (mqOp r = 2 → t = s) ∧ (mqOp r ≠ 2 → ¬ good → MigAnswered s t die r s.thisNode false 3) ∧
        (good →
          (∀ e, s.moving (mqSppn r) = some e → MigAnswered s t die r (if e.dhost then s.thisNode else e.dnode) e.dhost 1) ∧
            (s.moving (mqSppn r) = none → 64 ≤ (s.die die).migs.length → MigAnswered s t die r s.thisNode false 2) ∧
            (s.moving (mqSppn r) = none → (s.die die).migs.length < 64 →
              t = s.setDie die { s.die die with
                migs := (s.die die).migs ++ [{ spage := mqSppn r, dpage := mqDppn r, dnode := mqDnode r, dhost := mqDhost r, tag := mqTag r,
                                               caddr := mqCaddr r, copied := 0, reported := false }],
                rqHead := BitVec.ofNat 64 (((s.die die).requests.headN + 1) % 4096) }))
  | .release die => some fun t => (s.migRequest die = none → t = s) ∧ ∀ r, s.migRequest die = some r →
      (mqOp r ≠ 2 → t = s) ∧ (mqOp r = 2 → s.moving (mqSppn r) = none → MigAnswered s t die r s.thisNode false 3) ∧
        ∀ e, mqOp r = 2 → s.moving (mqSppn r) = some e →
          ((mqBad r = true ∨ e.reported = false) → MigAnswered s t die r s.thisNode false 3) ∧
            (mqBad r = false → e.reported = true → ∀ s₁,
              s.migAnswer (mqCaddr r) (migWord (mqTag r) (if e.dhost then s.thisNode else e.dnode) e.dhost 4) = (s₁, true) →
              t.mem = s₁.mem ∧ (∀ f ∈ t.home.forwarded, f.1 / 512 ≠ e.spage) ∧
                ∀ f ∈ s₁.home.forwarded, f.1 / 512 = e.spage → f.1 ∈ t.home.poison)
  | .migrationLineCopy die entry ok => some fun t => ((s.die die).migs[entry]? = none → t = s) ∧
      ∀ e, (s.die die).migs[entry]? = some e →
        let src := 512 * e.spage + e.copied
        let dst := 512 * e.dpage + e.copied
        (e.reported = true → t = s) ∧
          (e.reported = false → e.copied < 512 → e.dhost = false →
            (e.dnode = s.thisNode → src ≠ dst → s.tag? src = none → s.tag? dst = none → isHbmLine src = true → isHbmLine dst = true →
              s.refuses dst = false →
              t.mem = writeMasked s.mem dst (BitVec.allOnes 128) (readLine s.mem src) 128 ∧ (src, 0x1000, dst) ∈ t.home.forwarded ∧
                ∃ e' ∈ (t.die die).migs, e' = { e with copied := e.copied + 1 }) ∧
            (e.dnode ≠ s.thisNode → e.dnode ∉ s.plat.dead → ok = true → s.tag? src = none → isHbmLine src = true →
              t.mem = s.mem ∧ t.outbox = s.outbox ++ [.moveLine e.dnode src dst (s.poisoned src) (readLine s.mem src)] ∧
                (src, e.dnode, dst) ∈ t.home.forwarded) ∧
            (e.dnode ≠ s.thisNode → (e.dnode ∈ s.plat.dead ∨ ok = false) → s.tag? src = none → isHbmLine src = true → ∀ s₁,
              s.migAnswer e.caddr (migWord e.tag s.thisNode false 5) = (s₁, true) →
              t.mem = s₁.mem ∧ (∀ x ∈ (t.die die).migs, x.spage ≠ e.spage) ∧
                ∀ f ∈ s₁.home.forwarded, f.1 / 512 = e.spage → f.1 ∈ t.home.poison)) ∧
          (e.reported = false → 512 ≤ e.copied → ∀ s₁,
            s.migAnswer e.caddr (migWord e.tag (if e.dhost then s.thisNode else e.dnode) e.dhost 0) = (s₁, true) →
            t.mem = s₁.mem ∧ ∀ x ∈ (t.die die).migs, x.spage = e.spage → x.reported = true)
  | .migEpoch die => some fun t =>
      if fldN (s.die die).migCtrl 32 16 = 0 then t = s
      else t = s.setDie die { s.die die with counts := (s.die die).counts.map fun e => { e with count := e.count / 2 } }
  | .agentReport node by' => some fun t => Reported s t node by'
  | .chainAnswerTimeout _ node => some fun t =>
      (s.isManager = true → Reported s t node s.thisNode) ∧
        (s.isManager = false → s.formed = true → Sends s t (.report node s.thisNode)) ∧ (s.formed = false → t = s)
  | .managerProbeTimeout node => some fun t =>
      if s.isManager = true ∧ ∃ r ∈ s.plat.reports, r.1 = node then Declared s t node else t = s
  | .dead agent inc => some fun t =>
      ((4096 ≤ agent ∨ agent ∈ s.plat.dead) → t = s) ∧
        (agent = s.thisNode → agent < 4096 → agent ∉ s.plat.dead →
          alookup t.plat.incs agent 0#8 = BitVec.ofNat 8 inc ∧ LogEntry.nodeDead agent ∈ t.errlog ∧ t.mem = s.mem ∧
            ∀ c ∈ t.home.caches, c.cst ≠ 3#4 ∧ c.cst ≠ 7#4 ∧ c.cst ≠ 8#4) ∧
        (agent ≠ s.thisNode → agent < 4096 → agent ∉ s.plat.dead →
          agent ∈ t.plat.dead ∧ alookup t.plat.incs agent 0#8 = BitVec.ofNat 8 inc ∧ (∀ r ∈ t.plat.reports, r.1 ≠ agent) ∧
            LogEntry.nodeDead agent ∈ t.errlog ∧ Msg.deadAck agent ∈ t.outbox ∧
            ((∃ o ∈ t.plat.orphans, o.agent = agent) ∨ t.outbox.getLast? = some (.scanDone agent)))
  | .deadAcknowledgement agent by' => some fun t =>
      if s.isManager = true then
        t = { s with plat := { s.plat with declarations := s.plat.declarations.map fun d =>
          if d.agent = agent then { d with acks := if d.acks.contains by' then d.acks else by' :: d.acks } else d } }
      else t = s
  | .scanDone agent by' => some fun t => (s.isManager = false → t = s) ∧
      ∀ d, s.isManager = true → (s.plat.declarations.find? fun d => d.agent == agent) = some d →
        let u := s.updDeclaration agent fun d => { d with scans := if d.scans.contains by' then d.scans else by' :: d.scans }
        let all := ∀ n ∈ s.live, n = by' ∨ n ∈ d.scans
        (¬ all → t = u) ∧ (all → t = (u.send (.resume agent)).resumeAgent agent)
  | .resume agent => some fun t =>
      let u := { s with plat := { s.plat with held := [], declarations := s.plat.declarations.filter fun d => d.agent != agent } }
      t = s.plat.held.foldl State.answerHeld u ∧ (∀ d ∈ t.plat.declarations, d.agent ≠ agent) ∧ (s.plat.held = [] → t = u)
  | .hostDeathNotice node => some fun t => t = if s.isManager then s.log (.nodeDead (4097 + node)) else s
  | .agentReadmission agent => some fun t =>
      t = { s with plat := { s.plat with dead := s.plat.dead.filter fun n => n != agent,
                                         reports := s.plat.reports.filter fun r => r.1 != agent } }
  | _ => none

end Sys2Proof.Claims
end

