-- ==== Sys2Proof/Safety/Units.lean ====
section
/-! DEFINITION. What the steps of the tile store, of the matrix engines, of streams and of the Hamper do, in the terms of the
claims (R360 to R383, R392 to R409, R441). -/

namespace Sys2Proof.Claims

open Sys2Proof.Machine

/-! ### Tiles and the matrix engine -/

/-- The slots that a tile operation reads. -/
def opReads (o : TileOp) : List (Nat × Nat) :=
  (match o.src with
    | some x => x.at' :: x.sides
    | none => []) ++ (match o.dst with
    | some x => x.sides
    | none => [])

/-- A tile operation has ended: it is listed no more, its group's counter counts it no more, and the live slots that it writes
hold the bytes given; memory is as it was (R367). -/
structure TileEnded (s t : State) (o : TileOp) (bytes : Option (BitVec 16384)) : Prop where
  mem : t.mem = s.mem
  over' : ∀ p ∈ t.tileOps, p.op ≠ o.op
  counter : ∀ g, s.group? o.gid = some g → ∃ g', t.group? o.gid = some g' ∧ g'.q3 = g.q3.erase o.op
  bytes : ∀ d, bytes = some d → ∀ a ∈ o.writes, (s.slot a.1 a.2).state = .live → (t.slot a.1 a.2).data = d

/-- The elements of an accumulator tile after a pass: those of the rows that the entry covers have the sum of R370, and the
others are kept. -/
def PassResult (s t : State) (quad : Nat) (e : ResvEntry) (n : Nat) (b : OpTile) : Prop :=
  ∀ i j, i < 32 → j < 32 → (t.accTile quad n).elem i j =
    match e.rows.find? fun r => r.1 == i / 8 with
    | some r => s.passElem e r.2.2 b i j ((s.accTile quad n).elem i j)
    | none => (s.accTile quad n).elem i j

/-- An entry whose epilogue's clauses have been read, in the state `s`, has finished: it has left its table, and no memory has
changed. -/
structure EntryDone (s t : State) (quad : Nat) (e : ResvEntry) (code : List (Word × List Word)) : Prop where
  becomes : t = (s.performEntry quad e code).retireEntry quad e
  mem : t.mem = s.mem
  gone : ∀ x ∈ (t.quad quad).resv, x.id ≠ e.id
  pass : ∀ b bs, e.kind = .pass → e.b = b :: bs → PassResult s t quad e e.acc b
  zero : e.kind = .zero → ∀ i j, (t.accTile quad e.acc).elem i j = 0#32

/-- The entry that a quad dispatches next: the best of the eligible entries whose epilogue can be read (R441). -/
def nextEntry (s : State) (quad : Nat) : Option ResvEntry :=
  bestEntry ((s.quad quad).resv.filter fun e => s.eligible quad e && (s.entryCode quad e).2.isSome)

/-- Bytes of a row of the tile that an operation writes (R352). -/
def rowOf (s : State) (o : TileOp) : Nat :=
  match o.writes with
  | a :: _ => tileRowBytes (tagFmt (s.slot a.1 a.2).tag)
  | [] => 128

/-! ### Streams -/

/-- A stream stands where it can take its next step. -/
structure StreamReady (s : State) (quad : Nat) (st : Stream) (g : Group) (tm : Team) : Prop where
  stream : (s.quad quad).stream = some st
  group : s.group? st.gid = some g
  team : s.team? g.launch g.team = some tm
  goes : st.stopped = none ∧ st.iter < st.count ∧ g.frozen = false

/-- The stream of a quad has become another, and nothing else has changed. -/
def StreamIs (s t : State) (quad : Nat) (st : Stream) : Prop := t = s.setQuad quad { s.quad quad with stream := some st }

/-- One step of a stream (R375): the next command, a value of a ring, or the posting of a command. -/
structure StreamStep (s t : State) (quad : Nat) (st : Stream) (g : Group) (tm : Team) : Prop where
  past : st.body[st.cmd]? = none → StreamIs s t quad st.advance
  plain : ∀ w r, st.body[st.cmd]? = some w → fldN w 24 8 ≠ 0x1A → [fldN w 14 5, fldN w 9 5][st.took]? = some r → r / 4 % 2 = 0 →
    StreamIs s t quad { st with took := st.took + 1 }
  badRing : ∀ w r, st.body[st.cmd]? = some w → fldN w 24 8 ≠ 0x1A → [fldN w 14 5, fldN w 9 5][st.took]? = some r → r / 4 % 2 = 1 →
    s.streamRing tm ((st.rings[r % 4]?).getD 0) = none → ∃ h, (t.quad quad).stream = some { st with stopped := some (6, r % 4, h) }
  empty : ∀ w r core line, st.body[st.cmd]? = some w → fldN w 24 8 ≠ 0x1A → [fldN w 14 5, fldN w 9 5][st.took]? = some r → r / 4 % 2 = 1 →
    s.streamRing tm ((st.rings[r % 4]?).getD 0) = some (core, line) → ringCount (s.sline core line).data = 0 → t = s
  takes : ∀ w r core line, st.body[st.cmd]? = some w → fldN w 24 8 ≠ 0x1A → [fldN w 14 5, fldN w 9 5][st.took]? = some r → r / 4 % 2 = 1 →
    s.streamRing tm ((st.rings[r % 4]?).getD 0) = some (core, line) → ringCount (s.sline core line).data ≠ 0 →
    t = s.streamTake quad st tm (r % 4)
  zero : ∀ w u, st.body[st.cmd]? = some w → fldN w 24 8 = 0x1A → fldN w 1 8 < tm.accCount →
    s.postZero g tm st.op (fldN w 1 8) (w.getLsbD 0) = some u →
    (t.quad quad).stream = (u.quad quad).stream.map Stream.advance
  range : ∀ w, st.body[st.cmd]? = some w → fldN w 24 8 = 0x1A → tm.accCount ≤ fldN w 1 8 →
    ∃ h, (t.quad quad).stream = some { st with stopped := some (3, 0, h) }
  posts : ∀ w, st.body[st.cmd]? = some w → fldN w 24 8 ≠ 0x1A → 2 ≤ st.took → t = s.streamPost quad st g tm w

/-! ### The Hamper -/

/-- A request of the Hamper has its answer: done, with one value for every lane. -/
def HasAnswer (t : State) (r : Req) (v : Nat) : Prop :=
  ∃ q ∈ t.reqs, q.id = r.id ∧ q.done = true ∧ q.parts = r.parts.map fun p => { p with value := BitVec.ofNat 128 v }

/-- A put at its home slice: one whose key space is no longer its context's traps (R388), a bad range is refused, a matching record takes it in, and otherwise it waits as the newest record
of its set, or goes to its key space's ring (R392, R393, R401). -/
structure PutAtHome (s t : State) (r : Req) (ans : List LineAnswer) : Prop where
  denied : s.ksHeld r (s.putRec r).ks = false → t = s.answerTrap r 0x1B (noVA 0x1B)
  bad : s.ksHeld r (s.putRec r).ks = true → (s.putRec r).op = 0x19 → rangeHi (s.putRec r).payload ≤ rangeLo (s.putRec r).payload → t = s.answer r 4
  fold : ∀ w, s.ksHeld r (s.putRec r).ks = true → ¬ ((s.putRec r).op = 0x19 ∧ rangeHi (s.putRec r).payload ≤ rangeLo (s.putRec r).payload) →
    oldest ((s.quad r.slice).hrecs.filter fun w => w.matches (s.putRec r)) = some w →
    HasAnswer t r 1 ∧ t.mem = s.mem ∧
      (t.quad r.slice).hrecs = (s.quad r.slice).hrecs.map fun v => if v.stamp = w.stamp then w.fold (s.putRec r) else v
  new : s.ksHeld r (s.putRec r).ks = true → ¬ ((s.putRec r).op = 0x19 ∧ rangeHi (s.putRec r).payload ≤ rangeLo (s.putRec r).payload) →
    oldest ((s.quad r.slice).hrecs.filter fun w => w.matches (s.putRec r)) = none →
    ((s.quad r.slice).hrecs.filter fun w => w.set == (s.putRec r).set).length < 8 →
    HasAnswer t r 0 ∧ t.mem = s.mem ∧
      (t.quad r.slice).hrecs = (s.quad r.slice).hrecs ++ [{ s.putRec r with stamp := s.hamper.nextStamp }] ∧
      t.hamper.nextStamp = s.hamper.nextStamp + 1
  spills : s.ksHeld r (s.putRec r).ks = true → ¬ ((s.putRec r).op = 0x19 ∧ rangeHi (s.putRec r).payload ≤ rangeLo (s.putRec r).payload) →
    oldest ((s.quad r.slice).hrecs.filter fun w => w.matches (s.putRec r)) = none →
    8 ≤ ((s.quad r.slice).hrecs.filter fun w => w.set == (s.putRec r).set).length →
    (ksCap (s.ks (s.putRec r).ks) = 0 → t = s.answer r 3) ∧ (ksCap (s.ks (s.putRec r).ks) ≠ 0 → t = s.spill r (s.putRec r) ans)

/-- A key-space function at its home (R408). -/
structure KeySpaceAtHome (s t : State) (r : Req) (g : Group) (ans : List LineAnswer) : Prop where
  openBusy : r.word 0 = 0#64 → ksOpen (s.ks (r.word 1).toNat) = true → t = s.answer r 6
  openBad : r.word 0 = 0#64 → ksOpen (s.ks (r.word 1).toNat) = false → (fldN (r.word 2) 0 7 ≠ 0 ∨ 16777216 < (r.word 3).toNat) → t = s.answer r 4
  openFast : r.word 0 = 0#64 → ksOpen (s.ks (r.word 1).toNat) = false → fldN (r.word 2) 0 7 = 0 → r.word 3 = 0#64 →
    t = (s.setKs (r.word 1).toNat (mkKs (r.word 2) 0 0 g.kernel g.tenant true)).answer r 0
  openRing : ∀ s₁ x rest, r.word 0 = 0#64 → ksOpen (s.ks (r.word 1).toNat) = false → fldN (r.word 2) 0 7 = 0 →
    (r.word 3).toNat ≤ 16777216 → r.word 3 ≠ 0#64 → s.hWrite (hamperAgent r) (r.word 2) 16 0 ans = (s₁, .ok x, rest) →
    t = (s₁.setKs (r.word 1).toNat (mkKs (r.word 2) (r.word 3).toNat 0 g.kernel g.tenant true)).answer r 0
  denied : r.word 0 ≠ 0#64 → s.ksOk g (r.word 1).toNat = false → t = s.answerTrap r 0x1B (noVA 0x1B)
  query : r.word 0 = 1#64 → s.ksOk g (r.word 1).toNat = true → HasAnswer t r (ksLive (s.ks (r.word 1).toNat)).toNat ∧ t.hamper = s.hamper
  close : r.word 0 ≠ 0#64 → r.word 0 ≠ 1#64 → s.ksOk g (r.word 1).toNat = true →
    let e := s.ks (r.word 1).toNat
    t = if ksLive e = 0#32 then (s.setKs (r.word 1).toNat (mkKs (ksBase e) (ksCap e) (ksLive e) (ksKernel e) (ksTenant e) false)).answer r 0
      else s.answer r 6

/-- THE STEPS OF THE TILE STORE, OF THE MATRIX ENGINES AND OF THE HAMPER: what holds after each, for a step from `s`. -/
def unitEffect (s : State) (i : Instr) : Option (State → Prop) :=
  match i with
  | .tileOpComplete op => some fun t => ((s.tileOps.find? fun o => o.op == op) = none → t = s) ∧
      ∀ o, (s.tileOps.find? fun o => o.op == op) = some o →
        (s.slotsReady op (opReads o) o.writes = false → t = s) ∧
          (s.slotsReady op (opReads o) o.writes = true →
            (o.kind = .load → s.loadReturned o = false → t = s) ∧
            (o.kind = .load → s.loadReturned o = true → (∀ r ∈ s.opReqs o.gid op, ∀ p ∈ r.parts, p.trap = 0#64) →
              TileEnded s t o (some (loadedTile (s.opReqs o.gid op))) ∧ t.reqs = s.reqs.filter fun q => !(q.gid == o.gid && q.op == op && q.kind.byOp)) ∧
            (∀ e, o.kind = .load → s.loadReturned o = true → badRow (s.opReqs o.gid op) (rowOf s o) = some e →
              t = ((s.loadFails o (s.opReqs o.gid op) e).dropOp o.gid op).endTile o) ∧
            (∀ x, o.kind = .store → o.src = some x → TileEnded s t o none ∧
              t.reqs = s.reqs.map fun r => if r.gid = o.gid ∧ r.op = op then
                { r with parts := r.parts.map fun p => p.fromTile (s.slot x.core x.slot).data } else r) ∧
            (∀ slice nan x y, o.kind = .convert slice nan → o.src = some x → o.dst = some y →
              TileEnded s t o (some (s.convertElems x y slice nan (s.slot y.core y.slot).data (convertCount (tagFmt x.tag) (tagFmt y.tag))))) ∧
            ∀ x, o.kind = .spread → o.src = some x → TileEnded s t o (some (s.slot x.core x.slot).data))
  | .reservationDispatch quad => some fun t =>
      ((s.plat.throttled = true ∨ ∃ e ∈ (s.quad quad).resv, e.dispatched = true) → t = s) ∧
        (s.plat.throttled = false → (∀ x ∈ (s.quad quad).resv, x.dispatched = false) → nextEntry s quad = none →
          t = (s.quad quad).resv.foldl (fun s e => (s.entryCode quad e).1) s) ∧
        ∀ e, s.plat.throttled = false → (∀ x ∈ (s.quad quad).resv, x.dispatched = false) → nextEntry s quad = some e →
          t = s.setQuad quad { s.quad quad with resv := (s.quad quad).resv.map fun (x : ResvEntry) =>
            if x.id = e.id then { x with dispatched := true } else x }
  | .levelAging quad entry => some fun t => t = s.setQuad quad { s.quad quad with resv := (s.quad quad).resv.map fun (e : ResvEntry) =>
      if e.id = entry ∧ e.dispatched = false then { e with level := min 3 (e.level + 1), waited := e.waited + 1 } else e }
  | .passComplete quad entry => some fun t => (((s.quad quad).resv.find? fun e => e.id == entry) = none → t = s) ∧
      ∀ e, ((s.quad quad).resv.find? fun e => e.id == entry) = some e →
        ((s.entryCode quad e).2 = none ∨ e.dispatched = false → t = (s.entryCode quad e).1) ∧
          ∀ s₁ code, s.entryCode quad e = (s₁, some code) → e.dispatched = true → EntryDone s₁ t quad e code
  | .ringWaitResume gid => some fun t => t = { s with groups := t.groups } ∧ OthersKept s t gid ∧ ∀ g, s.group? gid = some g →
      ∃ g', t.group? gid = some g' ∧ g' = { g with lanes := g'.lanes } ∧
        LanesTo g g' fun _ l l' => l' = if l.status = .waiting .ring then l.goOn else l
  | .streamCommand quad => some fun t => ((s.quad quad).stream = none → t = s) ∧
      (∀ st g, (s.quad quad).stream = some st → s.group? st.gid = some g → (st.stopped.isSome = true ∨ st.count ≤ st.iter ∨ g.frozen = true) → t = s) ∧
        ∀ st g tm, StreamReady s quad st g tm → StreamStep s t quad st g tm
  | .streamEnd quad => some fun t => ((s.quad quad).stream = none → t = s) ∧
      ∀ st o, (s.quad quad).stream = some st → s.engOp? st.op = some o →
        ((Quad.streamOver (s.quad quad) st = false ∨ s.gidFrozen st.gid = true ∨ s.released o.core o.after = false) → t = s) ∧
          ∀ s₁ d rest, Quad.streamOver (s.quad quad) st = true → s.gidFrozen st.gid = false → s.released o.core o.after = true →
            s.engWrite o st.statusVA (byteMask (st.statusVA.toNat % 128) 8)
              (((match st.stopped with
                | some (status, ring, hval) => streamWord st.iter st.cmd ring hval status
                | none => streamWord st.count 0 0 0 0).setWidth 1024 : LineData) <<< (8 * (st.statusVA.toNat % 128))) [(0, 0)]
                = (s₁, .data d, rest) →
            t.mem = s₁.mem ∧ (t.quad quad).stream = none ∧ ∀ p ∈ t.engOps, p.id ≠ o.id
  | .hamperAtHome req ans => some fun t => (s.req? req = none → t = s) ∧ ∀ r, s.req? req = some r →
      ((r.done = true ∨ s.orderedReady r = false) → t = s) ∧
        (r.done = false → s.orderedReady r = true →
          ((r.kind = .hamper 0 ∨ r.kind = .hamper 1) → PutAtHome s t r ans) ∧
            (r.kind = .hamper 2 → t = s.getAtHome r ans) ∧
            (∀ g, r.kind = .hamper 3 → s.group? r.gid = some g → KeySpaceAtHome s t r g ans) ∧
            (∀ f, r.kind = .hamper (followKind f) → (s.req? (r.word 0).toNat).isSome = true → t = s) ∧
            (r.kind = .hamper 4 → t = s.gdrainAtHome r ans) ∧ (r.kind = .hamper 5 → t = s.greloadAtHome r ans))
  | .hamperResultReturn req => some fun t => (s.req? req = none → t = s) ∧ ∀ r, s.req? req = some r →
      ((r.kind.isHamper = false ∨ r.done = false) → t = s) ∧
        ∀ g p, r.kind.isHamper = true → r.done = true → s.group? r.gid = some g → g.frames = [] → r.parts = [p] → p.trap = 0#64 → p.lane < 64 →
          t.mem = s.mem ∧ t.req? req = none ∧ OthersKept s t r.gid ∧ ∃ g', t.group? r.gid = some g' ∧ g'.s = g.s ∧ g'.h = g.h ∧
            LanesTo g g' fun i l l' => if i = p.lane then
                l' = (match p.dst with
                  | some d => ({ l with acq := l.acq.filter fun k => k != r.id } : Lane).putBlock r.op d (r.answerWords p)
                  | none => { l with acq := l.acq.filter fun k => k != r.id })
              else l' = l
  | _ => none

end Sys2Proof.Claims
end

