-- ==== Sys2Proof/Certificates/Slice0/Obligations.lean ====
section
/-! DEFINITION. The statements about the machine. -/

open Sys2Proof Sys2Proof.Machine Sys2Proof.Claims

/-! ### Encoding and steps -/

/-- Decoding the words of a well-formed instruction, in a clause of its class, gives the instruction back and leaves the
words that follow it (R185, R186, R195 to R201). -/
def Obligations.DecodeOfEncodeIsTheInstruction : Prop :=
  ∀ i : Instr, i.isInstruction = true → i.illFormed = none → ∀ rest : List Word,
    decode (classOf i) (encode i ++ rest) = .ok (i, rest)

/-- What the decoder accepts is well formed: an instruction form that breaks no encoding rule of R201. -/
def Obligations.DecodedInstructionsAreWellFormed : Prop :=
  ∀ (c : Nat) (ws : List Word) (i : Instr) (rest : List Word), decode c ws = .ok (i, rest) →
    i.isInstruction = true ∧ i.illFormed = none ∧ classOf i = c ∧ ∃ ws', ws = ws' ++ rest ∧ ws' ≠ []

/-- Words written out from the encoding tables decode to the instructions that they stand for. -/
def Obligations.WordsOfTheSpecDecode : Prop :=
  decode 0 [0x00140604#32] = .ok (.addB32 10 0 6 4, []) ∧
  decode 0 [0x80E00003#32] = .ok (.bra 7 0 3, []) ∧
  decode 1 [0x00020405#32] = .ok (.addF32 0 1 0 4 5, []) ∧
  decode 2 [0x0410C484#32, 0x60000000#32] = .ok (.ldB32 8 0xC4 0x84 ⟨1, 4, 0, 0, 0⟩, []) ∧
  decode 5 [0x00000007#32] = .ok (.trap 7, []) ∧
  decode 0 [0x70000000#32] = .error .reservedOpcode

/-- A step whose turn is the ports', with words at the first port's place that decode to an instruction, is the meaning of
that instruction in the state in which its pick issues, followed by the pick's move past the words and by what follows every
step.
The model's choices in it: the agenda that gives the turn to the ports (log 1); the clocks that pass (log 4). -/
def Obligations.StepRunsTheDecodedInstruction : Prop :=
  ∀ (s : State) (ag : List (Option Instr)) (p : Pick) (ps : List Pick) (i : Instr) (rest : List Word),
    s.agenda = none :: ag → s.ports = p :: ps → p.pos < p.words.length → decode p.cls (p.words.drop p.pos) = .ok (i, rest) →
    step s = match exec i { ({ s with agenda := ag } : State).tick with ports := ps, cur := some { p with wrote := [] } } with
      | .next t => .next (t.afterInstr (p.words.length - p.pos - rest.length)).settle
      | .fault r => .fault r
      | .refused r => .refused r

/-- Words at the issue point that are no instruction stop the machine; nothing else of a step does, but an agenda that asks
for an instruction form.
The model's choices in it: the agenda (log 1). -/
def Obligations.OnlyUndecodableWordsStopAStep : Prop :=
  ∀ s : State, (∀ r, step s ≠ .refused (.notModelled r)) ∧ ∀ f, step s = .fault f →
    ∃ p ∈ s.ports, ∃ r, decode p.cls (p.words.drop p.pos) = .error r

/-- No instruction and no event stops the machine: each has an effect in every state. -/
def Obligations.EveryRowOfTheTableHasANextState : Prop :=
  ∀ (i : Instr) (s : State), ∃ t, exec i s = .next t

/-! ### Invariants -/

/-- Every step keeps memory in its canonical form: addresses strictly rising, and no byte listed that an unlisted address
would read as anyway.
The model's choices in it: what a byte that nothing has written reads as (log 2). -/
def Obligations.EveryStepKeepsMemoryCanonical : Prop :=
  ∀ s t : State, s.Sound → step s = .next t → t.Sound

/-- Memory is in its canonical form at reset.
The model's choices in it: what a byte that nothing has written reads as (log 2). -/
def Obligations.MemoryIsCanonicalAtReset : Prop := State.reset.Sound

/-- After every step that performs something, no lane is left waiting for a resource: all of them try again (R60, R86, R148,
R182).
The model's choices in it: when a step performs something (log 1). -/
def Obligations.LanesHeldForAResourceTryAgain : Prop :=
  ∀ s t : State, step s = .next t → (∀ u, s.nextTurn ≠ .idle u) →
    ∀ g ∈ t.groups, ∀ l ∈ g.lanes, l.status ≠ .waiting .resource

/-! ### Class 0 -/

/-- The 32-bit integer, logic, move and select instructions: each completes in every state, D and the latches of each lane of
the pick take the stated value, and nothing else changes. -/
def Obligations.IntegerResultsAndFrame : Prop :=
  ∀ (i : Instr) (d : BitVec 7) (w : BitVec 1) (f : Val32), intResult i = some (d, w, f) → ∀ s : State,
    ∃ t, exec i s = .next t ∧ LanesBecome s t (InPick s) fun g n l l' => Result32 l l' d.toNat w (f g n l)

/-- The instructions of class 0 that write a pair. -/
def Obligations.PairResultsAndFrame : Prop :=
  ∀ (i : Instr) (d : BitVec 6) (w : BitVec 1) (f : Val64), wideResult i = some (d, w, f) → ∀ s : State,
    ∃ t, exec i s = .next t ∧ LanesBecome s t (InPick s) fun g n l l' => Result64 l l' (2 * d.toNat) w (f g n l)

/-- The compares and the predicate logic; a write to p7 has no effect. -/
def Obligations.PredicateResultsAndFrame : Prop :=
  ∀ (i : Instr) (p : BitVec 3) (f : ValPred), predResult i = some (p, f) → ∀ s : State,
    ∃ t, exec i s = .next t ∧ LanesBecome s t (InPick s) fun g n l l' => ResultPred l l' p.toNat (f g n l)

/-- Floating-point arithmetic, conversion, quantisation and packing.
The model's choices in it: which value within its bound an approximation gives (log 12). -/
def Obligations.FloatResultsAndFrame : Prop :=
  ∀ (i : Instr) (d : BitVec 7) (w : BitVec 1) (f : Val32), floatResult i = some (d, w, f) → ∀ s : State,
    ∃ t, exec i s = .next t ∧ LanesBecome s t (InPick s) fun g n l l' => Result32 l l' d.toNat w (f g n l)

/-- The exchanges, reductions, scans, min-with-index and polls, when every live lane of the group is at the instruction: the
results come from the registers as they were before any was written.
The model's choices in it: which lanes count as converged in a trap handler (log 17). -/
def Obligations.CrossLaneResultsAndFrame : Prop :=
  ∀ (i : Instr) (f : CrossEffect), crossEffect i = some f → ∀ (s : State) (p : Pick) (gid : Nat) (m : BitVec 64) (g : Group),
    Converged s p gid m g → ∃ t u, exec i s = .next u ∧ Performed t u p g m ∧
      LanesBecome s t (Taking gid m) fun g n l l' => f g m n l l'

/-- `smov.b64`: the scalar takes the 64-bit operand of the lowest guard-true lane of each group of the pick; a group without
such a lane writes nothing, and nothing else changes. The write is lost when the slot's other port has written the scalar in
the same cycle (R192).
The model's choices in it: a group of the pick with no guard-true lane writes nothing (log 5); which of two writes of one
cycle is lost (log 6); a lane with an answer out that may trap it waits (log 27). -/
def Obligations.ScalarMoveWritesTheLeadingLane : Prop :=
  ∀ (d : BitVec 6) (a : BitVec 8) (s : State), Settled s → ∃ t, exec (.smovB64 d a) s = .next t ∧
    GroupsBecome s t fun _ m g g' => g.frames = [] →
      (NoLead g m → g' = g) ∧ ∀ i l, Leads g m i l →
        (s.lostWrite g.gid d.toNat = true → g' = g) ∧ (s.lostWrite g.gid d.toNat = false →
          g' = { g with s := g.s.set d.toNat (Machine.src64 g i l a), spend := g.spend.filter fun e => e.1 != d.toNat })

/-- `bra`, `jmp`, `ret`, `call` and `call.ind`: where each lane goes when the clause ends, and what the link pair takes; the
latches and everything else keep their values.
`loop`: when every lane of the pick makes a pass, each enters the body in pass 0 with the number of passes of its operand; in
a pick of one group, a lane that makes none (its guard is false, or the count is 0) continues after the last of the body's
clauses, as their headers give it.
The model's choices in it: the end of the body comes from its headers (log 18). -/
def Obligations.TransfersAndLoopsSendTheirLanes : Prop :=
  (∀ (i : Instr) (f : Pick → Group → Nat → Lane → Lane → Prop), transferEffect i = some f → ∀ (s : State) (p : Pick),
    s.cur = some p → ∃ t, exec i s = .next t ∧ LanesBecome s t (InPick s) fun g n l l' =>
      if l.guard = true then f p g n l l' else l' = l) ∧
  (∀ (ncl : BitVec 4) (cnt : BitVec 8) (incs : List LoopInc) (s : State) (p : Pick), s.cur = some p →
    (p.members.map fun e => e.1).Nodup → (s.groups.map fun g => g.gid).Nodup →
    (∀ g ∈ s.groups, ∀ (n : Nat) (l : Lane), InPick s g n → g.lanes[n]? = some l → passesOf g n l cnt ≠ 0) →
    ∃ t, exec (.loop ncl cnt incs) s = .next t ∧ LanesBecome s t (InPick s) fun g n l l' => EntersBody p ncl incs (passesOf g n l cnt) l l') ∧
  (∀ (ncl : BitVec 4) (cnt : BitVec 8) (incs : List LoopInc) (s : State) (p : Pick) (g : Group) (m : BitVec 64), s.cur = some p →
    p.members = [(g.gid, m)] → s.groups.filter (fun x => x.gid == g.gid) = [g] →
    ∀ (s₁ s₂ : State) (words : List (Word × List Word)) (after : DWord),
      LanesBecome s s₁ (InPick s) (fun g n l l' => EntersBody p ncl incs (passesOf g n l cnt) l l') →
      s₁.fetchRun g.core g.guest (clauseAfter p) [] ncl.toNat = (s₂, .ok (words, after)) →
      (∃ (n : Nat) (l : Lane), g.lanes[n]? = some l ∧ m.getLsbD n = true ∧ passesOf g n l cnt = 0) →
      ∃ t, exec (.loop ncl cnt incs) s = .next t ∧ LanesBecome s₂ t
        (fun h n => InPick s h n ∧ ∃ l, g.lanes[n]? = some l ∧ passesOf g n l cnt = 0)
        fun _ _ l l' => l' = { l with target := some after, pass := 0, loop := none })

/-- `conv`: all lanes of the pick leave it and wait with their latches cleared, whatever their guards (R169, R293).
The model's choices in it: a lane with an answer out that may trap it waits first (log 27). -/
def Obligations.ConvWaitsWithClearedLatches : Prop :=
  ∀ s : State, Settled s → ∃ t, exec .conv s = .next t ∧ GroupsBecome s t fun p m g g' => LeftPick t g m m ∧
    g' = { g with lanes := g'.lanes } ∧ LanesTo g g' fun i l l' => l' = if m.getLsbD i then
      { (At l (p.placeHere l)) with status := .waiting .conv, resume := some (p.placeAfter 1 l), age := 0, lat := Vector.replicate 4 0 }
      else l

/-- `exit` ends each guard-true lane of the pick: results on their way to it are forgotten, and it leaves the pick; the other
lanes stay (R294).
The model's choices in it: a lane with an answer out that may trap it waits first (log 27). -/
def Obligations.ExitEndsTheGuardedLanes : Prop :=
  ∀ s : State, Settled s → ∃ t, exec .exit s = .next t ∧ GroupsBecome s t fun _ m g g' => ∀ k, IsGuarded g m k → LeftPick t g m k ∧
    g' = { g with lanes := g'.lanes } ∧ LanesTo g g' fun i l l' => l' = if k.getLsbD i then
      { l with status := .exited, resume := none, target := none, pend := [], acq := [] } else l

/-- A check that no guard-true lane of the pick fails changes nothing (R298 to R300). A landing check whose walk must wait for a
line of a table is no case of it (log 105).
A check that some guard-true lanes fail with one cause traps in exactly those: they park at the check with the operand of
the lowest of them in TRAP.VA, and leave the pick (R298 to R301, R416, R443). -/
def Obligations.ChecksHoldOrTrap : Prop :=
  (∀ (i : Instr) (c : CheckSpec), checkSpec i = some c → ∀ s : State,
    (∀ g ∈ s.groups, ∀ (n : Nat) (l : Lane), g.lanes[n]? = some l → c.waits s g n l = false) →
    (∀ g m, g ∈ s.groups → (∃ p, s.cur = some p ∧ (g.gid, m) ∈ p.members) → ∀ (n : Nat) (l : Lane), g.lanes[n]? = some l →
      m.getLsbD n = true → l.guard = true → c.fails s g n l = none) → exec i s = .next s) ∧
  (∀ (i : Instr) (c : CheckSpec), checkSpec i = some c → ∀ s : State,
    (∀ g ∈ s.groups, ∀ (n : Nat) (l : Lane), g.lanes[n]? = some l → c.waits s g n l = false) → ∃ t, exec i s = .next t ∧
    GroupsBecome s t fun p m g g' => ∀ (k : BitVec 64) (cause : DWord), k ≠ 0#64 →
      (∀ n : Nat, k.getLsbD n = true ↔ m.getLsbD n = true ∧ ∃ l, g.lanes[n]? = some l ∧ l.guard = true ∧ c.fails s g n l ≠ none) →
      (∀ (n : Nat) (l : Lane), k.getLsbD n = true → g.lanes[n]? = some l → c.fails s g n l = some cause) →
      LeftPick t g m k ∧ Parked g g' k p.placeHere cause (c.operand g) c.keep)

/-! ### Class 5 -/

/-- `rdsys` and `ctr.rd` into vector registers: each guard-true lane takes the register's value, whole in a pair or in its low
32 bits in one register.
`rdsys` and `ctr.rd` into a scalar: it takes the value that the lowest guard-true lane of each group reads (R192).
The model's choices in it: a group with no guard-true lane writes no scalar (log 5); which of two writes of one cycle is lost
(log 6); a lane with an answer out that may trap it waits (log 27). -/
def Obligations.SystemReadsGiveTheRegister : Prop :=
  (∀ (i : Instr) (d : BitVec 8) (wide : Bool) (f : State → Group → Nat → DWord), i.illFormed = none →
    sysRead i = some (d, wide, f) → d.toNat < 0x80 → ∀ s : State, ∃ t, exec i s = .next t ∧
      LanesBecome s t (InPick s) fun g n l l' =>
        if wide then Result64 l l' d.toNat 0 (f s g n) else Result32 l l' d.toNat 0 ((f s g n).extractLsb' 0 32)) ∧
  (∀ (i : Instr) (d : BitVec 8) (wide : Bool) (f : State → Group → Nat → DWord), i.illFormed = none →
    sysRead i = some (d, wide, f) → 0xC0 ≤ d.toNat → ∀ s : State, Settled s → ∃ t, exec i s = .next t ∧
      GroupsBecome s t fun _ m g g' => g.frames = [] → (NoLead g m → g' = g) ∧ ∀ n l, Leads g m n l →
        (s.lostWrite g.gid (d.toNat - 0xC0) = true → g' = g) ∧ (s.lostWrite g.gid (d.toNat - 0xC0) = false →
          g' = { g with s := g'.s, spend := g.spend.filter fun e => e.1 != d.toNat - 0xC0 } ∧
            ∀ k, k < 64 → g'.s.toList.getD k 0 = if k = d.toNat - 0xC0 then f s g n else g.s.toList.getD k 0))

/-- `wrsys`, `warn.clr` and `ctr.cfg` act once for each group of the pick, from its lowest guard-true lane; a group without
one keeps everything.
The model's choices in it: a group of the pick with no guard-true lane (log 5); a lane with an answer out that may trap it
waits (log 27). -/
def Obligations.SystemWritesActOncePerGroup : Prop :=
  ∀ (i : Instr) (f : Group → Nat → Lane → Group → Prop), i.illFormed = none → sysWrite i = some f → ∀ s : State,
    Settled s → ∃ t, exec i s = .next t ∧ GroupsBecome s t fun _ m g g' => m ≠ 0#64 →
      (NoLead g m → g' = g) ∧ ∀ n l, Leads g m n l → f g n l g'

/-- `trap n` parks the guard-true lanes with USER_TRAP and detail n, to go on after it (R419); so does `brk n` with BREAKPOINT
while no debug state reaches the group.
`brk` under the device debug state stops the guard-true lanes for the debugger: they wait, and are not parked (R419).
The model's choices in it: a lane with an answer out that may trap it waits at a breakpoint (log 27); TRAP.VA of a cause with
no address is free (log 31). -/
def Obligations.TrapsAndBreakpointsParkOrStop : Prop :=
  (∀ (n : BitVec 8) (s : State),
    (∃ t, exec (.trap n) s = .next t ∧ GroupsBecome s t fun p m g g' => ∀ k, k ≠ 0#64 → IsGuarded g m k →
      LeftPick t g m k ∧ ∃ va, Parked g g' k (p.placeAfter 1) (causeWith 0x1E n.toNat) (fun _ _ => va) []) ∧
    (s.plat.debug = .off → Settled s → ∃ t, exec (.brk n) s = .next t ∧ GroupsBecome s t fun p m g g' => ∀ k, k ≠ 0#64 →
      IsGuarded g m k → LeftPick t g m k ∧ ∃ va, Parked g g' k (p.placeAfter 1) (causeWith 0x1F n.toNat) (fun _ _ => va) [])) ∧
  (∀ (n : BitVec 8) (s : State) (p : Pick) (g : Group) (m k : BitVec 64), s.plat.debug = .device → Settled s → TakesPart s p g m →
    p.members = [(g.gid, m)] → IsGuarded g m k → k ≠ 0#64 → ∃ t, exec (.brk n) s = .next t ∧
      t.outbox = s.outbox ++ [.stopped g.gid] ∧ GroupsBecome { s with outbox := t.outbox } t fun p m g g' =>
        ∀ k, IsGuarded g m k → LeftPick t g m k ∧ Waits p g g' k 1 .debugger)

/-- `rtt resume` and `rtt end` by lanes of the innermost handler: its frame goes with its bank, MASKED becomes 0, and its lanes
take back the registers that the frame kept, or end (R420, R446). Lanes outside the frame keep everything.
`rtt` by lanes that run in no handler traps with TRAP_STATE, at the instruction (R420).
The model's choices in it: one lane of the handler returns for all of its sub-group (log 20); a lane with an answer out that
may trap it waits (log 27); TRAP.VA of a cause with no address is free (log 31). -/
def Obligations.ReturnFromTrapRestoresOrTraps : Prop :=
  (∀ (s : State) (resume : Bool), Settled s → ∃ t, exec (if resume then .rttResume else .rttEnd) s = .next t ∧
    GroupsBecome s t fun _ m g g' => ∀ (f : Frame) (outer : List Frame) (k : BitVec 64), g.frames = f :: outer → IsGuarded g m k →
      k ≠ 0#64 → k &&& f.sub.lanes = k → LeftPick t g m f.sub.lanes ∧
        g' = { g with lanes := g'.lanes, frames := outer, trapMask := g.trapMask &&& 2#2 } ∧
        LanesTo g g' fun i l l' => if f.sub.lanes.getLsbD i then HandlerLane resume f i l l' else l' = l) ∧
  (∀ (s : State) (resume : Bool), Settled s → ∃ t, exec (if resume then .rttResume else .rttEnd) s = .next t ∧
    GroupsBecome s t fun p m g g' => ∀ k, g.frames = [] → IsGuarded g m k → k ≠ 0#64 →
      LeftPick t g m k ∧ ∃ va, Parked g g' k p.placeHere (causeWith 0x20 0) (fun _ _ => va) [])

/-- `yield` takes format A with its other bits 0 in class 5; it marks its pick to leave the next vote point out, which is what
YIELD of a clause header (bit 28) does to the pick at its start, and it changes nothing else (R184, R423). -/
def Obligations.YieldMarksThePick : Prop :=
  (∀ (s : State) (p : Pick), s.cur = some p → exec .yield s = .next { s with cur := some { p with yields := true } }) ∧
  (∀ (core slot port : Nat) (c : List Voter) (v : Voter) (h : Word) (ws : List Word),
    (pickOf core slot port c v h ws).yields = h.getLsbD 28) ∧
  (∀ rest : List Word, decode 5 (0x08000000#32 :: rest) = .ok (.yield, rest)) ∧
  ∀ (w : Word) (rest : List Word), w.extractLsb' 24 8 = 0x08#8 → w ≠ 0x08000000#32 → ∃ r, decode 5 (w :: rest) = .error r

/-- `vreg.grow` to a budget that the group already has completes at once and changes nothing but which lanes have missed it
(R171); a greater one makes the lanes wait for it, as the last request of the slot (R176, R177).
`vreg.shrink` completes at once: the budget becomes the operand, and every lane keeps the registers below it and all else
but the registers from it up, whose contents are lost (R177). A greater operand than the budget changes nothing.
The model's choices in it: what a register past the budget reads as (log 14); the contents of the lost registers are free
(log 19). -/
def Obligations.GrowAndShrinkChangeTheBudget : Prop :=
  (∀ (n : BitVec 8) (s : State) (p : Pick) (gid : Nat) (m : BitVec 64) (g : Group), Converged s p gid m g →
    (8 * n.toNat ≤ g.budget → ∃ t, exec (.vregGrow n) s = .next t ∧ Performed s t p g m) ∧
    (g.budget < 8 * n.toNat → ∃ t u, exec (.vregGrow n) s = .next u ∧ Performed t u p g m ∧
      GroupsBecome { s with sched := { s.sched with nextSeq := s.sched.nextSeq + 1 } } t fun p m g g' => LeftPick t g m m ∧
        g'.growSeq = s.sched.nextSeq ∧ g'.growLate = false ∧
        Waits p { g with growSeq := g'.growSeq, growLate := g'.growLate } g' m 1 (.grow (8 * n.toNat)))) ∧
  (∀ (n : BitVec 8) (s : State) (p : Pick) (gid : Nat) (m : BitVec 64) (g : Group), Converged s p gid m g →
    ∃ t u, exec (.vregShrink n) s = .next u ∧ Performed t u p g m ∧ GroupsBecome { s with fresh := t.fresh } t fun _ _ g g' =>
      if 8 * n.toNat ≤ g.budget then g' = { g with budget := 8 * n.toNat, lanes := g'.lanes } ∧
        LanesTo g g' fun _ l l' => l' = { l with v := l'.v } ∧ ∀ k, k < 8 * n.toNat → l'.reg k = l.reg k
      else g' = g)

/-! ### Class 6 -/

/-- The hints that the C640 does not follow complete in every state: D takes 0 unless WS is 1 (R200, R425).
`pref` and `evict.hint` complete in every state: D takes 0 unless WS is 1, an order other than `relaxed` is noted in WARN, and
`seqcst` at system scope beside it, and no register, memory byte or counter takes anything else (R199, R200, R202). -/
def Obligations.HintsWriteZero : Prop :=
  (∀ (i : Instr) (d : BitVec 7) (w : BitVec 1), hintTarget i = some (d, w) → ∀ s : State, ∃ t, exec i s = .next t ∧
    LanesBecome s t (InPick s) fun _ _ l l' => Result32 l l' d.toNat w 0#32) ∧
  (∀ (i : Instr) (d : BitVec 7) (w : BitVec 1) (x : XM), lineHint i = some (d, w, x) → ∀ s : State, ∃ t, exec i s = .next t ∧
    t = { s with groups := t.groups, reqs := t.reqs, nextId := t.nextId, home := t.home, cores := t.cores } ∧ s.reqs <+: t.reqs ∧
    (∀ c, t.core c = { s.core c with outst := (t.core c).outst }) ∧
    t.groups.length = s.groups.length ∧ ∀ (k : Nat) (g : Group), s.groups[k]? = some g → ∃ g' : Group, t.groups[k]? = some g' ∧
      g' = { g with lanes := g'.lanes, warn := g'.warn } ∧ (g'.warn = g.warn ∨ x.order ≠ oRelaxed ∧
        g'.warn = g.warn ||| wOrder ||| if x.order = oSeqCst ∧ x.scope = 6#3 then wScope else 0#4) ∧
      LanesTo g g' fun n l l' => (InPick s g n → Result32 l l' d.toNat w 0#32) ∧ (¬ InPick s g n → l' = l))

/-! ### Class 2: global accesses -/

/-- A load, or an atomic, whose lanes have passed their checks is issued as one operation: its requests join the requests of
the module, its counter counts it, its destination registers await it, and memory and every register keep their values.
The model's choices in it: which lanes share a request (log 26); an access that waits for its own lane (log 64). -/
def Obligations.LoadsAndAtomicsIssueRequests : Prop :=
  ∀ (i : Instr) (f : MemForm) (a b : BitVec 8) (x : XM), accessForm i = some (f, a, b, x) → f.kind ≠ .store →
    ∀ (s s₁ : State) (p : Pick) (g : Group) (m act : BitVec 64) (as : List Access), Issues s f a b x p g m act s₁ as →
      ∃ t, exec i s = .next t ∧ t.mem = s₁.mem ∧ t.errlog = s₁.errlog ∧
        (∀ k r, (s₁.buildReqs f g x p as)[k]? = some r → ∃ q, t.reqs[s₁.reqs.length + k]? = some q ∧
          SameRequest s₁.nextId r q) ∧
        ∀ g₁, s₁.group? g.gid = some g₁ → ∃ g₂, t.group? g.gid = some g₂ ∧ GroupIssued g₁ g₂ ∧
          (if f.dst = none then g₂.q0 = g₁.q0 ∧ g₂.q1 = g₁.q1 ++ [{ op := s₁.nextId, left := (s₁.buildReqs f g x p as).length }]
           else g₂.q1 = g₁.q1 ∧ g₂.q0 = g₁.q0 ++ [{ op := s₁.nextId, left := 1 }]) ∧
          LanesTo g₁ g₂ (LaneIssued f act s₁.nextId)

/-- A store whose lanes have passed their checks is issued as one operation on c1: each line's bytes lie in the core's
coalescing buffer, or are a request that enters it later when the store is a release or `seqcst`, and memory keeps its contents
until they arrive at their homes.
The model's choices in it: a store that waits for its own lane (log 64); what a buffer entry knows (log 65); team scope of a
quad team (log 66). -/
def Obligations.StoresEnterTheCoalescingBuffer : Prop :=
  ∀ (i : Instr) (f : MemForm) (a b : BitVec 8) (x : XM), accessForm i = some (f, a, b, x) → f.kind = .store →
    ∀ (s s₁ : State) (p : Pick) (g : Group) (m act : BitVec 64) (as : List Access), Issues s f a b x p g m act s₁ as →
      ∃ t, exec i s = .next t ∧ t.mem = s₁.mem ∧ t.errlog = s₁.errlog ∧
        (∀ r ∈ s₁.buildReqs f g x p as,
          (s₁.directStore g r = true → ∃ q ∈ t.reqs, SameRequest s₁.nextId r q) ∧
          (s₁.directStore g r = false → ∃ e ∈ (t.core g.core).cbuf, e.line = r.line ∧ (g.gid, s₁.nextId) ∈ e.ops ∧
            e.mask &&& partsMask r.parts = partsMask r.parts)) ∧
        ∀ g₁, s₁.group? g.gid = some g₁ → ∃ g₂, t.group? g.gid = some g₂ ∧ GroupIssued g₁ g₂ ∧ g₂.q0 = g₁.q0 ∧
          g₂.q1 = g₁.q1 ++ [{ op := s₁.nextId, left := (s₁.buildReqs f g x p as).length }] ∧
          LanesTo g₁ g₂ (LaneIssued f act s₁.nextId)

/-- When the access of every guard-true lane fails its checks with one cause, those lanes park at the instruction with the
cause and with the effective address of the lowest of them in TRAP.VA, and nothing is issued (R327, R443).
The model's choices in it: the walk belongs to the step, and waits for its lines (log 9, log 105). -/
def Obligations.FailedAccessesTrapBeforeIssue : Prop :=
  ∀ (i : Instr) (f : MemForm) (a b : BitVec 8) (x : XM), accessForm i = some (f, a, b, x) →
    ∀ (s s₁ : State) (p : Pick) (g g₁ : Group) (m act : BitVec 64) (ts : List LaneTrap) (c : DWord), MayIssue s f p g m act →
      s.checkLanes g act f.size f.acc (fun i l => effAddr g i l a b x) = (s₁, ⟨ts, 0#64, []⟩) → (∀ t ∈ ts, t.cause = c) →
      s₁.group? g.gid = some g₁ → g₁.lanes = g.lanes → ∃ t, exec i s = .next t ∧ t.reqs = s₁.reqs ∧ t.mem = s₁.mem ∧
        LeftPick t g m act ∧ ∃ g₂, t.group? g.gid = some g₂ ∧
          Parked g₁ g₂ act p.placeHere c (fun i l => effAddr g i l a b x) []

/-! ### Class 2: hints, the stash, flasks, fences, barriers, locks and engines -/

/-- A stash access whose lanes pass their checks is issued as one operation: a touch of the stash line that each lane's offset
names joins the requests, its counter counts it, its destination registers await it, and memory keeps its contents. -/
def Obligations.StashAccessesTouchTheirLines : Prop :=
  ∀ (i : Instr) (f : MemForm) (store : Bool) (a b : BitVec 8) (x : XM), stashForm i = some (f, store, a, b, x) →
    ∀ (s : State) (p : Pick) (g : Group) (m act : BitVec 64), Touches s f store a b x p g m act →
      ∃ t, exec i s = .next t ∧ t = { s with groups := t.groups, cur := t.cur, reqs := t.reqs, nextId := t.nextId } ∧
        OthersKept s t g.gid ∧ s.reqs <+: t.reqs ∧
        (∀ (n : Nat) (l : Lane), act.getLsbD n = true → g.lanes[n]? = some l → ∃ q ∈ t.reqs, q.op = s.nextId ∧ q.gid = g.gid ∧
          q.kind = .touch store ∧ q.line = s.stashByte g (stashOffset g n l a b x) / 128 ∧ q.done = false ∧
          ∃ r, q.parts = [r] ∧ r.lane = n ∧ r.data = f.data l ∧ r.dst = f.dst) ∧
        ∃ g₂, t.group? g.gid = some g₂ ∧ GroupIssued g g₂ ∧ LanesTo g g₂ (LaneIssued f act s.nextId) ∧
          (if store then g₂.q0 = g.q0 ∧ ∃ n, 0 < n ∧ g₂.q1 = g.q1 ++ [{ op := s.nextId, left := n }]
           else g₂.q1 = g.q1 ∧ g₂.q0 = g.q0 ++ [{ op := s.nextId, left := 1 }])

/-- `stash.map` enters its range in the core's table and makes its lines invalid, so that the first touch of each fills it; a
map that R68 lets fail traps with STASH_MAP and the global pointer in TRAP.VA, and changes nothing else.
`stash.flush` of lines that write back without a trap completes at once with every mapped line of its range clean;
`stash.unmap` of an entry of the team also clears the entry and leaves its lines unbacked (R70, R74, R331).
The model's choices in it: the write-backs perform within the instruction (log 28); TRAP.VA of STASH_MAP (log 74); how an entry
keeps that its pointer has high bits (log 115). -/
def Obligations.StashMappingsBeginAndEnd : Prop :=
  (∀ (tok : BitVec 6) (a b : BitVec 8) (x : XM) (s : State) (p : Pick) (g : Group) (m : BitVec 64) (i : Nat) (l : Lane) (tm : Team)
    (mode gva off lines token soff : Nat), Performs s p g m i l → s.team? g.launch g.team = some tm → g.c1 < 63 →
    mode = fldN x.mode 0 2 → gva = (Machine.src64 g i l a).toNat % 2 ^ 55 / 128 * 128 → off = (src32 g i l b).toNat →
    lines = fldN x.off 0 11 + 1 → token = fldN (g.scalar i tok.toNat) 0 30 → soff = tm.stashAt g.core + off / 128 →
    s.rangeBusy (quadOf g.core) g.guest (BitVec.ofNat 64 gva) (128 * lines) (mode == 1) = false →
    (∀ e ∈ (s.quad (quadOf g.core)).ranges,
      (rangeCore e.2 == g.core % 4 && rangeMeets e.2 true soff (soff + lines - 1) true) = false) →
    (s.mapFails g tm mode gva off lines token = true →
      ∃ t, exec (.stashMap tok a b x) s = .next t ∧ OnlyParks s t p g m (1#64 <<< i) (causeWith 0x09 0) (Machine.src64 g i l a)) ∧
    (s.mapFails g tm mode gva off lines token = false → (mode = 1 → s.keysWait g gva lines = none ∧ ∀ e ∈ (s.core g.core).cbuf, e.line ∉ s.keysOf g gva lines) →
      ∃ t, exec (.stashMap tok a b x) s = .next t ∧
        t = { s with groups := t.groups, cur := t.cur, cores := t.cores, nextId := s.nextId + 1 } ∧
        (∃ slot, (slot, mkMap (token % 65536) (token / 65536) mode tm.local' (if x.ret = retBypass then retDefault else x.ret)
          lines soff gva ||| (if (Machine.src64 g i l a).toNat < 2 ^ 55 then 0#128 else 1#128 <<< 62)) ∈ (t.core g.core).maps) ∧
        (∀ k, k < lines → t.sline g.core (soff + k) = { StashLine.zero with state := .invalid }) ∧
        ∃ g', OnlyIssued s t g g' ∧ g'.q0 = g.q0 ∧ g'.q1 = popDone (g.q1 ++ [{ op := s.nextId, left := 0 }]) ∧ g'.q2 = g.q2 ∧
          g'.q3 = g.q3)) ∧
  (∀ (b : BitVec 8) (x : XM) (s s₁ : State) (p : Pick) (g : Group) (m : BitVec 64) (i : Nat) (l : Lane) (off : Nat),
    Performs s p g m i l → g.c1 < 63 → s.touchesPending g.gid = false → off = (src32 g i l b).toNat →
    (∀ lines : List Nat, lines = (List.range (fldN x.off 0 11 + 1)).map (fun k => ((s.quota g).1 + off / 128 + k) % 2048) →
      (∀ k ∈ lines, ((s.sline g.core k).state == .dirty && s.lineUnsettled g.core k) = false) → s.flushLines g lines = (s₁, .ok ()) →
      ∃ t, exec (.stashFlush b x) s = .next t ∧ t = { s₁ with groups := t.groups, nextId := s₁.nextId + 1 } ∧
        (∀ k ∈ lines, ((s.core g.core).mapOf? k).isSome = true → (t.sline g.core k).state ≠ .dirty) ∧
        ∀ g₁, s₁.group? g.gid = some g₁ → t.group? g.gid = some { g₁ with q1 := popDone (g₁.q1 ++ [{ op := s₁.nextId, left := 0 }]) }) ∧
    (∀ (tm : Team) (slot : Nat) (e : BitVec 128) (lines : List Nat), s.team? g.launch g.team = some tm → off % 128 = 0 →
      (s.core g.core).maps.find? (fun e => mapValid e.2 && mapTeam e.2 == tm.local' && mapSoff e.2 == tm.stashAt g.core + off / 128) =
        some (slot, e) → lines = (List.range (mapCount e)).map (fun k => mapSoff e + k) →
      (∀ k ∈ lines, s.lineUnsettled g.core k = false) → s.flushLines g lines = (s₁, .ok ()) →
      ∃ t, exec (.stashUnmap b x) s = .next t ∧ t.mem = s₁.mem ∧ t.reqs = s₁.reqs ∧
        (∀ k ∈ lines, (t.sline g.core k).state = .unbacked) ∧ (∀ e ∈ (t.core g.core).maps, e.1 ≠ slot) ∧
        ∀ g₁, s₁.group? g.gid = some g₁ → t.group? g.gid = some { g₁ with q1 := popDone (g₁.q1 ++ [{ op := s₁.nextId, left := 0 }]) }))

/-- A flask operation sends one request with its token and counts on c0; `flask.create` sends the line count and the slice
that homes its first line, and traps with FLASK_ARG for a count outside 1 to 16,777,215; one whose pointer does not translate
goes to a slice that the spec does not name.
The model's choices in it: that slice (log 29). -/
def Obligations.FlaskOperationsSendOneRequest : Prop :=
  ∀ (s : State) (p : Pick) (g : Group) (m : BitVec 64) (i : Nat) (l : Lane), Performs s p g m i l → FlaskIssues g l →
    (∀ (ins : Instr) (f : Nat) (sd : BitVec 6) (a : BitVec 8), flaskForm ins = some (f, sd, a) →
      ∃ t, exec ins s = .next t ∧ FlaskIssued s t g f sd [Machine.src64 g i l a &&& 0x3FFFFFFF#64, 0, 0]) ∧
    (∀ (sd : BitVec 6) (a b : BitVec 8) (x : XM) (ptr : DWord), ptr = Machine.src64 g i l a &&& ~~~(0x7F#64) →
      ((Machine.src64 g i l b = 0#64 ∨ 16777215 < (Machine.src64 g i l b).toNat) → ∃ t, exec (.flaskCreate sd a b x) s = .next t ∧
        OnlyParks s t p g m (1#64 <<< i) (causeWith 0x0A 0) (Machine.src64 g i l b)) ∧
      (Machine.src64 g i l b ≠ 0#64 → (Machine.src64 g i l b).toNat ≤ 16777215 → ∀ (s₁ : State) (tr : Trans),
        s.translate (some g.core) (quadOf g.core) g.guest ptr .load = (s₁, .ok tr) → s₁.group? g.gid = some g →
        ∃ t, exec (.flaskCreate sd a b x) s = .next t ∧
          FlaskIssued s₁ t g 0 sd [ptr, Machine.src64 g i l b, BitVec.ofNat 64 (sliceOf (tr.pa ptr / 128))]) ∧
      (Machine.src64 g i l b ≠ 0#64 → (Machine.src64 g i l b).toNat ≤ 16777215 → ∀ (s₁ : State) (e : XErr),
        s.translate (some g.core) (quadOf g.core) g.guest ptr .load = (s₁, .error e) → e.waits = false → s₁.group? g.gid = some g →
        ∃ t slice, exec (.flaskCreate sd a b x) s = .next t ∧
          FlaskIssued { s₁ with fresh := s₁.fresh + 1 } t g 0 sd [ptr, Machine.src64 g i l b, slice]))

/-- `fence`: the guard-true lanes wait for their fence, which joins the requests, and nothing but WARN and their waiting
changes (R335).
`bar.group`, `bar.team` and `bar.role`: every lane of the pick waits at the barrier, whatever its guard. `bar.rollcall` does
the same in a launch marked superstep; in another, every live lane of the group traps with BAR_MODE, in the pick or not (R336
to R338).
The model's choices in it: a lane with an answer out that may trap it waits first (log 27); TRAP.VA of BAR_MODE is free
(log 31); a fence whose pointer's walk waits for a line of a table (log 105). -/
def Obligations.FencesAndBarriersMakeLanesWait : Prop :=
  (∀ (a b : BitVec 8) (x : XM) (s : State) (p : Pick) (g : Group) (m act : BitVec 64), MayAccess s p g m act → Settled s →
    (∀ (n : Nat) (l : Lane), act.getLsbD n = true → g.lanes[n]? = some l → (s.fenceClass g a n l).toOption.isSome = true) →
    ∃ t, exec (.fence a b x) s = .next t ∧
      t = { s with groups := t.groups, cur := t.cur, reqs := t.reqs, nextId := t.nextId } ∧ OthersKept s t g.gid ∧ LeftPick t g m act ∧
      (∀ n : Nat, act.getLsbD n = true → ∃ q ∈ t.reqs, q.op = s.nextId ∧ q.gid = g.gid ∧ q.kind = .fence ∧ ∃ r ∈ q.parts, r.lane = n) ∧
      ∃ g' w, t.group? g.gid = some g' ∧ Waits p { g with warn := g.warn ||| w } g' act 2 (.fence s.nextId)) ∧
  ((∀ (ins : Instr) (b : Nat), barrierOf ins = some b → ∀ s : State, Settled s → ∃ t, exec ins s = .next t ∧
    GroupsBecome s t fun p m g g' => LeftPick t g m m ∧ Waits p g g' m 1 (.barrier b)) ∧
  (∀ s : State, Settled s → (∀ g ∈ s.groups, ¬ Absent s g → s.superstep g = true) → ∃ t, exec .barRollcall s = .next t ∧
    GroupsBecome s t fun p m g g' => LeftPick t g m m ∧ Waits p g g' m 1 (.barrier 6)) ∧
  ∀ (s : State) (p : Pick) (g : Group) (m : BitVec 64), Settled s → s.cur = some p → p.members = [(g.gid, m)] →
    s.groups.filter (fun x => x.gid == g.gid) = [g] → (∃ l ∈ g.lanes, l.live = true) → s.superstep g = false →
    ∃ t, exec .barRollcall s = .next t ∧ GroupParks s t p g m (causeWith 0x0B 0))

/-- A lock instruction of a converged group, no lane of which waits for an acquire, whose word passes its checks and for whose
request the core has an entry, sends one compare-and-swap of 8 bytes, of 0 with the group's tag or of the tag with 0, and every
lane of the group waits for it (R86, R136, R339, R340).
The model's choices in it: a lane with an answer out that may trap it waits first (log 27). -/
def Obligations.LocksSendOneCompareAndSwap : Prop :=
  ∀ (ins : Instr) (a : BitVec 8) (kind : ReqKind) (compare swap : DWord) (s s₁ : State) (p : Pick) (m : BitVec 64) (g : Group)
    (i : Nat) (l : Lane) (sp : Machine.Span) (rest : List Machine.Span), Converged s p g.gid m g →
    lockForm ins (1#1 ++ 0#27 ++ BitVec.ofNat 32 g.team ++ BitVec.ofNat 4 g.index) = some (a, kind, compare, swap) →
    LowestLane g m (fun _ => True) i l → (∀ l ∈ g.lanes, l.acq = []) → s.hasEntry g.core = true →
    s.checkAccess g (Machine.src64 g i l a) 8 .atomic = (s₁, .ok (sp :: rest)) →
    ∃ t u, exec ins s = .next u ∧ Performed t u p g m ∧ t.mem = s₁.mem ∧
      (∃ r : Req, t.reqs = s₁.reqs ++ [r] ∧ r.kind = kind ∧ r.op = s₁.nextId ∧ r.gid = g.gid ∧ r.size = 8 ∧
        r.line = sp.trans.key sp.va ∧ r.done = false ∧ ∃ q, r.parts = [q] ∧
        q.data = compare.setWidth 128 ∧ q.data2 = swap.setWidth 128 ∧ q.pa = sp.trans.pa sp.va) ∧
      LeftPick t g m m ∧ ∀ g₁, s₁.group? g.gid = some g₁ → g₁.lanes = g.lanes →
        ∃ g' w, t.group? g.gid = some g' ∧ Waits p { g₁ with warn := g₁.warn ||| w } g' m 2 .lock

/-- `copy`, `gather` and `coll`: with an identifier, room in the range-lock table and room on c2, the operation is issued with
its operands and registers its ranges; one with operands that R341 or R345 refuses is not, and reports its error at line 0.
`eng.wait`: the guard-true lanes wait until at most so many operations of the group are incomplete: the low 6 bits of the
operand (R348).
The model's choices in it: the index pointer of a gather (log 77). -/
def Obligations.EngineOperationsAndWaits : Prop :=
  (∀ (ins : Instr) (s : State) (p : Pick) (g : Group) (m : BitVec 64) (i : Nat) (l : Lane) (c : EngineForm) (opid : Nat),
    Performs s p g m i l → engineForm s ins g i l = some c → c.waits = none → s.freeOpid (quadOf g.core) = some opid → g.c2 < 63 →
    (c.bad = 0 → (s.quad (quadOf g.core)).ranges.length + (c.entries s g opid).length ≤ 128 → ∃ t, exec ins s = .next t ∧
      t = { s with groups := t.groups, cur := t.cur, nextId := s.nextId + 1, quads := t.quads, engOps := t.engOps } ∧
      t.engOps = s.engOps ++ [{ c.op with id := s.nextId, opid := opid, quad := quadOf g.core, gid := g.gid, core := g.core,
                                          guest := g.guest, after := s.releaseSet g }] ∧
      (∀ e, e ∈ c.entries s g opid ∨ (∃ k, (k, e) ∈ (s.quad (quadOf g.core)).ranges) →
        ∃ k, (k, e) ∈ (t.quad (quadOf g.core)).ranges) ∧
      ∃ g', OnlyIssued s t g g' ∧ g'.q0 = g.q0 ∧ g'.q1 = g.q1 ∧ g'.q2 = g.q2 ++ [s.nextId] ∧ g'.q3 = g.q3 ∧ g'.engErr = g.engErr) ∧
    (c.bad ≠ 0 → (s.quad (quadOf g.core)).ranges.length ≤ 128 → ∃ t, exec ins s = .next t ∧
      t = { s with groups := t.groups, cur := t.cur, nextId := s.nextId + 1 } ∧
      ∃ g', OnlyIssued s t g g' ∧ g'.q2 = g.q2 ∧ ErrorWord g.engErr g'.engErr opid c.bad)) ∧
  (∀ (sd : BitVec 6) (a : BitVec 8) (s : State) (p : Pick) (g : Group) (m k : BitVec 64) (i : Nat) (l : Lane),
    Performs s p g m i l → IsGuarded g m k → ∃ t, exec (.engWait sd a) s = .next t ∧
      t = { s with groups := t.groups, cur := t.cur } ∧ OthersKept s t g.gid ∧
      OnlyWaits t p g m k 1 (.engine ((src32 g i l a).toNat % 64) sd.toNat))

/-! ### Class 3: tiles and the matrix engine -/

/-- `talloc` takes the lowest free handle and the first free slot of the team on each core it needs: the slots are zeroed with
the format in their tags, the entry becomes held with its generation, and the handle register takes the value. With no free
handle, or with every slot of a core live, the guard-true lanes trap with TILE_FULL (R355, R358).
`tfree` of a held handle frees its entry with the next generation; its slots are zeroed and free, or retiring while posted
operations use them. A value that is not current, or in transit, traps with TILE_STALE (R355, R359).
The model's choices in it: which of two writes of one cycle is lost (log 6); which lanes a tile trap parks (log 80); which
handle and slot talloc takes (log 81). -/
def Obligations.AllocationAndFreeOfHandles : Prop :=
  (∀ (d : BitVec 5) (f : BitVec 4) (bl : BitVec 1) (s : State) (p : Pick) (g : Group) (m k : BitVec 64) (i : Nat) (l : Lane) (tm : Team),
    InTeam s p g m i l tm → IsGuarded g m k →
    (∀ (lh : Nat) (ks : List Nat), s.lostWrite g.gid (64 + d.toNat) = false →
      (List.range tm.handles).find? (fun n => renState (tm.entry n) == 0#2) = some lh →
      (allocCores tm g (bl == 1#1)).map (fun c => (ownSlots tm c).find? fun n => (s.slot c n).state == .free) = ks.map some →
      (∀ n ∈ ks, n < 256) → ∃ t, exec (.talloc d f bl) s = .next t ∧
        t = { s with groups := t.groups, cur := t.cur, cores := t.cores, teams := t.teams } ∧
        (∀ (j c n : Nat), (allocCores tm g (bl == 1#1))[j]? = some c → ks[j]? = some n →
          t.slot c n = { TileSlot.zero with state := .live, tag := f.setWidth 64 }) ∧
        EntryBecomes t tm lh (renGen (tm.entry lh)) 1#2 ∧
        (∃ tm', t.team? tm.launch tm.team = some tm' ∧ (tm'.slotsOf (tm'.entry lh)).map (fun a => a.2) = ks) ∧
        HandleBecomes t g i d.toNat (renGen (tm.entry lh) ++ BitVec.ofNat 8 lh)) ∧
    (((∀ n, n < tm.handles → renState (tm.entry n) ≠ 0#2) ∨
        ∃ c ∈ allocCores tm g (bl == 1#1), ∀ n ∈ ownSlots tm c, (s.slot c n).state = .live) →
      ∃ t va, exec (.talloc d f bl) s = .next t ∧ OnlyParks s t p g m k (causeWith 0x13 0) va)) ∧
  (∀ (a : BitVec 5) (s : State) (p : Pick) (g : Group) (m k : BitVec 64) (i : Nat) (l : Lane) (tm : Team) (h : BitVec 16),
    InTeam s p g m i l tm → IsGuarded g m k → h = g.handle i a.toNat →
    (∀ e, tm.current h = some e → renState e = 1#2 → ∃ t, exec (.tfree a) s = .next t ∧
      t = { s with cores := t.cores, teams := t.teams } ∧ EntryBecomes t tm (hLh h) (hGen h + 1) 0#2 ∧
      ∀ x ∈ tm.slotsOf e, t.slot x.1 x.2 =
        if (s.slot x.1 x.2).readers = [] ∧ (s.slot x.1 x.2).writers = [] then TileSlot.zero
        else { s.slot x.1 x.2 with state := .retiring }) ∧
    ((∀ e, tm.current h = some e → renState e ≠ 1#2) →
      ∃ t, exec (.tfree a) s = .next t ∧ OnlyParks s t p g m k (causeWith 0x12 0) (h.setWidth 64)))

/-- `tgive` and `ttake` of a ring: a held handle enters at PUT and is in transit; the value at TAKE, when it is current, in
transit and of the format, enters the handle register and is held. A full or an empty ring makes the pick wait (R360, R362).
`tgive` and `ttake` of a role box: a held handle joins the box's end and is in transit, not yet takeable; a take removes the
oldest takeable entry of its group's role. A full box, or one with nothing takeable, makes the pick wait (R361, R362).
The model's choices in it: which of two writes of one cycle is lost (log 6); which lanes a tile trap parks (log 80). -/
def Obligations.HandlesPassThroughRingsAndBoxes : Prop :=
  (∀ (x d : BitVec 5) (f : BitVec 4) (k : BitVec 8) (s : State) (p : Pick) (g : Group) (m : BitVec 64) (i : Nat) (l : Lane) (tm : Team)
    (h : BitVec 16) (line : Nat) (data : LineData), InTeam s p g m i l tm → line = tm.stashAt g.core + k.toNat →
    data = (s.sline g.core line).data → (s.core g.core).mapOf? line = none → ringCount data ≤ 62 →
    (∀ e, h = g.handle i x.toNat → tm.current h = some e → renState e = 1#2 →
      (ringCount data = 62 → ∃ t, exec (.tgiveRing x k) s = .next t ∧ RingWaits s t p g m) ∧
      (ringCount data < 62 → ∃ t, exec (.tgiveRing x k) s = .next t ∧ t = { s with cores := t.cores, teams := t.teams } ∧
        EntryBecomes t tm (hLh h) (hGen h) 2#2 ∧
        RingBecomes s t g.core line (ringPut data + 1) (ringTake data) fun n =>
          if n = (ringPut data).toNat % 62 then h else ringHandle data n)) ∧
    (ringCount data = 0 → ∃ t, exec (.ttakeRing d f k) s = .next t ∧ RingWaits s t p g m) ∧
    (0 < ringCount data → h = ringHandle data ((ringTake data).toNat % 62) → Takeable s tm h f →
      s.lostWrite g.gid (64 + d.toNat) = false → ∃ t, exec (.ttakeRing d f k) s = .next t ∧
        t = { s with groups := t.groups, cur := t.cur, cores := t.cores, teams := t.teams } ∧
        EntryBecomes t tm (hLh h) (hGen h) 1#2 ∧ HandleBecomes t g i d.toNat h ∧
        RingBecomes s t g.core line (ringPut data) (ringTake data + 1) (ringHandle data))) ∧
  (∀ (x d : BitVec 5) (f : BitVec 4) (q : BitVec 2) (s : State) (p : Pick) (g : Group) (m : BitVec 64) (i : Nat) (l : Lane) (tm : Team)
    (h : BitVec 16), InTeam s p g m i l tm →
    (∀ e, h = g.handle i x.toNat → tm.current h = some e → renState e = 1#2 →
      (16 ≤ (tm.boxes.getD q.toNat []).length → ∃ t, exec (.tgiveRole x q) s = .next t ∧ RingWaits s t p g m) ∧
      ((tm.boxes.getD q.toNat []).length < 16 → ∃ t, exec (.tgiveRole x q) s = .next t ∧ t = { s with teams := t.teams } ∧
        EntryBecomes t tm (hLh h) (hGen h) 2#2 ∧
        BoxBecomes t tm q.toNat (tm.boxes.getD q.toNat [] ++ [{ handle := h, takeable := false }]))) ∧
    ((∀ b ∈ tm.boxes.getD g.role [], b.takeable = false) → ∃ t, exec (.ttakeRole d f) s = .next t ∧ RingWaits s t p g m) ∧
    (∀ before after, tm.boxes.getD g.role [] = before ++ { handle := h, takeable := true } :: after →
      (∀ b ∈ before, b.takeable = false) → Takeable s tm h f → s.lostWrite g.gid (64 + d.toNat) = false →
      ∃ t, exec (.ttakeRole d f) s = .next t ∧ t = { s with groups := t.groups, cur := t.cur, teams := t.teams } ∧
        EntryBecomes t tm (hLh h) (hGen h) 1#2 ∧ HandleBecomes t g i d.toNat h ∧ BoxBecomes t tm g.role (before ++ after)))

/-- `tld` and `tst` whose rows pass their checks are posted with the slot that they use: a load writes it and has given it the
format at issue, a store reads it; memory keeps its contents. A handle value that is not current traps (R363).
The model's choices in it: an access that waits for its own lane (log 64); which lanes a tile trap parks (log 80). -/
def Obligations.TileAccessesArePosted : Prop :=
  ∀ (h : BitVec 5) (a b : BitVec 8) (x : XM) (s : State) (p : Pick) (g : Group) (m k : BitVec 64) (i : Nat) (l : Lane) (tm : Team),
    InTeam s p g m i l tm → IsGuarded g m k →
    (tm.current (g.handle i h.toNat) = none → ∀ ins ∈ [Instr.tld h a b x, Instr.tst h a b x], ∃ t, exec ins s = .next t ∧
      OnlyParks s t p g m k (causeWith 0x12 0) ((g.handle i h.toNat).setWidth 64)) ∧
    ∀ (load : Bool) (at' : Nat × Nat) (f rb stride : Nat) (s₁ : State) (ps : List TilePiece), l.acq = [] →
      s.tileSlotOf tm g (g.handle i h.toNat) = some at' → f = (if load then x.mode.toNat else tagFmt (s.slot at'.1 at'.2).tag) →
      rb = tileRowBytes f → stride = (if Machine.src64 g i l b = 0#64 then rb else (Machine.src64 g i l b).toNat) → rb ≤ stride →
      s.checkRows g (Machine.src64 g i l a + x.off.signExtend 64) stride rb (if load then .load else .store) 0 [] (tileRows f) = (s₁, .ok ps) →
      s₁.tileHeld g i l (!load) (s₁.tileReqs g x (g.performing p m) i load ps) = false →
      ∃ t, exec (if load then .tld h a b x else .tst h a b x) s = .next t ∧ t.mem = s₁.mem ∧
        (∃ o : TileOp, t.tileOps = s₁.tileOps ++ [o] ∧ o.op = s₁.nextId ∧ o.gid = g.gid ∧
          o.kind = (if load then .load else .store) ∧ o.writes = if load then [at'] else []) ∧
        (if load then s₁.nextId ∈ (t.slot at'.1 at'.2).writers ∧ tagFmt (t.slot at'.1 at'.2).tag = x.mode.toNat % 16
         else s₁.nextId ∈ (t.slot at'.1 at'.2).readers ∧ (t.slot at'.1 at'.2).tag = (s₁.slot at'.1 at'.2).tag) ∧
        (t.slot at'.1 at'.2).data = (s₁.slot at'.1 at'.2).data ∧
        ∀ g₁, s₁.group? g.gid = some g₁ → ∃ g', t.group? g.gid = some g' ∧ GroupKept g₁ g' ∧
          (if load then g'.q3 = g₁.q3 ++ [s₁.nextId] ∧ g'.q1 = g₁.q1
           else g'.q3 = g₁.q3 ∧ ∃ n, g'.q1 = g₁.q1 ++ [{ op := s₁.nextId, left := n }])

/-- `tcvt` and `tspread` are posted on c3 with the tags of their tiles captured; a spread gives the slots of its blanket the
source's tag at issue (R364, R365). -/
def Obligations.ConversionsAndSpreadsArePosted : Prop :=
  ∀ (d a : BitVec 5) (s : State) (p : Pick) (g : Group) (m : BitVec 64) (i : Nat) (l : Lane) (tm : Team) (sa : Nat × Nat),
    InTeam s p g m i l tm → g.c3 < 63 → tm.ordinary (g.handle i a.toNat) = .ok sa →
    (∀ (slice : BitVec 3) (nan : BitVec 1) (sd : Nat × Nat) (oa od : OpTile), tm.ordinary (g.handle i d.toNat) = .ok sd →
      s.capture tm (g.handle i a.toNat) sa = .ok oa → s.capture tm (g.handle i d.toNat) sd = .ok od →
      ∃ t, exec (.tcvt d a slice nan) s = .next t ∧
        TilePosted s t g (.convert slice.toNat (nan == 1#1)) (some oa) (some od) (oa.at' :: oa.sides ++ od.sides) [sd]) ∧
    (∀ (q : BitVec 2) (all : BitVec 1) (e : DWord) (ws : List (Nat × Nat)), tm.current (g.handle i d.toNat) = some e →
      renBlanket e = true → ws = (if all = 1#1 then tm.slotsOf e else ((tm.slotsOf e)[q.toNat]?).toList) →
      ∃ t, exec (.tspread d a q all) s = .next t ∧
        TilePosted s t g .spread (some { core := sa.1, slot := sa.2, tag := (s.slot sa.1 sa.2).tag, scale := none, zero := none })
          none [sa] ws ∧ ∀ w ∈ ws, (t.slot w.1 w.2).tag = (s.slot sa.1 sa.2).tag)

/-- `ttag` writes the quantisation fields, or the exponent value, of the tag of every slot that its handle names, and no other
field and no other byte; a value that is not current traps (R352, R366).
`mx.acq` makes the group the owner of a free engine that has no stream and no queue, or the last of the queue, where its
guard-true lanes wait; `mx.rel` gives the engine back. An owner's `mx.acq` and another's `mx.rel` trap with MX_STATE (R374).
The model's choices in it: TRAP.VA of MX_STATE is free (log 31); which lanes a tile or matrix trap parks (log 80). -/
def Obligations.TagsAndOwnership : Prop :=
  (∀ (hd : BitVec 5) (s : State) (p : Pick) (g : Group) (m k : BitVec 64) (i : Nat) (l : Lane) (tm : Team), InTeam s p g m i l tm →
    IsGuarded g m k →
    (∀ (a b : BitVec 5) (gs : BitVec 2) (zv : BitVec 1) (gb : BitVec 5),
      (∀ e, tm.current (g.handle i hd.toNat) = some e → (tm.current (g.handle i a.toNat)).isSome = true →
        (zv = 1#1 → (tm.current (g.handle i b.toNat)).isSome = true) →
        ∃ t, exec (.ttag hd a b gs zv gb) s = .next t ∧ t = { s with cores := t.cores } ∧ ∀ w ∈ tm.slotsOf e,
          t.slot w.1 w.2 = { s.slot w.1 w.2 with tag := (t.slot w.1 w.2).tag } ∧
          fld (t.slot w.1 w.2).tag 0 4 = fld (s.slot w.1 w.2).tag 0 4 ∧ fld (t.slot w.1 w.2).tag 7 2 = gs ∧
          tagSv (t.slot w.1 w.2).tag = true ∧ tagZv (t.slot w.1 w.2).tag = (zv == 1#1) ∧ tagGb (t.slot w.1 w.2).tag = gb.toNat ∧
          tagSh (t.slot w.1 w.2).tag = g.handle i a.toNat ∧
          tagZh (t.slot w.1 w.2).tag = (if zv = 1#1 then g.handle i b.toNat else 0#16) ∧
          tagXval (t.slot w.1 w.2).tag = tagXval (s.slot w.1 w.2).tag) ∧
      (tm.current (g.handle i hd.toNat) = none → ∃ t, exec (.ttag hd a b gs zv gb) s = .next t ∧
        OnlyParks s t p g m k (causeWith 0x12 0) ((g.handle i hd.toNat).setWidth 64))) ∧
    ∀ xval : BitVec 16,
      (∀ e, tm.current (g.handle i hd.toNat) = some e → ∃ t, exec (.ttagXval hd xval) s = .next t ∧ t = { s with cores := t.cores } ∧
        ∀ w ∈ tm.slotsOf e, t.slot w.1 w.2 = { s.slot w.1 w.2 with tag := (t.slot w.1 w.2).tag } ∧
          fld (t.slot w.1 w.2).tag 0 48 = fld (s.slot w.1 w.2).tag 0 48 ∧ tagXval (t.slot w.1 w.2).tag = xval.toNat) ∧
      (tm.current (g.handle i hd.toNat) = none → ∃ t, exec (.ttagXval hd xval) s = .next t ∧
        OnlyParks s t p g m k (causeWith 0x12 0) ((g.handle i hd.toNat).setWidth 64))) ∧
  (∀ (s : State) (p : Pick) (g : Group) (m k : BitVec 64) (i : Nat) (l : Lane) (tm : Team) (n : Nat) (q : Quad), InTeam s p g m i l tm →
    IsGuarded g m k → n = tm.core / 4 → q = s.quad n →
    (q.owner = none → q.stream = none → q.ownerQ = [] → ∃ t, exec .mxAcq s = .next t ∧
      t = { s with groups := t.groups, quads := t.quads, sched := { s.sched with nextSeq := s.sched.nextSeq + 1 } } ∧
      t.quad n = { q with owner := some g.gid } ∧ t.group? g.gid = some { g with joined := s.sched.nextSeq }) ∧
    (∀ o, q.owner = some o → o ≠ g.gid → q.ownerQ.contains g.gid = false → q.ownerQ.length < 64 → ∃ t, exec .mxAcq s = .next t ∧
      t.quad n = { q with ownerQ := q.ownerQ ++ [g.gid] } ∧ t.mem = s.mem ∧ LeftPick t g m k ∧
      ∃ g', t.group? g.gid = some g' ∧ Waits p { g with joined := s.sched.nextSeq } g' k 1 .owner) ∧
    (q.owner = some g.gid → ∃ t va, exec .mxAcq s = .next t ∧ OnlyParks s t p g m k (causeWith 0x1A 0) va) ∧
    (q.owner = some g.gid → s.regains g = false → ∃ t, exec .mxRel s = .next t ∧ t = { s with quads := t.quads } ∧
      t.quad n = { q with owner := none }) ∧
    (q.owner ≠ some g.gid → s.regains g = false → ∃ t va, exec .mxRel s = .next t ∧
      OnlyParks s t p g m k (causeWith 0x1A 0) va))

/-- A pass, a blanket pass or `mx.zero` that passes its checks posts one entry of the reservation table with its operands, and
counts on c3; one that overwrites gives its accumulator tiles their kind at once. A pass that fails a check traps with the
check's cause (R368, R371, R372).
`mx.qpass` brings each of its row quarters to an entry of its key, an older one or its own: the entry holds the quarter with
the A tile and counts the operation, which counts on c3 (R371, R373).
The model's choices in it: a quarter-pass that gets an entry of its own (log 32); which lanes a matrix trap parks (log 80). -/
def Obligations.PassesPostOneEntry : Prop :=
  (∀ (r : BitVec 2) (a b : BitVec 5) (n : BitVec 8) (f : BitVec 1) (s : State) (p : Pick) (g : Group) (m k : BitVec 64) (i : Nat)
    (l : Lane) (tm : Team) (quad : Nat), InTeam s p g m i l tm → IsGuarded g m k → quad = tm.core / 4 →
    (∀ (blanket : Bool) (ins : Instr), ins = (if blanket then .mxBpass r a b n f else .mxPass r a b n f) →
      (∀ e, s.planPass tm (g.handle i a.toNat) (g.handle i b.toNat) n.toNat r.toNat (f == 1#1) blanket = .error e →
        ∃ t, exec ins s = .next t ∧ OnlyParks s t p g m k e.err.1 e.err.2) ∧
      (∀ pl, s.planPass tm (g.handle i a.toNat) (g.handle i b.toNat) n.toNat r.toNat (f == 1#1) blanket = .ok pl → g.c3 < 63 →
        (s.quad quad).resv.length < 64 → ∃ t e, exec ins s = .next t ∧
          t = { s with groups := t.groups, cores := t.cores, quads := t.quads, nextId := s.nextId + 2 } ∧
          (t.quad quad).resv = (s.quad quad).resv ++ [e] ∧
          EntryPosted e (if blanket then .blanket else .pass) tm g (tm.accBase + n.toNat) s.nextId ∧
          PassEntry e pl r.toNat (f == 1#1) ∧ (∀ row, row < 4 → ∃ x, (row, x, pl.a) ∈ e.rows) ∧
          (∀ x, x < (if blanket then 4 else 1) → s.accTile quad (tm.accBase + n.toNat + x) =
            { t.accTile quad (tm.accBase + n.toNat + x) with isInt := (s.accTile quad (tm.accBase + n.toNat + x)).isInt } ∧
            (f = 1#1 → (t.accTile quad (tm.accBase + n.toNat + x)).isInt = pl.isInt)) ∧
          ∃ g', OnlyIssued s t g g' ∧ g'.q3 = g.q3 ++ [s.nextId])) ∧
    (tm.accCount ≤ n.toNat → ∃ t va, exec (.mxZero n f) s = .next t ∧ OnlyParks s t p g m k (causeWith 0x18 0) va) ∧
    (n.toNat < tm.accCount → g.c3 < 63 → (s.quad quad).resv.length < 64 → ∃ t e, exec (.mxZero n f) s = .next t ∧
      (t.quad quad).resv = (s.quad quad).resv ++ [e] ∧ EntryPosted e .zero tm g (tm.accBase + n.toNat) s.nextId ∧
      (t.accTile quad (tm.accBase + n.toNat)).isInt = (f == 1#1) ∧
      (t.accTile quad (tm.accBase + n.toNat)).elems = (s.accTile quad (tm.accBase + n.toNat)).elems ∧
      ∃ g', OnlyIssued s t g g' ∧ g'.q3 = g.q3 ++ [s.nextId])) ∧
  (∀ (q r : BitVec 2) (a b : BitVec 5) (n : BitVec 8) (f : BitVec 1) (s : State) (p : Pick) (g : Group) (m : BitVec 64) (i : Nat)
    (l : Lane) (tm : Team) (quad : Nat) (pl : PassPlan), InTeam s p g m i l tm → quad = tm.core / 4 →
    s.planPass tm (g.handle i a.toNat) (g.handle i b.toNat) n.toNat r.toNat (f == 1#1) false = .ok pl → g.c3 < 63 →
    (s.quad quad).resv.length ≤ 56 → ∃ t, exec (.mxQpass q r a b n f) s = .next t ∧ t.mem = s.mem ∧
      (∃ g', OnlyIssued s t g g' ∧ g'.q3 = g.q3 ++ [s.nextId]) ∧
      ∀ (u : Nat) (j : Nat) (l' : Lane), u < 8 → 8 * u ≤ j → j < 8 * u + 8 → m.getLsbD j = true → g.lanes[j]? = some l' →
        l'.guard = true → ∃ e ∈ (t.quad quad).resv, e.kind = .pass ∧ e.launch = tm.launch ∧ e.team = tm.team ∧
          e.acc = tm.accBase + n.toNat ∧ PassEntry e pl r.toNat (f == 1#1) ∧ (∃ x, ((u + q.toNat) % 4, x, pl.a) ∈ e.rows) ∧
          (g.gid, s.nextId) ∈ e.counts)

/-- `mx.drain.tile` posts an entry with its destination, its half and its format, and counts on c3; `mx.epi` binds an epilogue
with its parameter handle, which must be current (R379, R381).
`mx.drain.mem` and `mx.drain.coll` whose checks hold issue an engine operation and post the entry that will bring its rows;
`mx.stream` of the owner captures the clauses of its body, past which every lane of the pick goes on (R375, R378, R380).
The model's choices in it: where the epilogue is found (log 34); the destination ranges of mx.drain.mem (log 35); which lanes
a matrix trap parks (log 80); mx.epi with a stale parameter handle (log 86); mx.stream in the middle of its clause (log 126). -/
def Obligations.DrainsAndStreamsPostTheirWork : Prop :=
  (∀ (s : State) (p : Pick) (g : Group) (m k : BitVec 64) (i : Nat) (l : Lane) (tm : Team) (quad : Nat), InTeam s p g m i l tm →
    IsGuarded g m k → quad = tm.core / 4 →
    (∀ (d : BitVec 5) (z h : BitVec 1) (n : BitVec 8) (f : BitVec 1) (at' : Nat × Nat) (fmt : Nat)
      (bound : Option Epilogue × Option OpTile), tm.ordinary (g.handle i d.toNat) = .ok at' →
      drainFmt (tagFmt (s.slot at'.1 at'.2).tag) = some fmt → s.planDrain g tm n.toNat (f == 1#1) (fmt == 1) = .ok bound →
      g.c3 < 63 → (s.quad quad).resv.length < 64 → ∃ t e, exec (.mxDrainTile d z h n f) s = .next t ∧
        t = { s with groups := t.groups, cores := t.cores, quads := t.quads, nextId := s.nextId + 2 } ∧
        (t.quad quad).resv = (s.quad quad).resv ++ [e] ∧ EntryPosted e .drainTile tm g (tm.accBase + n.toNat) s.nextId ∧
        e.half = h.toNat ∧ e.fmt = fmt ∧ e.epi = bound.1 ∧ e.param = bound.2 ∧ e.zeroAfter = (z == 1#1) ∧
        (∃ o, e.dst = some o ∧ o.core = at'.1 ∧ o.slot = at'.2) ∧
        (s.nextId + 1) ∈ (t.slot at'.1 at'.2).writers ∧ ∃ g', OnlyIssued s t g g' ∧ g'.q3 = g.q3 ++ [s.nextId]) ∧
    ∀ (h : BitVec 5) (x : XM) (bound : Bool), bound = x.mode.getLsbD 0 →
      (bound = true → tm.current (g.handle i h.toNat) = none → ∃ t, exec (.mxEpi h x) s = .next t ∧
        OnlyParks s t p g m k (causeWith 0x12 0) ((g.handle i h.toNat).setWidth 64)) ∧
      ((bound = true → (tm.current (g.handle i h.toNat)).isSome = true) → ∃ t, exec (.mxEpi h x) s = .next t ∧
        t = { s with groups := t.groups } ∧ OthersKept s t g.gid ∧
        t.group? g.gid = some { g with epi := some { param := if bound then some (g.handle i h.toNat) else none,
                                                     entry := p.hdr + x.off.signExtend 64 * 4#64 } })) ∧
  (∀ (a b : BitVec 8) (x : XM) (s : State) (p : Pick) (g : Group) (m : BitVec 64) (i : Nat) (l : Lane) (tm : Team) (quad opid : Nat),
    InTeam s p g m i l tm → quad = tm.core / 4 → s.freeOpid (quadOf g.core) = some opid → g.c2 < 63 →
    (s.quad quad).resv.length < 64 →
    (∀ (fmt rb stride : Nat) (ptr : DWord) (bound : Option Epilogue × Option OpTile), fmt = fldN x.mode 0 2 →
      rb = (if fmt < 2 then 128 else 64) → stride = (if x.off = 0 then rb else x.off.toNat) → ptr = Machine.src64 g i l a →
      s.planDrain g tm (src32 g i l b).toNat (x.mode.getLsbD 2) (fmt == 1) = .ok bound →
      (s.quad (quadOf g.core)).ranges.length +
        ((drainRanges ptr.toNat stride rb 32).reverse.flatMap fun r =>
          s.rangeOf g true false .drainMem (BitVec.ofNat 64 (128 * r.1)) (r.2 + 1 - r.1) opid).length ≤ 128 →
      ∃ t o e, exec (.mxDrainMem a b x) s = .next t ∧ t.mem = s.mem ∧ t.engOps = s.engOps ++ [o] ∧ o.id = s.nextId ∧ o.kind = .drainMem ∧
        o.opid = opid ∧ o.dst = ptr ∧ o.stride = stride ∧ o.rowBytes = rb ∧ o.gid = g.gid ∧ o.ready = false ∧
        (t.quad quad).resv = (s.quad quad).resv ++ [e] ∧ e.kind = .drainMem ∧ e.acc = tm.accBase + (src32 g i l b).toNat ∧
        e.fmt = fmt ∧ e.engOp = s.nextId ∧ e.epi = bound.1 ∧ e.param = bound.2 ∧ e.zeroAfter = x.mode.getLsbD 3 ∧
        ∃ g', OnlyIssued s t g g' ∧ g'.q2 = g.q2 ++ [s.nextId]) ∧
    (∀ (e₁ z : BitVec 1) (ctrl : DWord) (n : Nat) (bound : Option Epilogue × Option OpTile), n = fldN (g.scalar i (b.toNat - 0xC0)) 0 8 →
      ctrl = g.scalar i (b.toNat - 0xC0 + 1) → s.planDrain g tm n (e₁ == 1#1) (collFmt ctrl == 8) = .ok bound →
      s.collWaits (collSet ctrl) = none → badCollWord ctrl (s.collRanks (collSet ctrl)).length = false →
      (s.collRanks (collSet ctrl)).contains (s.thisNode, quadOf g.core) = true → (s.quad (quadOf g.core)).ranges.length ≤ 128 →
      ∃ t o e, exec (.mxDrainColl e₁ z a b x) s = .next t ∧ t.mem = s.mem ∧ t.engOps = s.engOps ++ [o] ∧ o.id = s.nextId ∧ o.kind = .drainColl ∧
        o.ctrl = ctrl ∧ o.dst = linePtr (g.scalar i (a.toNat - 0xC0)) ∧ o.rlen = g.scalar i (a.toNat - 0xC0 + 1) ∧ o.lines = 32 ∧
        (t.quad quad).resv = (s.quad quad).resv ++ [e] ∧ e.kind = .drainColl ∧ e.acc = tm.accBase + n ∧ e.engOp = s.nextId ∧
        e.zeroAfter = (z == 1#1) ∧ ∃ g', OnlyIssued s t g g' ∧ g'.q2 = g.q2 ++ [s.nextId]) ∧
    ∀ (ncl : BitVec 4) (s₁ : State) (clauses : List (Word × List Word)) (dest : DWord) (g₁ : Group),
      s.fetchRun g.core g.guest p.nextClause [] ncl.toNat = (s₁, .ok (clauses, dest)) → s₁.cur = some p → s₁.group? g.gid = some g₁ →
      g₁.lanes = g.lanes → g₁.core = g.core → g₁.gid = g.gid → g₁.frames = g.frames → g₁.s = g.s → g₁.c2 < 63 →
      s₁.freeOpid (quadOf g.core) = some opid → (s₁.quad (quadOf g.core)).ranges.length ≤ 128 →
      s₁.regains g₁ = false → s₁.awaits g.gid i = false → (s₁.quad (quadOf g.core)).owner = some g.gid →
      (s₁.quad (quadOf g.core)).stream = none → ∃ t st, exec (.mxStream ncl b x) s = .next t ∧ t.mem = s₁.mem ∧
        (t.quad (quadOf g.core)).stream = some st ∧ st.op = s₁.nextId ∧ st.gid = g.gid ∧
        st.count = fldN (g.scalar i (b.toNat - 0xC0)) 0 32 ∧ st.iter = 0 ∧ st.cmd = 0 ∧ st.body = clauses.flatMap (fun c => c.2) ∧
        st.cur = [none, none, none, none] ∧ st.statusVA = g.scalar i (b.toNat - 0xC0 + 2) ∧ st.stopped = none ∧
        (∃ o, t.engOps = s₁.engOps ++ [o] ∧ o.id = s₁.nextId ∧ o.kind = .stream ∧ o.started = true) ∧
        ∃ g', t.group? g.gid = some g' ∧ g'.q2 = g₁.q2 ++ [s₁.nextId] ∧ LanesTo g₁ g' fun j l l' => l'.v = l.v ∧ l'.p = l.p ∧
          l'.lat = l.lat ∧ (m.getLsbD j = true → l'.target = some dest ∧ l'.past = ncl.toNat))

/-! ### Class 4: the Hamper -/

/-- `hm.put`, `hm.rput` and `hm.get` in a key space that the group may name: each guard-true lane puts one record at its home
slice, or the lanes' one request visits the slices; D or the block's 14 registers await the answers. Another key space traps
with HM_KSPACE (R388, R403 to R406).
The model's choices in it: TRAP.VA of HM_KSPACE is free (log 31); how a get visits the slices (log 93). -/
def Obligations.RecordsArePutAndGot : Prop :=
  ∀ (d : BitVec 7) (w : BitVec 1) (a ks : BitVec 8) (op : BitVec 5) (s : State) (p : Pick) (g : Group) (m act : BitVec 64),
    HamperIssues s p g m act →
    (∀ ins ∈ [Instr.hmPut d w a ks op, Instr.hmRput d w a ks, Instr.hmGet d ks, Instr.hmDone ks], s.ksOk g ks.toNat = false →
      ∃ t va, exec ins s = .next t ∧ OnlyParks s t p g m act (causeWith 0x1B 0) va) ∧
    (∀ (ins : Instr) (o : Nat), (ins = .hmPut d w a ks op ∧ o = op.toNat ∨ ins = .hmRput d w a ks ∧ o = 0x19) → s.ksOk g ks.toNat = true →
      ∃ t, exec ins s = .next t ∧ HamperIssued s t g act (if w = 1#1 then none else some (d.toNat, 1)) fun rs =>
        rs.length = ((g.lanes.zipIdx).filter fun e => act.getLsbD e.2).length ∧
        ∀ (n : Nat) (l : Lane), act.getLsbD n = true → g.lanes[n]? = some l → ∃ r ∈ rs,
          r.kind = .hamper (if o = 0x19 then 1 else 0) ∧ r.words = recordWords s g l a.toNat ks.toNat o (opWords o) ∧
          r.slice = (if o = 0x19 then g.core / 4 else hamperHome ks.toNat (l.reg (a.toNat + 3) ++ l.reg (a.toNat + 2))) ∧
          ∃ q, r.parts = [q] ∧ q.lane = n ∧ q.dst = if w = 1#1 then none else some d.toNat) ∧
    (s.ksOk g ks.toNat = true → ∃ t, exec (.hmGet d ks) s = .next t ∧ HamperIssued s t g act (some (d.toNat, 14)) fun rs =>
      ∃ r, rs = [r] ∧ r.kind = .hamper 2 ∧ r.words = [ks.setWidth 64, 0#64] ∧ r.slice = g.core / 4 ∧
        (r.parts.map fun q => q.lane) = (List.range g.lanes.length).filter (fun n => act.getLsbD n) ∧
        ∀ q ∈ r.parts, q.dst = some d.toNat)

/-- `hm.done`: each guard-true lane takes one record out of the group's in-flight table and out of LIVE of its key space; with
none in flight the lanes trap with HM_STATE (R407, R411).
`hm.kscfg` and the moves of a whole guest send one request with their operands, and D awaits the answer: OPEN needs the
Hamper's guest, QUERY and CLOSE a key space that the group may name (R388, R408, R409).
The model's choices in it: TRAP.VA of HM_KSPACE and HM_STATE is free (log 31); key-space functions for a guest that the
Hamper does not hold (log 36). -/
def Obligations.DoneAndKeySpaceFunctions : Prop :=
  (∀ (ks : BitVec 8) (s : State) (p : Pick) (g : Group) (m act : BitVec 64) (n : Nat), HamperIssues s p g m act →
    s.ksOk g ks.toNat = true → n = ((g.lanes.zipIdx).filter fun e => act.getLsbD e.2).length →
    (n ≤ g.inflightOf ks.toNat → ∃ t, exec (.hmDone ks) s = .next t ∧ t = { s with groups := t.groups, hamper := t.hamper } ∧
      OthersKept s t g.gid ∧ (∀ j, j ≠ ks.toNat → t.ks j = s.ks j) ∧ ksOpen (t.ks ks.toNat) = true ∧
      ksLive (t.ks ks.toNat) = ksLive (s.ks ks.toNat) - BitVec.ofNat 32 n ∧
      ∃ g', t.group? g.gid = some g' ∧ g' = { g with inflight := g'.inflight } ∧ g'.inflightOf ks.toNat = g.inflightOf ks.toNat - n) ∧
    (g.inflightOf ks.toNat = 0 → ∃ t va, exec (.hmDone ks) s = .next t ∧ OnlyParks s t p g m act (causeWith 0x1D 0) va)) ∧
  (∀ (d : BitVec 7) (w : BitVec 1) (a b ks : BitVec 8) (gn : BitVec 12) (s : State) (p : Pick) (g : Group) (m act : BitVec 64) (i : Nat)
    (l : Lane), HamperIssues s p g m act → Leads g m i l →
    (s.hamper.guest = some g.guest → ∃ t, exec (.hmKscfgOpen d w a b ks) s = .next t ∧
      HamperIssued s t g act (if w = 1#1 then none else some (d.toNat, 1)) fun rs => ∃ r, rs = [r] ∧ r.kind = .hamper 3 ∧
        r.words = [0#64, ks.setWidth 64, Machine.src64 g i l a, Machine.src64 g i l b]) ∧
    (s.hamper.guest ≠ some g.guest → ∃ t va, exec (.hmKscfgOpen d w a b ks) s = .next t ∧
      OnlyParks s t p g m act (causeWith 0x1B 0) va) ∧
    (∀ (ins : Instr) (fn : DWord), (ins = .hmKscfgQuery d w ks ∧ fn = 1#64 ∨ ins = .hmKscfgClose d w ks ∧ fn = 2#64) →
      (s.ksOk g ks.toNat = true → ∃ t, exec ins s = .next t ∧
        HamperIssued s t g act (if w = 1#1 then none else some (d.toNat, 1)) fun rs => ∃ r, rs = [r] ∧ r.kind = .hamper 3 ∧
          r.words.take 2 = [fn, ks.setWidth 64]) ∧
      (s.ksOk g ks.toNat = false → ∃ t va, exec ins s = .next t ∧ OnlyParks s t p g m act (causeWith 0x1B 0) va)) ∧
    ∀ (ins : Instr) (f : Nat), (ins = .hmGdrain d a b gn ∧ f = 4 ∨ ins = .hmGreload d a b gn ∧ f = 5) → ∃ t, exec ins s = .next t ∧
      HamperIssued s t g act (some (d.toNat, 1)) fun rs => ∃ r, rs = [r] ∧ r.kind = .hamper f ∧
        r.words = [gn.setWidth 64, Machine.src64 g i l a, Machine.src64 g i l b])

/-! ### Operands and atomics -/

/-- The constant selectors have the values of R189, in 32 bits and, sign- or zero-extended, in 64; the selectors of a
floating-point constant are not legal as a 64-bit operand. -/
def Obligations.ConstantSelectorsGiveTheirValues : Prop :=
  ∀ (g : Group) (i : Nat) (l : Lane), i < 64 → g.width ≤ 64 →
    (Machine.src32 g i l 0x84 = 0x00000000#32 ∧ Machine.src64 g i l 0x84 = 0#64) ∧
    ((Machine.src32 g i l 0x85).toNat = i ∧ (Machine.src64 g i l 0x85).toNat = i) ∧
    ((Machine.src32 g i l 0x86).toNat = g.width ∧ (Machine.src64 g i l 0x86).toNat = g.width) ∧
    (Machine.src32 g i l 0x87 = 0xFFFFFFFF#32 ∧ Machine.src64 g i l 0x87 = 0xFFFFFFFFFFFFFFFF#64) ∧
    [0x88#8, 0x89, 0x8A, 0x8B, 0x8C, 0x8D, 0x8E, 0x8F].map (Machine.src32 g i l) = [0x3F800000#32, 0x3F000000, 0x40000000,
      0x7F800000, 0xFF800000, 0x7FC00000, 0x7F7FFFFF, 0x00800000] ∧
    (∀ a : BitVec 8, 0x88 ≤ a.toNat → a.toNat < 0x90 → Sys2Proof.src64 a = some .illegalOperand) ∧
    (∀ a : BitVec 8, 0x90 ≤ a.toNat → a.toNat < 0xB0 → (Machine.src32 g i l a).toInt = (a.toNat : Int) - 0x90 ∧
      (Machine.src64 g i l a).toInt = (a.toNat : Int) - 0x90) ∧
    ∀ a : BitVec 8, 0xB0 ≤ a.toNat → a.toNat < 0xC0 → (Machine.src32 g i l a).toInt = (a.toNat : Int) - 0xC0 ∧
      (Machine.src64 g i l a).toInt = (a.toNat : Int) - 0xC0

/-- The new value that each atomic gives its location, from the old value `m`, the operand `x` and the swap value `y` of R333;
and a second lane at the same bytes finds what the first one wrote (R334). -/
def Obligations.AtomicsComputeTheirOperation : Prop :=
  (∀ m x y : BitVec 128,
    ((atomValue .add 4 m x y).toNat = (m.toNat + x.toNat) % 2 ^ 32 ∧ (atomValue .add 8 m x y).toNat = (m.toNat + x.toNat) % 2 ^ 64) ∧
    (let v := (atomValue .mini 4 m x y).setWidth 32; v.toInt = min (m.setWidth 32).toInt (x.setWidth 32).toInt) ∧
    (let v := (atomValue .maxi 4 m x y).setWidth 32; v.toInt = max (m.setWidth 32).toInt (x.setWidth 32).toInt) ∧
    (let v := (atomValue .mini 8 m x y).setWidth 64; v.toInt = min (m.setWidth 64).toInt (x.setWidth 64).toInt) ∧
    (let v := (atomValue .maxi 8 m x y).setWidth 64; v.toInt = max (m.setWidth 64).toInt (x.setWidth 64).toInt) ∧
    ((atomValue .minn 4 m x y).toNat = min (m.toNat % 2 ^ 32) (x.toNat % 2 ^ 32) ∧
      (atomValue .maxn 4 m x y).toNat = max (m.toNat % 2 ^ 32) (x.toNat % 2 ^ 32)) ∧
    (∀ k, k < 128 → (atomValue .and 4 m x y).getLsbD k = (decide (k < 32) && (m.getLsbD k && x.getLsbD k)) ∧
      (atomValue .or 4 m x y).getLsbD k = (decide (k < 32) && (m.getLsbD k || x.getLsbD k)) ∧
      (atomValue .xor 4 m x y).getLsbD k = (decide (k < 32) && (m.getLsbD k ^^ x.getLsbD k))) ∧
    ((atomValue .xchg 4 m x y).toNat = x.toNat % 2 ^ 32 ∧ (atomValue .xchg 8 m x y).toNat = x.toNat % 2 ^ 64) ∧
    (atomValue .cas 4 m x y).toNat = (if m.toNat % 2 ^ 32 = x.toNat % 2 ^ 32 then y.toNat else m.toNat) % 2 ^ 32 ∧
    (atomValue .cas 8 m x y).toNat = (if m.toNat % 2 ^ 64 = x.toNat % 2 ^ 64 then y.toNat else m.toNat) % 2 ^ 64 ∧
    atomValue .addf 4 m x y = (fadd .ne (m.setWidth 32) (x.setWidth 32)).setWidth 128) ∧
  ∀ (op : AtomOp) (size : Nat) (d : LineData) (p q : Part), (size = 4 ∨ size = 8) → p.off = 0 → p.len = size → q.off = 0 →
    q.len = size → q.pa = p.pa → p.pa % 128 + size ≤ 128 → ∃ v w, (atomParts op size d [p, q]).2 = [{ p with value := v }, { q with value := w }] ∧
      w = atomValue op size v p.data p.data2 ∧ (∀ k, k < 8 * size → v.getLsbD k = d.getLsbD (8 * (p.pa % 128) + k))

/-! ### The steps that are no instructions -/

/-- The vote point of a slot and the granting of grow requests: each such step completes in every state, and what the rules of the
vote and of growing give then holds (R165 to R167, R176 to R178).
The model's choices in it: when such a step comes (log 1); ties that the manual leaves open (log 16, log 129); when a
picked lane's age becomes 0 (log 123). -/
def Obligations.VoteAndGrowStepsHold : Prop :=
  ∀ (i : Instr) (s : State) (e : State → Prop), voteEffect s i = some e → ∃ t, exec i s = .next t ∧ e t

/-- Writes of a doorbell, the taking up of a launch descriptor, placement, completion records and the scheduler's limits: each such step
completes in every state, and what the rules of launching give then holds (R426 to R439).
The model's choices in it: what a context is (log 10); where placement puts a group (log 39); guest and tenant of a launch
(log 40); storage of frozen contexts (log 95); lines of other modules that the firmware reads (log 130). -/
def Obligations.LaunchStepsHold : Prop :=
  ∀ (i : Instr) (s : State) (e : State → Prop), launchEffect s i = some e → ∃ t, exec i s = .next t ∧ e t

/-- Requests and deadlines of a pre-emption, the freezing of a context, rotation and restore: each such step completes in every
state, and what the rules of pre-emption give then holds (R450 to R459).
The model's choices in it: when a deadline passes (log 4); what a context is (log 10); an image is plain data (log 11); a
restored owner of the engine (log 37); dirty stash lines that cannot be written back (log 38); storage of frozen contexts
(log 95); a team with a running stream (log 96); how a save is cut into steps (log 100); the L1 of a restore (log 119). -/
def Obligations.PreemptionStepsHold : Prop :=
  ∀ (i : Instr) (s : State) (e : State → Prop), preemptEffect s i = some e → ∃ t, exec i s = .next t ∧ e t

/-- Trap delivery, the handler limit and the debugger's resume, and the steps of admission: each such step completes in every
state. Handler entry keeps the registers and fills the trap registers, and an admission request ends in the record of its
verdict (R219 to R253, R443 to R448).
The model's choices in it: a kernel number or page in use (log 57); what makes a request trusted (log 58); a result record
that cannot be written (log 59); what seals are cleared (log 60); lines of other modules that an engine reads (log 130). -/
def Obligations.TrapAndStileStepsHold : Prop :=
  (∀ (i : Instr) (s : State) (e : State → Prop), trapEffect s i = some e → ∃ t, exec i s = .next t ∧ e t) ∧
  (∀ (i : Instr) (s : State) (e : State → Prop), stileEffect s i = some e → ∃ t, exec i s = .next t ∧ e t)

/-- Commands of the invalidation queues and what the walkers and the firmware do to the tables: each such step completes in every
state, and what the rules of translation give then holds (R40 to R48).
The model's choices in it: a walk is one step, and waits for its lines (log 9, log 105); which entry a full TLB
replaces (log 22). -/
def Obligations.TranslationStepsHold : Prop :=
  ∀ (i : Instr) (s : State) (e : State → Prop), translationEffect s i = some e → ∃ t, exec i s = .next t ∧ e t

/-- Results that return, requests that perform at their homes, drains of the coalescing buffer, and fills and recalls of stash lines:
each such step completes in every state; on a line that nothing else is using a load answers the bytes of memory, a store
changes exactly the bytes of its parts, and an atomic performs its lanes in ascending order as one run (R57 to R76, R324 to R334).
The model's choices in it: a byte that nothing has written (log 2); an access that crosses a line (log 25); a trap that an
answer brings (log 27); late results and latches (log 54); retention of a request that brings none (log 111). -/
def Obligations.MemoryStepsHold : Prop :=
  ∀ (i : Instr) (s : State) (e : State → Prop), memoryEffect s i = some e → ∃ t, exec i s = .next t ∧ e t

/-- Steps of flasks, tickets, locks, engines and the roll-call: each such step completes in every state, and what the rules of those
units give then holds (R77 to R83, R144 to R152, R338 to R348).
The model's choices in it: how an engine waits for a line (log 24); a seqcst fence (log 73); details of collectives (log 76);
when a copy reads (log 78); when an engine acquires (log 79); when a ticket is asked for (log 128). -/
def Obligations.SyncStepsHold : Prop :=
  ∀ (i : Instr) (s : State) (e : State → Prop), syncEffect s i = some e → ∃ t, exec i s = .next t ∧ e t

/-- What the host does at the homes of the lines that it shares, its reads and writes and its actions on halves of lines: each such
step completes in every state, and what the rules of the host as a sharer give then holds (R105 to R110).
The model's choices in it: how the home asks for a half (log 24); host write-backs perform at once (log 70); MIG of a host
request (log 116). -/
def Obligations.HostStepsHold : Prop :=
  ∀ (i : Instr) (s : State) (e : State → Prop), hostEffect s i = some e → ∃ t, exec i s = .next t ∧ e t

/-- The messages and the refusals of the chain protocol: each such step completes in every state, and what the rules of homes, of
sharers and of their answers give then holds (R92 to R104). Under the conditions that the rules give for it, each message has its
own effect: at the home of a line (`read`, `own`, `unhead`, `done`, `wb`, `purgeAnswerCopy`, `fetchAnswer`, `recallAnswer`,
and `purgeAnswer` to a home that walks), and at a caching entry (`fetch`, `recall`, `data`, `grant`, `purge`, `purgeAnswer` to an
entry that walks, `setfwd`, `setback`, `ack`, `notHead`, `stale`, `retry`, `retryResend`).
The model's choices in it: what other modules send is an argument of the step (log 84); WAY of a pointer to the home (log 110). -/
def Obligations.ChainStepsHold : Prop :=
  (∀ (i : Instr) (s : State) (e : State → Prop), chainEffect s i = some e → ∃ t, exec i s = .next t ∧ e t) ∧
  (∀ (s : State) (line : Nat) (src p : ChainPtr) (inc : BitVec 8) (dirty poison : Bool) (d : LineData), Accepts s line src inc →
    (QuietLine s line → (∃ t, exec (.read line src inc false) s = .next t ∧ ReadAnswered s t line src nullPtr) ∧
      ∃ t, exec (.own line src inc false) s = .next t ∧ OwnGranted s t line src) ∧
    ∀ h, s.tag? line = some h →
      (h.hst = 1#3 → h.head = src → s.holds src (.unhead p) = false →
        exec (.unhead line src inc p) s = .next ((unheaded s line p).send (homeMsg s line src .ack))) ∧
      (h.hst = 3#3 → h.homeWalk = false → ptrNode h.head = ptrNode src →
        exec (.done line src inc) s = .next ((s.updTag line fun x => { x with hst := 2#3, head := src }).pumpAll line)) ∧
      (h.hst = 2#3 → ptrNode h.head = ptrNode src → h.queue = [] →
        ∃ t, exec (.wb line src inc dirty ⟨poison, d⟩) s = .next t ∧ HolderAnswered s t line dirty poison d 0#3) ∧
      (h.hst = 3#3 → exec (.purgeAnswerCopy line src inc p) s = .next (s.updTag line fun x => { x with walkPos := p })) ∧
      (h.hst = 4#3 → ptrNode h.head = ptrNode src → h.queue = [] →
        (∃ t, exec (.fetchAnswer line src inc dirty ⟨poison, d⟩) s = .next t ∧ HolderAnswered s t line dirty poison d 1#3) ∧
          ∃ t, exec (.recallAnswer line src inc dirty ⟨poison, d⟩) s = .next t ∧ HolderAnswered s t line dirty poison d 0#3) ∧
      (keyNode line = none → h.hst = 3#3 → h.homeWalk = true → p ≠ nullPtr →
        exec (.purgeAnswer line src inc p) s =
          .next ((s.updTag line fun x => { x with walkPos := p }).send (homeMsg s line p .purge)))) ∧
  (∀ (s : State) (line : Nat) (old : ChainPtr) (inc : BitVec 8) (poison : Bool) (d : LineData) (c : CacheTag),
    s.incOk (homeNode line) inc = true → s.cacheTag? line = some c → c.queue = [] →
    (c.cst = 7#4 ∨ c.cst = 8#4 → s.running line = false →
      (∃ t, exec (.fetch line inc) s = .next t ∧ t.mem = s.mem ∧
        t.outbox = s.outbox ++ [toHomeMsg s line (.fetchAnswer (c.cst == 8#4) c.poison c.data)] ∧
        EntryIs t line { c with cst := 3#4, fwd := nullPtr, back := homePtr line }) ∧
      ∃ t, exec (.recall line inc) s = .next t ∧ t.mem = s.mem ∧
        t.outbox = s.outbox ++ [toHomeMsg s line (.recallAnswer (c.cst == 8#4) c.poison c.data)] ∧ t.cacheTag? line = none) ∧
    (c.cst = 1#4 → ∃ t, exec (.data line inc nullPtr false poison d) s = .next t ∧ t.outbox = s.outbox ∧
      EntryIs t line { c with data := d, poison := poison, backoff := 0, fwd := nullPtr, back := homePtr line, cst := 3#4 }) ∧
    (c.cst = 1#4 → old ≠ nullPtr → ∃ t, exec (.data line inc old false poison d) s = .next t ∧
      t.outbox = s.outbox ++ [entryMsg s line old (.setback (s.selfPtr line))] ∧
      EntryIs t line { c with data := d, poison := poison, backoff := 0, fwd := old, back := homePtr line, cst := 2#4 }) ∧
    (c.cst = 5#4 → ∃ t, exec (.grant line inc nullPtr false poison d) s = .next t ∧ t.outbox = s.outbox ∧
      EntryIs t line { c with data := d, poison := poison, backoff := 0, fwd := nullPtr, back := homePtr line, cst := 7#4 }) ∧
    (c.cst = 5#4 → old ≠ nullPtr → ∃ t, exec (.grant line inc old false poison d) s = .next t ∧
      t.outbox = s.outbox ++ [entryMsg s line old .purge] ∧
      EntryIs t line { c with data := d, poison := poison, backoff := 0, fwd := nullPtr, back := homePtr line, cst := 6#4, target := old }) ∧
    (c.cst ≠ 0#4 → exec (.notHead line inc) s = .next s)) ∧
  (∀ (s : State) (line : Nat) (src p : ChainPtr) (inc : BitVec 8) (c : CacheTag), s.incOk (ptrNode src) inc = true →
    s.cacheTag? line = some c → c.queue = [] → (∀ o ∈ s.plat.orphans, o.key ≠ line) →
    (c.cst = 3#4 → ∃ t, exec (.purge line inc src) s = .next t ∧ t.cacheTag? line = none ∧
      t.outbox = s.outbox ++ [entryMsg s line src (.purgeAnswer c.fwd), toHomeMsg s line (.purgeCopy c.fwd)]) ∧
    (∀ node, keyNode line = some node → c.cst = 6#4 → p ≠ nullPtr →
      exec (.purgeAnswer line src inc p) s = .next ((s.updCache line fun x => { x with target := p }).send (entryMsg s line p .purge))) ∧
    (c.cst = 3#4 → s.holds src (.setfwd p) = false →
      exec (.setfwd line src inc p) s = .next ((s.updCache line fun x => { x with fwd := p }).send (entryMsg s line src .ack))) ∧
    (c.cst = 3#4 → s.holds src (.setback p) = false → ∃ t, exec (.setback line src inc p) s = .next t ∧
      t.outbox = s.outbox ++ [entryMsg s line src .ack] ∧ EntryIs t line { c with back := p }) ∧
    (c.cst = 4#4 → 1 < c.acks → exec (.ack line src inc) s = .next (s.updCache line fun x => { x with acks := x.acks - 1 })) ∧
    (c.cst = 4#4 → c.acks ≤ 1 → ∃ t, exec (.ack line src inc) s = .next t ∧ t.cacheTag? line = none) ∧
    (c.cst = 4#4 → 1 < c.acks → exec (.stale line src inc) s = .next (s.updCache line fun x => { x with acks := x.acks - 1 })) ∧
    (c.cst = 1#4 ∨ c.cst = 5#4 → exec (.retry line src inc) s = .next (s.updCache line fun x =>
      { x with backoff := if x.backoff = 0 then 64 else min 8192 (2 * x.backoff) })) ∧
    (c.backoff ≠ 0 → c.cst = 1#4 → exec (.retryResend line) s = .next (s.send (toHomeMsg s line (.read (s.headMig c))))) ∧
    (c.backoff ≠ 0 → c.cst = 5#4 → exec (.retryResend line) s = .next (s.send (toHomeMsg s line (.own (s.headMig c))))))

/-- Migration of pages and the repair after an agent dies: each such step completes in every state, and what the rules of those give
then holds (R111 to R124).
The model's choices in it: a destination that refuses the page (log 72, log 118); a repair of a busy line (log 75); what other
modules send (log 84); the number of the host (log 103); a count at its end (log 109); a CADDR that takes no word (log 117). -/
def Obligations.MigrationAndDeathStepsHold : Prop :=
  ∀ (i : Instr) (s : State) (e : State → Prop), agentEffect s i = some e → ∃ t, exec i s = .next t ∧ e t

/-- Tile operations, passes, stream commands, and records at their slices: each such step completes in every state, and what the rules of
those units give then holds (R360 to R383, R392 to R409, R441).
The model's choices in it: an epilogue whose code cannot be read (log 34); stream errors (log 89); a split range record
(log 91); how a get visits the slices (log 93); records in flight of a guest that is away (log 122). -/
def Obligations.TileAndHamperStepsHold : Prop :=
  ∀ (i : Instr) (s : State) (e : State → Prop), unitEffect s i = some e → ∃ t, exec i s = .next t ∧ e t

/-- Resets of functions, losses of the host link, ports and the forming of a domain: each such step completes in every state, and what
the rules of those give then holds (R123, R465, R476 to R482).
A Function Level Reset under way ends, with nothing of its guest left, once no context of another guest is on its quads (R476).
The model's choices in it: what other modules send (log 84); how a reset is cut into steps (log 131). -/
def Obligations.LinkStepsHold : Prop :=
  (∀ (i : Instr) (s : State) (e : State → Prop), linkEffect s i = some e → ∃ t, exec i s = .next t ∧ e t) ∧
  ∀ (s : State) (n : Nat) (quads : List Nat), OthersAway s n quads → GuestGone (s.goOnReset (n, quads)) n

/-- Power, the management controller, firmware, debug states, repair and register writes: each such step completes in every state, and
what the rules of the platform give then holds (R463, R474, R475, R483 to R489).
The model's choices in it: the state of the platform at reset (log 15); which range a retire request names (log 41); how the
firmware answers (log 61); where the registers of a function lie (log 101). -/
def Obligations.PlatformStepsHold : Prop :=
  ∀ (i : Instr) (s : State) (e : State → Prop), platformEffect s i = some e → ∃ t, exec i s = .next t ∧ e t

/-! ### Reset -/

/-- What the spec says of the machine after reset: the registers with a reset value hold it, no team and no group is resident
and no launch runs, and the tables of the caches, flasks, key spaces, renames and range locks are empty (R43, R64, R124, R426,
R450, R463, R475, R489). -/
def Obligations.ResetHoldsTheStatedValues : Prop :=
  let s := State.reset
  (∀ fn q, s.sq fn q = { base := 0, ctrl := 0, tail := 0, head := 0 }) ∧
  (∀ d, s.die d = { s.die d with purgeDL := 0x000003E8#32, migCtrl := 0x010003E800000000#64, pqBase := 0, pqHead := 0, pqTail := 0,
                                 rqTail := 0, rqHead := 0 }) ∧
  s.regs.gdtBase = 0 ∧ s.regs.hloss = 0 ∧ s.regs.domNode = 0 ∧ s.regs.domCtrl = 0 ∧ s.regs.pwrLimit = 0x0E10#64 ∧
  s.regs.featNative = 0xFFFFF#256 ∧ s.regs.qrep = 0 ∧ s.regs.hbmRetire = 0 ∧ (∀ quad, alookup s.plat.qstates quad 0#3 = 0#3) ∧
  s.groups = [] ∧ s.teams = [] ∧ s.sched.launches = [] ∧ s.ports = [] ∧ s.reqs = [] ∧ s.flasks = [] ∧ s.home.tags = []
end

