-- ==== Sys2Proof/Laws/Lanes.lean ====
section
/-! SUPPORT. What the lane-wise operations do, said once: `mapPick` and the three shapes of a result. -/

namespace Sys2Proof.Laws

open Sys2Proof.Machine Sys2Proof.Claims

theorem reg_eq (l : Lane) (n : Nat) (h : n < 128) : l.reg n = l.v[n] := by simp [Lane.reg, h]

/-- Writing a register reads back there and leaves the others. -/
theorem setReg_reg (l : Lane) (d n : Nat) (x : Word) (hd : d < 128) (hn : n < 128) :
    (l.setReg d x).reg n = if n = d then x else l.reg n := by
  simp only [Lane.setReg, hd, dif_pos, Lane.reg, hn]
  by_cases h : n = d
  · subst h; simp
  · rw [if_neg h, Vector.getElem_set_ne]; omega

@[simp] theorem setReg_lat (l : Lane) (d : Nat) (x : Word) : (l.setReg d x).lat = l.lat := by
  unfold Lane.setReg; split <;> rfl
@[simp] theorem setReg_guard (l : Lane) (d : Nat) (x : Word) : (l.setReg d x).guard = l.guard := by
  unfold Lane.setReg; split <;> rfl
theorem setReg_pend (l : Lane) (d : Nat) (x : Word) (hd : d < 128) :
    (l.setReg d x).pend = l.pend.filter fun e => e.1 != d := by
  unfold Lane.setReg; simp [hd]
/-- Nothing of a lane but its registers and the results on their way to them. -/
theorem setReg_rest (l : Lane) (d : Nat) (x : Word) :
    l.setReg d x = { l with v := (l.setReg d x).v, pend := (l.setReg d x).pend } := by
  unfold Lane.setReg; split <;> rfl

theorem result32_kept (l : Lane) (d : Nat) (w : BitVec 1) (x : Word) :
    l.result32 d w x = { l with v := (l.result32 d w x).v, lat := (l.result32 d w x).lat, pend := (l.result32 d w x).pend } := by
  unfold Lane.result32 Lane.setReg Lane.push32
  split <;> split <;> (try split) <;> rfl

theorem result32_spec (l : Lane) (d : Nat) (w : BitVec 1) (x : Word) (hd : d < 128) :
    Result32 l (l.result32 d w x) d w x := by
  refine ⟨result32_kept l d w x, ?_, ?_⟩ <;> by_cases hg : l.guard = true <;> by_cases hw : w = 0#1
  · simp only [hg, hw, and_self, if_true]
    refine ⟨fun n hn => ?_, ?_⟩
    · simpa [Lane.result32, hg, hw, Lane.push32, Lane.reg] using setReg_reg l d n x hd hn
    · simpa [Lane.result32, hg, hw, Lane.push32] using setReg_pend l d x hd
  all_goals simp [Lane.result32, hg, hw, Lane.push32]

theorem setPair_reg (l : Lane) (d n : Nat) (x : DWord) (hd : d + 1 < 128) (hn : n < 128) :
    (l.setPair d x).reg n =
      if n = d then x.extractLsb' 0 32 else if n = d + 1 then x.extractLsb' 32 32 else l.reg n := by
  unfold Lane.setPair
  rw [setReg_reg _ _ _ _ hd hn, setReg_reg _ _ _ _ (by omega) hn]
  by_cases h : n = d
  · subst h; simp
  · simp [h]

theorem setPair_pend (l : Lane) (d : Nat) (x : DWord) (hd : d + 1 < 128) :
    (l.setPair d x).pend = (l.pend.filter fun e => e.1 != d).filter fun e => e.1 != d + 1 := by
  unfold Lane.setPair
  rw [setReg_pend _ _ _ hd, setReg_pend _ _ _ (by omega)]

@[simp] theorem setPair_lat (l : Lane) (d : Nat) (x : DWord) : (l.setPair d x).lat = l.lat := by simp [Lane.setPair]

theorem result64_kept (l : Lane) (d : Nat) (w : BitVec 1) (x : DWord) :
    l.result64 d w x = { l with v := (l.result64 d w x).v, lat := (l.result64 d w x).lat, pend := (l.result64 d w x).pend } := by
  unfold Lane.result64 Lane.setPair Lane.setReg Lane.push64
  split <;> split <;> (try split) <;> (try split) <;> rfl

theorem pair_low (l : Lane) (d : Nat) : (l.pair d).extractLsb' 0 32 = l.reg d := by
  unfold Lane.pair; exact BitVec.extractLsb'_append_eq_right
theorem pair_high (l : Lane) (d : Nat) : (l.pair d).extractLsb' 32 32 = l.reg (d + 1) := by
  unfold Lane.pair; exact BitVec.extractLsb'_append_eq_left

theorem result64_spec (l : Lane) (d : Nat) (w : BitVec 1) (x : DWord) (hd : d + 1 < 128) :
    Result64 l (l.result64 d w x) d w x := by
  refine ⟨result64_kept l d w x, ?_, ?_⟩ <;> by_cases hg : l.guard = true <;> by_cases hw : w = 0#1
  · simp only [hg, hw, and_self, if_true]
    refine ⟨fun n hn => ?_, ?_⟩
    · simpa [Lane.result64, hg, hw, Lane.push64, Lane.reg] using setPair_reg l d n x hd hn
    · simpa [Lane.result64, hg, hw, Lane.push64] using setPair_pend l d x hd
  all_goals simp [Lane.result64, hg, hw, Lane.push64, pair_low, pair_high]

theorem setPred_pred (l : Lane) (p n : Nat) (c : Bool) (hp : p < 8) (hn : n < 8) :
    (l.setPred p c).pred n = if n = p ∧ n ≠ 7 then c else l.pred n := by
  unfold Lane.setPred Lane.pred
  by_cases h7 : p = 7
  · subst h7; by_cases hn7 : n = 7 <;> simp [hn7]
  · by_cases hn7 : n = 7
    · subst hn7; simp
    · rcases c with _ | _ <;> interval_cases p <;> interval_cases n <;> simp_all

theorem resultPred_kept (l : Lane) (p : Nat) (c : Bool) : l.resultPred p c = { l with p := (l.resultPred p c).p } := by
  unfold Lane.resultPred Lane.setPred
  split <;> (try split) <;> rfl

theorem resultPred_spec (l : Lane) (p : Nat) (c : Bool) (hp : p < 8) : ResultPred l (l.resultPred p c) p c := by
  refine ⟨resultPred_kept l p c, fun n hn => ?_⟩
  by_cases hg : l.guard = true
  · simpa [Lane.resultPred, hg] using setPred_pred l p n c hp hn
  · simp [Lane.resultPred, hg]

/-- Everything that a change of the pick's lanes can do. -/
theorem mapPick_becomes (s : State) (f : Group → Nat → Lane → Lane) (R : Group → Nat → Lane → Lane → Prop)
    (h : ∀ g i l, R g i l (f g i l)) : LanesBecome s (s.mapPick f) (InPick s) R := by
  unfold State.mapPick InPick
  cases hc : s.cur with
  | none =>
    refine ⟨rfl, rfl, fun k g hk => ⟨g, hk, rfl, rfl, fun i l hl => ⟨l, hl, ?_, fun _ => rfl⟩⟩⟩
    rintro ⟨p, hp, -⟩; exact absurd hp (by simp)
  | some p =>
    refine ⟨by simp [hc], by simp, fun k g hk => ⟨g.mapLanes (p.mask g.gid) (f g), ?_, ?_, ?_, fun i l hl => ?_⟩⟩
    · simp [hk]
    · rfl
    · simp [Group.mapLanes]
    · refine ⟨if (p.mask g.gid).getLsbD i then f g i l else l, by simp [Group.mapLanes, List.getElem?_mapIdx, hl], ?_, ?_⟩
      · rintro ⟨q, hq, hm⟩
        obtain rfl : p = q := by simpa using hq
        simpa [hm] using h g i l
      · intro hn
        have : (p.mask g.gid).getLsbD i = false := by
          by_contra hm; exact hn ⟨p, rfl, by simpa using hm⟩
        simp [this]

theorem vec32_becomes (s : State) (d : Nat) (w : BitVec 1) (f : Group → Nat → Lane → Word) (hd : d < 128) :
    LanesBecome s (s.vec32 d w f) (InPick s) fun g i l l' => Result32 l l' d w (f g i l) :=
  mapPick_becomes _ _ _ fun g i l => result32_spec l d w (f g i l) hd

theorem vec64_becomes (s : State) (d : Nat) (w : BitVec 1) (f : Group → Nat → Lane → DWord) (hd : d + 1 < 128) :
    LanesBecome s (s.vec64 d w f) (InPick s) fun g i l l' => Result64 l l' d w (f g i l) :=
  mapPick_becomes _ _ _ fun g i l => result64_spec l d w (f g i l) hd

theorem vecPred_becomes (s : State) (p : Nat) (f : Group → Nat → Lane → Bool) (hp : p < 8) :
    LanesBecome s (s.vecPred p f) (InPick s) fun g i l l' => ResultPred l l' p (f g i l) :=
  mapPick_becomes _ _ _ fun g i l => resultPred_spec l p (f g i l) hp

end Sys2Proof.Laws
end

