-- ==== Sys2Proof/Laws/Memory.lean ====
section
/-! SUPPORT. What the operations of memory do: each keeps the canonical form, a byte that was written reads back, and every
other byte reads as before. -/

namespace Sys2Proof.Laws

open Sys2Proof.Machine

theorem memSorted_cons (lo : Option Nat) (k : Nat) (b : Byte) (m : List Host.Cell) :
    memSorted lo ((k, b) :: m) = true ↔ (∀ l, lo = some l → l < k) ∧ b ≠ memDefault ∧ memSorted (some k) m = true := by
  cases lo <;> simp [memSorted, and_assoc]

/-- A list that is sorted above a bound is sorted above every lower bound. -/
theorem memSorted_mono (m : List Host.Cell) (lo : Option Nat) (k : Nat) (h : memSorted (some k) m = true)
    (hlo : ∀ l, lo = some l → l ≤ k) : memSorted lo m = true := by
  cases m with
  | nil => rfl
  | cons e m =>
    rw [memSorted_cons] at h ⊢
    exact ⟨fun l hl => lt_of_le_of_lt (hlo l hl) (h.1 k rfl), h.2⟩

theorem memSet_sorted (m : List Host.Cell) (lo : Option Nat) (a : Nat) (b : Byte) (h : memSorted lo m = true)
    (ha : ∀ l, lo = some l → l < a) : memSorted lo (memSet m a b) = true := by
  induction m generalizing lo with
  | nil =>
    unfold memSet
    split
    · rfl
    · rename_i hb
      exact (memSorted_cons ..).2 ⟨ha, hb, rfl⟩
  | cons e m ih =>
    obtain ⟨k, c⟩ := e
    have h' := (memSorted_cons ..).1 h
    unfold memSet
    split
    · rename_i hk
      subst hk
      split
      · exact memSorted_mono m lo k h'.2.2 fun l hl => (ha l hl).le
      · rename_i hb
        exact (memSorted_cons ..).2 ⟨h'.1, hb, h'.2.2⟩
    · split
      · split
        · exact h
        · rename_i hlt hb
          exact (memSorted_cons ..).2 ⟨ha, hb, (memSorted_cons ..).2 ⟨by rintro l ⟨⟩; exact hlt, h'.2⟩⟩
      · refine (memSorted_cons ..).2 ⟨h'.1, h'.2.1, ih (some k) h'.2.2 ?_⟩
        rintro l ⟨⟩
        omega

/-- Writing a byte keeps memory in its canonical form. -/
theorem wf_memSet (m : List Host.Cell) (a : Nat) (b : Byte) (h : Memory.wf m = true) : Memory.wf (memSet m a b) = true :=
  memSet_sorted m none a b h (by simp)

theorem wf_writeLE (n : Nat) (m : List Host.Cell) (a : Nat) (x : BitVec w) (h : Memory.wf m = true) :
    Memory.wf (writeLE m a x n) = true := by
  induction n generalizing m a x with
  | zero => exact h
  | succ n ih => exact ih _ _ _ (wf_memSet _ _ _ h)

theorem wf_writeLine (m : List Host.Cell) (line : Nat) (d : LineData) (h : Memory.wf m = true) :
    Memory.wf (writeLine m line d) = true := wf_writeLE _ _ _ _ h

theorem wf_writeMasked (n : Nat) (m : List Host.Cell) (line : Nat) (mask : BitVec 128) (d : LineData) (h : Memory.wf m = true) :
    Memory.wf (writeMasked m line mask d n) = true := by
  induction n with
  | zero => exact h
  | succ n ih =>
    simp only [writeMasked]
    split
    · exact wf_memSet _ _ _ ih
    · exact ih

/-- Memory is in its canonical form when nothing is listed. -/
theorem wf_nil : Memory.wf [] = true := rfl

/-- An address at or below the bound of a sorted list is not listed. -/
theorem memGet_below (m : List Host.Cell) (k a : Nat) (h : memSorted (some k) m = true) (ha : a ≤ k) : memGet m a = memDefault := by
  cases m with
  | nil => rfl
  | cons e m =>
    obtain ⟨j, b⟩ := e
    have := ((memSorted_cons ..).1 h).1 k rfl
    simp only [memGet]
    rw [if_neg (by omega), if_pos (by omega)]

theorem memGet_memSet_sorted (m : List Host.Cell) (lo : Option Nat) (a c : Nat) (b : Byte) (h : memSorted lo m = true) :
    memGet (memSet m a b) c = if c = a then b else memGet m c := by
  induction m generalizing lo with
  | nil =>
    unfold memSet
    by_cases hb : b = memDefault <;> by_cases hc : a = c <;> simp [hb, hc, memGet, Ne.symm]
  | cons e m ih =>
    obtain ⟨k, d⟩ := e
    have hm := ((memSorted_cons ..).1 h).2.2
    unfold memSet
    by_cases hk : k = a
    · subst hk
      rw [if_pos rfl]
      by_cases hc : k = c
      · subst hc
        by_cases hb : b = memDefault
        · simp [hb, memGet_below m k k hm (le_refl k)]
        · simp [hb, memGet]
      · rw [if_neg (Ne.symm hc)]
        by_cases hb : b = memDefault
        · simp only [hb, if_true, memGet, hc, if_false]
          by_cases hlt : c < k
          · simp [hlt, memGet_below m k c hm hlt.le]
          · simp [hlt]
        · simp [hb, memGet, hc]
    · rw [if_neg hk]
      by_cases hlt : a < k
      · rw [if_pos hlt]
        by_cases hc : a = c
        · subst hc
          by_cases hb : b = memDefault
          · simp [hb, memGet, hk, hlt]
          · simp [hb, memGet]
        · rw [if_neg (Ne.symm hc)]
          by_cases hb : b = memDefault
          · simp [hb]
          · simp only [hb, if_false, memGet, hc]
            by_cases h1 : c < a
            · rw [if_pos h1, if_neg (by omega), if_pos (by omega)]
            · rw [if_neg h1]
      · rw [if_neg hlt]
        simp only [memGet]
        by_cases hc : k = c
        · rw [if_pos hc, if_pos hc, if_neg (by omega)]
        · rw [if_neg hc, if_neg hc]
          by_cases h1 : c < k
          · rw [if_pos h1, if_pos h1, if_neg (by omega)]
          · rw [if_neg h1, if_neg h1]
            exact ih (some k) hm

/-- A byte that was written reads back, and every other byte reads as before. -/
theorem memGet_memSet (m : List Host.Cell) (a c : Nat) (b : Byte) (h : Memory.wf m = true) :
    memGet (memSet m a b) c = if c = a then b else memGet m c := memGet_memSet_sorted m none a c b h

/-- A write of `n` bytes leaves every byte outside them as it was. -/
theorem memGet_writeLE_outside (n : Nat) (m : List Host.Cell) (a c : Nat) (x : BitVec w) (h : Memory.wf m = true)
    (hc : c < a ∨ a + n ≤ c) : memGet (writeLE m a x n) c = memGet m c := by
  induction n generalizing m a x with
  | zero => rfl
  | succ n ih =>
    simp only [writeLE]
    rw [ih _ _ _ (wf_memSet _ _ _ h) (by omega), memGet_memSet _ _ _ _ h, if_neg (by omega)]

/-- A write of the masked bytes of a line leaves every other byte as it was. -/
theorem memGet_writeMasked_outside (n : Nat) (m : List Host.Cell) (line : Nat) (mask : BitVec 128) (d : LineData) (c : Nat)
    (h : Memory.wf m = true) (hc : ∀ k, k < n → mask.getLsbD k = true → c ≠ 128 * line + k) :
    memGet (writeMasked m line mask d n) c = memGet m c := by
  induction n with
  | zero => rfl
  | succ n ih =>
    have ih' := ih fun k hk => hc k (by omega)
    simp only [writeMasked]
    split
    · rename_i hm
      rw [memGet_memSet _ _ _ _ (wf_writeMasked _ _ _ _ _ h), if_neg (hc n (by omega) hm), ih']
    · exact ih'

/-- Byte `k` of a line that was written under a mask, where the mask has it. -/
theorem memGet_writeMasked_inside (n : Nat) (m : List Host.Cell) (line : Nat) (mask : BitVec 128) (d : LineData) (k : Nat)
    (h : Memory.wf m = true) (hk : k < n) (hm : mask.getLsbD k = true) :
    memGet (writeMasked m line mask d n) (128 * line + k) = lineByte d k := by
  induction n with
  | zero => omega
  | succ n ih =>
    simp only [writeMasked]
    by_cases hkn : k = n
    · subst hkn
      rw [if_pos hm, memGet_memSet _ _ _ _ (wf_writeMasked _ _ _ _ _ h), if_pos rfl]
    · have := ih (by omega)
      split
      · rw [memGet_memSet _ _ _ _ (wf_writeMasked _ _ _ _ _ h), if_neg (by omega), this]
      · exact this

/-! ### Association lists -/

/-- The value of a key that was set, and the values of the others. -/
theorem alookup_aset (l : List (Nat × α)) (k j : Nat) (v dflt : α) :
    alookup (aset l k v) j dflt = if j = k then v else alookup l j dflt := by
  induction l with
  | nil => simp [aset, alookup, eq_comm]
  | cons e l ih =>
    obtain ⟨i, x⟩ := e
    simp only [aset]
    by_cases hi : i = k
    · subst hi
      simp only [if_true, alookup]
      by_cases h : i = j
      · simp [h]
      · simp [h, Ne.symm h]
    · rw [if_neg hi]
      by_cases hlt : k < i
      · rw [if_pos hlt]
        by_cases h : k = j
        · simp [alookup, h]
        · simp [alookup, h, Ne.symm h]
      · rw [if_neg hlt]
        simp only [alookup, ih]
        by_cases h : i = j
        · rw [if_pos h, if_pos h, if_neg (by omega)]
        · rw [if_neg h, if_neg h]

end Sys2Proof.Laws
end

