-- ==== Sys2Proof/Laws/State.lean ====
section
/-! SUPPORT. What each named update of the state gives in each field. -/

namespace Sys2Proof.Laws

open Sys2Proof.Machine

@[simp] theorem setCore_agenda (s : State) (k : Nat) (c : Core) : (s.setCore k c).agenda = s.agenda := rfl
@[simp] theorem setCore_fresh (s : State) (k : Nat) (c : Core) : (s.setCore k c).fresh = s.fresh := rfl
@[simp] theorem setCore_clock (s : State) (k : Nat) (c : Core) : (s.setCore k c).clock = s.clock := rfl
@[simp] theorem setCore_mem (s : State) (k : Nat) (c : Core) : (s.setCore k c).mem = s.mem := rfl
@[simp] theorem setCore_home (s : State) (k : Nat) (c : Core) : (s.setCore k c).home = s.home := rfl
@[simp] theorem setCore_dies (s : State) (k : Nat) (c : Core) : (s.setCore k c).dies = s.dies := rfl
@[simp] theorem setCore_trusted (s : State) (k : Nat) (c : Core) : (s.setCore k c).trusted = s.trusted := rfl
@[simp] theorem setCore_xlate (s : State) (k : Nat) (c : Core) : (s.setCore k c).xlate = s.xlate := rfl
@[simp] theorem setCore_regs (s : State) (k : Nat) (c : Core) : (s.setCore k c).regs = s.regs := rfl
@[simp] theorem setCore_cores (s : State) (k : Nat) (c : Core) : (s.setCore k c).cores = aset s.cores k c := rfl
@[simp] theorem setCore_quads (s : State) (k : Nat) (c : Core) : (s.setCore k c).quads = s.quads := rfl
@[simp] theorem setCore_groups (s : State) (k : Nat) (c : Core) : (s.setCore k c).groups = s.groups := rfl
@[simp] theorem setCore_teams (s : State) (k : Nat) (c : Core) : (s.setCore k c).teams = s.teams := rfl
@[simp] theorem setCore_ports (s : State) (k : Nat) (c : Core) : (s.setCore k c).ports = s.ports := rfl
@[simp] theorem setCore_cur (s : State) (k : Nat) (c : Core) : (s.setCore k c).cur = s.cur := rfl
@[simp] theorem setCore_reqs (s : State) (k : Nat) (c : Core) : (s.setCore k c).reqs = s.reqs := rfl
@[simp] theorem setCore_nextId (s : State) (k : Nat) (c : Core) : (s.setCore k c).nextId = s.nextId := rfl
@[simp] theorem setCore_seqr (s : State) (k : Nat) (c : Core) : (s.setCore k c).seqr = s.seqr := rfl
@[simp] theorem setCore_engOps (s : State) (k : Nat) (c : Core) : (s.setCore k c).engOps = s.engOps := rfl
@[simp] theorem setCore_tileOps (s : State) (k : Nat) (c : Core) : (s.setCore k c).tileOps = s.tileOps := rfl
@[simp] theorem setCore_hamper (s : State) (k : Nat) (c : Core) : (s.setCore k c).hamper = s.hamper := rfl
@[simp] theorem setCore_flasks (s : State) (k : Nat) (c : Core) : (s.setCore k c).flasks = s.flasks := rfl
@[simp] theorem setCore_sched (s : State) (k : Nat) (c : Core) : (s.setCore k c).sched = s.sched := rfl
@[simp] theorem setCore_plat (s : State) (k : Nat) (c : Core) : (s.setCore k c).plat = s.plat := rfl
@[simp] theorem setCore_errlog (s : State) (k : Nat) (c : Core) : (s.setCore k c).errlog = s.errlog := rfl
@[simp] theorem setCore_outbox (s : State) (k : Nat) (c : Core) : (s.setCore k c).outbox = s.outbox := rfl

@[simp] theorem setQuad_agenda (s : State) (k : Nat) (q : Quad) : (s.setQuad k q).agenda = s.agenda := rfl
@[simp] theorem setQuad_fresh (s : State) (k : Nat) (q : Quad) : (s.setQuad k q).fresh = s.fresh := rfl
@[simp] theorem setQuad_clock (s : State) (k : Nat) (q : Quad) : (s.setQuad k q).clock = s.clock := rfl
@[simp] theorem setQuad_mem (s : State) (k : Nat) (q : Quad) : (s.setQuad k q).mem = s.mem := rfl
@[simp] theorem setQuad_home (s : State) (k : Nat) (q : Quad) : (s.setQuad k q).home = s.home := rfl
@[simp] theorem setQuad_dies (s : State) (k : Nat) (q : Quad) : (s.setQuad k q).dies = s.dies := rfl
@[simp] theorem setQuad_trusted (s : State) (k : Nat) (q : Quad) : (s.setQuad k q).trusted = s.trusted := rfl
@[simp] theorem setQuad_xlate (s : State) (k : Nat) (q : Quad) : (s.setQuad k q).xlate = s.xlate := rfl
@[simp] theorem setQuad_regs (s : State) (k : Nat) (q : Quad) : (s.setQuad k q).regs = s.regs := rfl
@[simp] theorem setQuad_cores (s : State) (k : Nat) (q : Quad) : (s.setQuad k q).cores = s.cores := rfl
@[simp] theorem setQuad_quads (s : State) (k : Nat) (q : Quad) : (s.setQuad k q).quads = aset s.quads k q := rfl
@[simp] theorem setQuad_groups (s : State) (k : Nat) (q : Quad) : (s.setQuad k q).groups = s.groups := rfl
@[simp] theorem setQuad_teams (s : State) (k : Nat) (q : Quad) : (s.setQuad k q).teams = s.teams := rfl
@[simp] theorem setQuad_ports (s : State) (k : Nat) (q : Quad) : (s.setQuad k q).ports = s.ports := rfl
@[simp] theorem setQuad_cur (s : State) (k : Nat) (q : Quad) : (s.setQuad k q).cur = s.cur := rfl
@[simp] theorem setQuad_reqs (s : State) (k : Nat) (q : Quad) : (s.setQuad k q).reqs = s.reqs := rfl
@[simp] theorem setQuad_nextId (s : State) (k : Nat) (q : Quad) : (s.setQuad k q).nextId = s.nextId := rfl
@[simp] theorem setQuad_seqr (s : State) (k : Nat) (q : Quad) : (s.setQuad k q).seqr = s.seqr := rfl
@[simp] theorem setQuad_engOps (s : State) (k : Nat) (q : Quad) : (s.setQuad k q).engOps = s.engOps := rfl
@[simp] theorem setQuad_tileOps (s : State) (k : Nat) (q : Quad) : (s.setQuad k q).tileOps = s.tileOps := rfl
@[simp] theorem setQuad_hamper (s : State) (k : Nat) (q : Quad) : (s.setQuad k q).hamper = s.hamper := rfl
@[simp] theorem setQuad_flasks (s : State) (k : Nat) (q : Quad) : (s.setQuad k q).flasks = s.flasks := rfl
@[simp] theorem setQuad_sched (s : State) (k : Nat) (q : Quad) : (s.setQuad k q).sched = s.sched := rfl
@[simp] theorem setQuad_plat (s : State) (k : Nat) (q : Quad) : (s.setQuad k q).plat = s.plat := rfl
@[simp] theorem setQuad_errlog (s : State) (k : Nat) (q : Quad) : (s.setQuad k q).errlog = s.errlog := rfl
@[simp] theorem setQuad_outbox (s : State) (k : Nat) (q : Quad) : (s.setQuad k q).outbox = s.outbox := rfl

@[simp] theorem setDie_agenda (s : State) (k : Nat) (d : Die) : (s.setDie k d).agenda = s.agenda := rfl
@[simp] theorem setDie_fresh (s : State) (k : Nat) (d : Die) : (s.setDie k d).fresh = s.fresh := rfl
@[simp] theorem setDie_clock (s : State) (k : Nat) (d : Die) : (s.setDie k d).clock = s.clock := rfl
@[simp] theorem setDie_mem (s : State) (k : Nat) (d : Die) : (s.setDie k d).mem = s.mem := rfl
@[simp] theorem setDie_home (s : State) (k : Nat) (d : Die) : (s.setDie k d).home = s.home := rfl
@[simp] theorem setDie_dies (s : State) (k : Nat) (d : Die) : (s.setDie k d).dies = aset s.dies k d := rfl
@[simp] theorem setDie_trusted (s : State) (k : Nat) (d : Die) : (s.setDie k d).trusted = s.trusted := rfl
@[simp] theorem setDie_xlate (s : State) (k : Nat) (d : Die) : (s.setDie k d).xlate = s.xlate := rfl
@[simp] theorem setDie_regs (s : State) (k : Nat) (d : Die) : (s.setDie k d).regs = s.regs := rfl
@[simp] theorem setDie_cores (s : State) (k : Nat) (d : Die) : (s.setDie k d).cores = s.cores := rfl
@[simp] theorem setDie_quads (s : State) (k : Nat) (d : Die) : (s.setDie k d).quads = s.quads := rfl
@[simp] theorem setDie_groups (s : State) (k : Nat) (d : Die) : (s.setDie k d).groups = s.groups := rfl
@[simp] theorem setDie_teams (s : State) (k : Nat) (d : Die) : (s.setDie k d).teams = s.teams := rfl
@[simp] theorem setDie_ports (s : State) (k : Nat) (d : Die) : (s.setDie k d).ports = s.ports := rfl
@[simp] theorem setDie_cur (s : State) (k : Nat) (d : Die) : (s.setDie k d).cur = s.cur := rfl
@[simp] theorem setDie_reqs (s : State) (k : Nat) (d : Die) : (s.setDie k d).reqs = s.reqs := rfl
@[simp] theorem setDie_nextId (s : State) (k : Nat) (d : Die) : (s.setDie k d).nextId = s.nextId := rfl
@[simp] theorem setDie_seqr (s : State) (k : Nat) (d : Die) : (s.setDie k d).seqr = s.seqr := rfl
@[simp] theorem setDie_engOps (s : State) (k : Nat) (d : Die) : (s.setDie k d).engOps = s.engOps := rfl
@[simp] theorem setDie_tileOps (s : State) (k : Nat) (d : Die) : (s.setDie k d).tileOps = s.tileOps := rfl
@[simp] theorem setDie_hamper (s : State) (k : Nat) (d : Die) : (s.setDie k d).hamper = s.hamper := rfl
@[simp] theorem setDie_flasks (s : State) (k : Nat) (d : Die) : (s.setDie k d).flasks = s.flasks := rfl
@[simp] theorem setDie_sched (s : State) (k : Nat) (d : Die) : (s.setDie k d).sched = s.sched := rfl
@[simp] theorem setDie_plat (s : State) (k : Nat) (d : Die) : (s.setDie k d).plat = s.plat := rfl
@[simp] theorem setDie_errlog (s : State) (k : Nat) (d : Die) : (s.setDie k d).errlog = s.errlog := rfl
@[simp] theorem setDie_outbox (s : State) (k : Nat) (d : Die) : (s.setDie k d).outbox = s.outbox := rfl

@[simp] theorem updCore_agenda (s : State) (k : Nat) (f : Core → Core) : (s.updCore k f).agenda = s.agenda := rfl
@[simp] theorem updCore_fresh (s : State) (k : Nat) (f : Core → Core) : (s.updCore k f).fresh = s.fresh := rfl
@[simp] theorem updCore_clock (s : State) (k : Nat) (f : Core → Core) : (s.updCore k f).clock = s.clock := rfl
@[simp] theorem updCore_mem (s : State) (k : Nat) (f : Core → Core) : (s.updCore k f).mem = s.mem := rfl
@[simp] theorem updCore_home (s : State) (k : Nat) (f : Core → Core) : (s.updCore k f).home = s.home := rfl
@[simp] theorem updCore_dies (s : State) (k : Nat) (f : Core → Core) : (s.updCore k f).dies = s.dies := rfl
@[simp] theorem updCore_trusted (s : State) (k : Nat) (f : Core → Core) : (s.updCore k f).trusted = s.trusted := rfl
@[simp] theorem updCore_xlate (s : State) (k : Nat) (f : Core → Core) : (s.updCore k f).xlate = s.xlate := rfl
@[simp] theorem updCore_regs (s : State) (k : Nat) (f : Core → Core) : (s.updCore k f).regs = s.regs := rfl
@[simp] theorem updCore_cores (s : State) (k : Nat) (f : Core → Core) : (s.updCore k f).cores = aset s.cores k (f (s.core k)) := rfl
@[simp] theorem updCore_quads (s : State) (k : Nat) (f : Core → Core) : (s.updCore k f).quads = s.quads := rfl
@[simp] theorem updCore_groups (s : State) (k : Nat) (f : Core → Core) : (s.updCore k f).groups = s.groups := rfl
@[simp] theorem updCore_teams (s : State) (k : Nat) (f : Core → Core) : (s.updCore k f).teams = s.teams := rfl
@[simp] theorem updCore_ports (s : State) (k : Nat) (f : Core → Core) : (s.updCore k f).ports = s.ports := rfl
@[simp] theorem updCore_cur (s : State) (k : Nat) (f : Core → Core) : (s.updCore k f).cur = s.cur := rfl
@[simp] theorem updCore_reqs (s : State) (k : Nat) (f : Core → Core) : (s.updCore k f).reqs = s.reqs := rfl
@[simp] theorem updCore_nextId (s : State) (k : Nat) (f : Core → Core) : (s.updCore k f).nextId = s.nextId := rfl
@[simp] theorem updCore_seqr (s : State) (k : Nat) (f : Core → Core) : (s.updCore k f).seqr = s.seqr := rfl
@[simp] theorem updCore_engOps (s : State) (k : Nat) (f : Core → Core) : (s.updCore k f).engOps = s.engOps := rfl
@[simp] theorem updCore_tileOps (s : State) (k : Nat) (f : Core → Core) : (s.updCore k f).tileOps = s.tileOps := rfl
@[simp] theorem updCore_hamper (s : State) (k : Nat) (f : Core → Core) : (s.updCore k f).hamper = s.hamper := rfl
@[simp] theorem updCore_flasks (s : State) (k : Nat) (f : Core → Core) : (s.updCore k f).flasks = s.flasks := rfl
@[simp] theorem updCore_sched (s : State) (k : Nat) (f : Core → Core) : (s.updCore k f).sched = s.sched := rfl
@[simp] theorem updCore_plat (s : State) (k : Nat) (f : Core → Core) : (s.updCore k f).plat = s.plat := rfl
@[simp] theorem updCore_errlog (s : State) (k : Nat) (f : Core → Core) : (s.updCore k f).errlog = s.errlog := rfl
@[simp] theorem updCore_outbox (s : State) (k : Nat) (f : Core → Core) : (s.updCore k f).outbox = s.outbox := rfl

@[simp] theorem updQuad_agenda (s : State) (k : Nat) (f : Quad → Quad) : (s.updQuad k f).agenda = s.agenda := rfl
@[simp] theorem updQuad_fresh (s : State) (k : Nat) (f : Quad → Quad) : (s.updQuad k f).fresh = s.fresh := rfl
@[simp] theorem updQuad_clock (s : State) (k : Nat) (f : Quad → Quad) : (s.updQuad k f).clock = s.clock := rfl
@[simp] theorem updQuad_mem (s : State) (k : Nat) (f : Quad → Quad) : (s.updQuad k f).mem = s.mem := rfl
@[simp] theorem updQuad_home (s : State) (k : Nat) (f : Quad → Quad) : (s.updQuad k f).home = s.home := rfl
@[simp] theorem updQuad_dies (s : State) (k : Nat) (f : Quad → Quad) : (s.updQuad k f).dies = s.dies := rfl
@[simp] theorem updQuad_trusted (s : State) (k : Nat) (f : Quad → Quad) : (s.updQuad k f).trusted = s.trusted := rfl
@[simp] theorem updQuad_xlate (s : State) (k : Nat) (f : Quad → Quad) : (s.updQuad k f).xlate = s.xlate := rfl
@[simp] theorem updQuad_regs (s : State) (k : Nat) (f : Quad → Quad) : (s.updQuad k f).regs = s.regs := rfl
@[simp] theorem updQuad_cores (s : State) (k : Nat) (f : Quad → Quad) : (s.updQuad k f).cores = s.cores := rfl
@[simp] theorem updQuad_quads (s : State) (k : Nat) (f : Quad → Quad) : (s.updQuad k f).quads = aset s.quads k (f (s.quad k)) := rfl
@[simp] theorem updQuad_groups (s : State) (k : Nat) (f : Quad → Quad) : (s.updQuad k f).groups = s.groups := rfl
@[simp] theorem updQuad_teams (s : State) (k : Nat) (f : Quad → Quad) : (s.updQuad k f).teams = s.teams := rfl
@[simp] theorem updQuad_ports (s : State) (k : Nat) (f : Quad → Quad) : (s.updQuad k f).ports = s.ports := rfl
@[simp] theorem updQuad_cur (s : State) (k : Nat) (f : Quad → Quad) : (s.updQuad k f).cur = s.cur := rfl
@[simp] theorem updQuad_reqs (s : State) (k : Nat) (f : Quad → Quad) : (s.updQuad k f).reqs = s.reqs := rfl
@[simp] theorem updQuad_nextId (s : State) (k : Nat) (f : Quad → Quad) : (s.updQuad k f).nextId = s.nextId := rfl
@[simp] theorem updQuad_seqr (s : State) (k : Nat) (f : Quad → Quad) : (s.updQuad k f).seqr = s.seqr := rfl
@[simp] theorem updQuad_engOps (s : State) (k : Nat) (f : Quad → Quad) : (s.updQuad k f).engOps = s.engOps := rfl
@[simp] theorem updQuad_tileOps (s : State) (k : Nat) (f : Quad → Quad) : (s.updQuad k f).tileOps = s.tileOps := rfl
@[simp] theorem updQuad_hamper (s : State) (k : Nat) (f : Quad → Quad) : (s.updQuad k f).hamper = s.hamper := rfl
@[simp] theorem updQuad_flasks (s : State) (k : Nat) (f : Quad → Quad) : (s.updQuad k f).flasks = s.flasks := rfl
@[simp] theorem updQuad_sched (s : State) (k : Nat) (f : Quad → Quad) : (s.updQuad k f).sched = s.sched := rfl
@[simp] theorem updQuad_plat (s : State) (k : Nat) (f : Quad → Quad) : (s.updQuad k f).plat = s.plat := rfl
@[simp] theorem updQuad_errlog (s : State) (k : Nat) (f : Quad → Quad) : (s.updQuad k f).errlog = s.errlog := rfl
@[simp] theorem updQuad_outbox (s : State) (k : Nat) (f : Quad → Quad) : (s.updQuad k f).outbox = s.outbox := rfl

@[simp] theorem updDie_agenda (s : State) (k : Nat) (f : Die → Die) : (s.updDie k f).agenda = s.agenda := rfl
@[simp] theorem updDie_fresh (s : State) (k : Nat) (f : Die → Die) : (s.updDie k f).fresh = s.fresh := rfl
@[simp] theorem updDie_clock (s : State) (k : Nat) (f : Die → Die) : (s.updDie k f).clock = s.clock := rfl
@[simp] theorem updDie_mem (s : State) (k : Nat) (f : Die → Die) : (s.updDie k f).mem = s.mem := rfl
@[simp] theorem updDie_home (s : State) (k : Nat) (f : Die → Die) : (s.updDie k f).home = s.home := rfl
@[simp] theorem updDie_dies (s : State) (k : Nat) (f : Die → Die) : (s.updDie k f).dies = aset s.dies k (f (s.die k)) := rfl
@[simp] theorem updDie_trusted (s : State) (k : Nat) (f : Die → Die) : (s.updDie k f).trusted = s.trusted := rfl
@[simp] theorem updDie_xlate (s : State) (k : Nat) (f : Die → Die) : (s.updDie k f).xlate = s.xlate := rfl
@[simp] theorem updDie_regs (s : State) (k : Nat) (f : Die → Die) : (s.updDie k f).regs = s.regs := rfl
@[simp] theorem updDie_cores (s : State) (k : Nat) (f : Die → Die) : (s.updDie k f).cores = s.cores := rfl
@[simp] theorem updDie_quads (s : State) (k : Nat) (f : Die → Die) : (s.updDie k f).quads = s.quads := rfl
@[simp] theorem updDie_groups (s : State) (k : Nat) (f : Die → Die) : (s.updDie k f).groups = s.groups := rfl
@[simp] theorem updDie_teams (s : State) (k : Nat) (f : Die → Die) : (s.updDie k f).teams = s.teams := rfl
@[simp] theorem updDie_ports (s : State) (k : Nat) (f : Die → Die) : (s.updDie k f).ports = s.ports := rfl
@[simp] theorem updDie_cur (s : State) (k : Nat) (f : Die → Die) : (s.updDie k f).cur = s.cur := rfl
@[simp] theorem updDie_reqs (s : State) (k : Nat) (f : Die → Die) : (s.updDie k f).reqs = s.reqs := rfl
@[simp] theorem updDie_nextId (s : State) (k : Nat) (f : Die → Die) : (s.updDie k f).nextId = s.nextId := rfl
@[simp] theorem updDie_seqr (s : State) (k : Nat) (f : Die → Die) : (s.updDie k f).seqr = s.seqr := rfl
@[simp] theorem updDie_engOps (s : State) (k : Nat) (f : Die → Die) : (s.updDie k f).engOps = s.engOps := rfl
@[simp] theorem updDie_tileOps (s : State) (k : Nat) (f : Die → Die) : (s.updDie k f).tileOps = s.tileOps := rfl
@[simp] theorem updDie_hamper (s : State) (k : Nat) (f : Die → Die) : (s.updDie k f).hamper = s.hamper := rfl
@[simp] theorem updDie_flasks (s : State) (k : Nat) (f : Die → Die) : (s.updDie k f).flasks = s.flasks := rfl
@[simp] theorem updDie_sched (s : State) (k : Nat) (f : Die → Die) : (s.updDie k f).sched = s.sched := rfl
@[simp] theorem updDie_plat (s : State) (k : Nat) (f : Die → Die) : (s.updDie k f).plat = s.plat := rfl
@[simp] theorem updDie_errlog (s : State) (k : Nat) (f : Die → Die) : (s.updDie k f).errlog = s.errlog := rfl
@[simp] theorem updDie_outbox (s : State) (k : Nat) (f : Die → Die) : (s.updDie k f).outbox = s.outbox := rfl

@[simp] theorem updGroup_agenda (s : State) (gid : Nat) (f : Group → Group) : (s.updGroup gid f).agenda = s.agenda := rfl
@[simp] theorem updGroup_fresh (s : State) (gid : Nat) (f : Group → Group) : (s.updGroup gid f).fresh = s.fresh := rfl
@[simp] theorem updGroup_clock (s : State) (gid : Nat) (f : Group → Group) : (s.updGroup gid f).clock = s.clock := rfl
@[simp] theorem updGroup_mem (s : State) (gid : Nat) (f : Group → Group) : (s.updGroup gid f).mem = s.mem := rfl
@[simp] theorem updGroup_home (s : State) (gid : Nat) (f : Group → Group) : (s.updGroup gid f).home = s.home := rfl
@[simp] theorem updGroup_dies (s : State) (gid : Nat) (f : Group → Group) : (s.updGroup gid f).dies = s.dies := rfl
@[simp] theorem updGroup_trusted (s : State) (gid : Nat) (f : Group → Group) : (s.updGroup gid f).trusted = s.trusted := rfl
@[simp] theorem updGroup_xlate (s : State) (gid : Nat) (f : Group → Group) : (s.updGroup gid f).xlate = s.xlate := rfl
@[simp] theorem updGroup_regs (s : State) (gid : Nat) (f : Group → Group) : (s.updGroup gid f).regs = s.regs := rfl
@[simp] theorem updGroup_cores (s : State) (gid : Nat) (f : Group → Group) : (s.updGroup gid f).cores = s.cores := rfl
@[simp] theorem updGroup_quads (s : State) (gid : Nat) (f : Group → Group) : (s.updGroup gid f).quads = s.quads := rfl
@[simp] theorem updGroup_groups (s : State) (gid : Nat) (f : Group → Group) : (s.updGroup gid f).groups = s.groups.map fun g => if g.gid = gid then f g else g := rfl
@[simp] theorem updGroup_teams (s : State) (gid : Nat) (f : Group → Group) : (s.updGroup gid f).teams = s.teams := rfl
@[simp] theorem updGroup_ports (s : State) (gid : Nat) (f : Group → Group) : (s.updGroup gid f).ports = s.ports := rfl
@[simp] theorem updGroup_cur (s : State) (gid : Nat) (f : Group → Group) : (s.updGroup gid f).cur = s.cur := rfl
@[simp] theorem updGroup_reqs (s : State) (gid : Nat) (f : Group → Group) : (s.updGroup gid f).reqs = s.reqs := rfl
@[simp] theorem updGroup_nextId (s : State) (gid : Nat) (f : Group → Group) : (s.updGroup gid f).nextId = s.nextId := rfl
@[simp] theorem updGroup_seqr (s : State) (gid : Nat) (f : Group → Group) : (s.updGroup gid f).seqr = s.seqr := rfl
@[simp] theorem updGroup_engOps (s : State) (gid : Nat) (f : Group → Group) : (s.updGroup gid f).engOps = s.engOps := rfl
@[simp] theorem updGroup_tileOps (s : State) (gid : Nat) (f : Group → Group) : (s.updGroup gid f).tileOps = s.tileOps := rfl
@[simp] theorem updGroup_hamper (s : State) (gid : Nat) (f : Group → Group) : (s.updGroup gid f).hamper = s.hamper := rfl
@[simp] theorem updGroup_flasks (s : State) (gid : Nat) (f : Group → Group) : (s.updGroup gid f).flasks = s.flasks := rfl
@[simp] theorem updGroup_sched (s : State) (gid : Nat) (f : Group → Group) : (s.updGroup gid f).sched = s.sched := rfl
@[simp] theorem updGroup_plat (s : State) (gid : Nat) (f : Group → Group) : (s.updGroup gid f).plat = s.plat := rfl
@[simp] theorem updGroup_errlog (s : State) (gid : Nat) (f : Group → Group) : (s.updGroup gid f).errlog = s.errlog := rfl
@[simp] theorem updGroup_outbox (s : State) (gid : Nat) (f : Group → Group) : (s.updGroup gid f).outbox = s.outbox := rfl

@[simp] theorem updTeam_agenda (s : State) (launch team : Nat) (f : Team → Team) : (s.updTeam launch team f).agenda = s.agenda := rfl
@[simp] theorem updTeam_fresh (s : State) (launch team : Nat) (f : Team → Team) : (s.updTeam launch team f).fresh = s.fresh := rfl
@[simp] theorem updTeam_clock (s : State) (launch team : Nat) (f : Team → Team) : (s.updTeam launch team f).clock = s.clock := rfl
@[simp] theorem updTeam_mem (s : State) (launch team : Nat) (f : Team → Team) : (s.updTeam launch team f).mem = s.mem := rfl
@[simp] theorem updTeam_home (s : State) (launch team : Nat) (f : Team → Team) : (s.updTeam launch team f).home = s.home := rfl
@[simp] theorem updTeam_dies (s : State) (launch team : Nat) (f : Team → Team) : (s.updTeam launch team f).dies = s.dies := rfl
@[simp] theorem updTeam_trusted (s : State) (launch team : Nat) (f : Team → Team) : (s.updTeam launch team f).trusted = s.trusted := rfl
@[simp] theorem updTeam_xlate (s : State) (launch team : Nat) (f : Team → Team) : (s.updTeam launch team f).xlate = s.xlate := rfl
@[simp] theorem updTeam_regs (s : State) (launch team : Nat) (f : Team → Team) : (s.updTeam launch team f).regs = s.regs := rfl
@[simp] theorem updTeam_cores (s : State) (launch team : Nat) (f : Team → Team) : (s.updTeam launch team f).cores = s.cores := rfl
@[simp] theorem updTeam_quads (s : State) (launch team : Nat) (f : Team → Team) : (s.updTeam launch team f).quads = s.quads := rfl
@[simp] theorem updTeam_groups (s : State) (launch team : Nat) (f : Team → Team) : (s.updTeam launch team f).groups = s.groups := rfl
@[simp] theorem updTeam_teams (s : State) (launch team : Nat) (f : Team → Team) : (s.updTeam launch team f).teams = s.teams.map fun t => if t.launch = launch ∧ t.team = team then f t else t := rfl
@[simp] theorem updTeam_ports (s : State) (launch team : Nat) (f : Team → Team) : (s.updTeam launch team f).ports = s.ports := rfl
@[simp] theorem updTeam_cur (s : State) (launch team : Nat) (f : Team → Team) : (s.updTeam launch team f).cur = s.cur := rfl
@[simp] theorem updTeam_reqs (s : State) (launch team : Nat) (f : Team → Team) : (s.updTeam launch team f).reqs = s.reqs := rfl
@[simp] theorem updTeam_nextId (s : State) (launch team : Nat) (f : Team → Team) : (s.updTeam launch team f).nextId = s.nextId := rfl
@[simp] theorem updTeam_seqr (s : State) (launch team : Nat) (f : Team → Team) : (s.updTeam launch team f).seqr = s.seqr := rfl
@[simp] theorem updTeam_engOps (s : State) (launch team : Nat) (f : Team → Team) : (s.updTeam launch team f).engOps = s.engOps := rfl
@[simp] theorem updTeam_tileOps (s : State) (launch team : Nat) (f : Team → Team) : (s.updTeam launch team f).tileOps = s.tileOps := rfl
@[simp] theorem updTeam_hamper (s : State) (launch team : Nat) (f : Team → Team) : (s.updTeam launch team f).hamper = s.hamper := rfl
@[simp] theorem updTeam_flasks (s : State) (launch team : Nat) (f : Team → Team) : (s.updTeam launch team f).flasks = s.flasks := rfl
@[simp] theorem updTeam_sched (s : State) (launch team : Nat) (f : Team → Team) : (s.updTeam launch team f).sched = s.sched := rfl
@[simp] theorem updTeam_plat (s : State) (launch team : Nat) (f : Team → Team) : (s.updTeam launch team f).plat = s.plat := rfl
@[simp] theorem updTeam_errlog (s : State) (launch team : Nat) (f : Team → Team) : (s.updTeam launch team f).errlog = s.errlog := rfl
@[simp] theorem updTeam_outbox (s : State) (launch team : Nat) (f : Team → Team) : (s.updTeam launch team f).outbox = s.outbox := rfl

@[simp] theorem updLaunch_agenda (s : State) (id : Nat) (f : Launch → Launch) : (s.updLaunch id f).agenda = s.agenda := rfl
@[simp] theorem updLaunch_fresh (s : State) (id : Nat) (f : Launch → Launch) : (s.updLaunch id f).fresh = s.fresh := rfl
@[simp] theorem updLaunch_clock (s : State) (id : Nat) (f : Launch → Launch) : (s.updLaunch id f).clock = s.clock := rfl
@[simp] theorem updLaunch_mem (s : State) (id : Nat) (f : Launch → Launch) : (s.updLaunch id f).mem = s.mem := rfl
@[simp] theorem updLaunch_home (s : State) (id : Nat) (f : Launch → Launch) : (s.updLaunch id f).home = s.home := rfl
@[simp] theorem updLaunch_dies (s : State) (id : Nat) (f : Launch → Launch) : (s.updLaunch id f).dies = s.dies := rfl
@[simp] theorem updLaunch_trusted (s : State) (id : Nat) (f : Launch → Launch) : (s.updLaunch id f).trusted = s.trusted := rfl
@[simp] theorem updLaunch_xlate (s : State) (id : Nat) (f : Launch → Launch) : (s.updLaunch id f).xlate = s.xlate := rfl
@[simp] theorem updLaunch_regs (s : State) (id : Nat) (f : Launch → Launch) : (s.updLaunch id f).regs = s.regs := rfl
@[simp] theorem updLaunch_cores (s : State) (id : Nat) (f : Launch → Launch) : (s.updLaunch id f).cores = s.cores := rfl
@[simp] theorem updLaunch_quads (s : State) (id : Nat) (f : Launch → Launch) : (s.updLaunch id f).quads = s.quads := rfl
@[simp] theorem updLaunch_groups (s : State) (id : Nat) (f : Launch → Launch) : (s.updLaunch id f).groups = s.groups := rfl
@[simp] theorem updLaunch_teams (s : State) (id : Nat) (f : Launch → Launch) : (s.updLaunch id f).teams = s.teams := rfl
@[simp] theorem updLaunch_ports (s : State) (id : Nat) (f : Launch → Launch) : (s.updLaunch id f).ports = s.ports := rfl
@[simp] theorem updLaunch_cur (s : State) (id : Nat) (f : Launch → Launch) : (s.updLaunch id f).cur = s.cur := rfl
@[simp] theorem updLaunch_reqs (s : State) (id : Nat) (f : Launch → Launch) : (s.updLaunch id f).reqs = s.reqs := rfl
@[simp] theorem updLaunch_nextId (s : State) (id : Nat) (f : Launch → Launch) : (s.updLaunch id f).nextId = s.nextId := rfl
@[simp] theorem updLaunch_seqr (s : State) (id : Nat) (f : Launch → Launch) : (s.updLaunch id f).seqr = s.seqr := rfl
@[simp] theorem updLaunch_engOps (s : State) (id : Nat) (f : Launch → Launch) : (s.updLaunch id f).engOps = s.engOps := rfl
@[simp] theorem updLaunch_tileOps (s : State) (id : Nat) (f : Launch → Launch) : (s.updLaunch id f).tileOps = s.tileOps := rfl
@[simp] theorem updLaunch_hamper (s : State) (id : Nat) (f : Launch → Launch) : (s.updLaunch id f).hamper = s.hamper := rfl
@[simp] theorem updLaunch_flasks (s : State) (id : Nat) (f : Launch → Launch) : (s.updLaunch id f).flasks = s.flasks := rfl
@[simp] theorem updLaunch_sched (s : State) (id : Nat) (f : Launch → Launch) : (s.updLaunch id f).sched = { s.sched with launches := s.sched.launches.map fun l => if l.id = id then f l else l } := rfl
@[simp] theorem updLaunch_plat (s : State) (id : Nat) (f : Launch → Launch) : (s.updLaunch id f).plat = s.plat := rfl
@[simp] theorem updLaunch_errlog (s : State) (id : Nat) (f : Launch → Launch) : (s.updLaunch id f).errlog = s.errlog := rfl
@[simp] theorem updLaunch_outbox (s : State) (id : Nat) (f : Launch → Launch) : (s.updLaunch id f).outbox = s.outbox := rfl

@[simp] theorem log_agenda (s : State) (e : LogEntry) : (s.log e).agenda = s.agenda := rfl
@[simp] theorem log_fresh (s : State) (e : LogEntry) : (s.log e).fresh = s.fresh := rfl
@[simp] theorem log_clock (s : State) (e : LogEntry) : (s.log e).clock = s.clock := rfl
@[simp] theorem log_mem (s : State) (e : LogEntry) : (s.log e).mem = s.mem := rfl
@[simp] theorem log_home (s : State) (e : LogEntry) : (s.log e).home = s.home := rfl
@[simp] theorem log_dies (s : State) (e : LogEntry) : (s.log e).dies = s.dies := rfl
@[simp] theorem log_trusted (s : State) (e : LogEntry) : (s.log e).trusted = s.trusted := rfl
@[simp] theorem log_xlate (s : State) (e : LogEntry) : (s.log e).xlate = s.xlate := rfl
@[simp] theorem log_regs (s : State) (e : LogEntry) : (s.log e).regs = s.regs := rfl
@[simp] theorem log_cores (s : State) (e : LogEntry) : (s.log e).cores = s.cores := rfl
@[simp] theorem log_quads (s : State) (e : LogEntry) : (s.log e).quads = s.quads := rfl
@[simp] theorem log_groups (s : State) (e : LogEntry) : (s.log e).groups = s.groups := rfl
@[simp] theorem log_teams (s : State) (e : LogEntry) : (s.log e).teams = s.teams := rfl
@[simp] theorem log_ports (s : State) (e : LogEntry) : (s.log e).ports = s.ports := rfl
@[simp] theorem log_cur (s : State) (e : LogEntry) : (s.log e).cur = s.cur := rfl
@[simp] theorem log_reqs (s : State) (e : LogEntry) : (s.log e).reqs = s.reqs := rfl
@[simp] theorem log_nextId (s : State) (e : LogEntry) : (s.log e).nextId = s.nextId := rfl
@[simp] theorem log_seqr (s : State) (e : LogEntry) : (s.log e).seqr = s.seqr := rfl
@[simp] theorem log_engOps (s : State) (e : LogEntry) : (s.log e).engOps = s.engOps := rfl
@[simp] theorem log_tileOps (s : State) (e : LogEntry) : (s.log e).tileOps = s.tileOps := rfl
@[simp] theorem log_hamper (s : State) (e : LogEntry) : (s.log e).hamper = s.hamper := rfl
@[simp] theorem log_flasks (s : State) (e : LogEntry) : (s.log e).flasks = s.flasks := rfl
@[simp] theorem log_sched (s : State) (e : LogEntry) : (s.log e).sched = s.sched := rfl
@[simp] theorem log_plat (s : State) (e : LogEntry) : (s.log e).plat = { s.plat with mirror := s.plat.mirror ++ [e] } := rfl
@[simp] theorem log_errlog (s : State) (e : LogEntry) : (s.log e).errlog = s.errlog ++ [e] := rfl
@[simp] theorem log_outbox (s : State) (e : LogEntry) : (s.log e).outbox = s.outbox := rfl

@[simp] theorem send_agenda (s : State) (m : Msg) : (s.send m).agenda = s.agenda := rfl
@[simp] theorem send_fresh (s : State) (m : Msg) : (s.send m).fresh = s.fresh := rfl
@[simp] theorem send_clock (s : State) (m : Msg) : (s.send m).clock = s.clock := rfl
@[simp] theorem send_mem (s : State) (m : Msg) : (s.send m).mem = s.mem := rfl
@[simp] theorem send_home (s : State) (m : Msg) : (s.send m).home = s.home := rfl
@[simp] theorem send_dies (s : State) (m : Msg) : (s.send m).dies = s.dies := rfl
@[simp] theorem send_trusted (s : State) (m : Msg) : (s.send m).trusted = s.trusted := rfl
@[simp] theorem send_xlate (s : State) (m : Msg) : (s.send m).xlate = s.xlate := rfl
@[simp] theorem send_regs (s : State) (m : Msg) : (s.send m).regs = s.regs := rfl
@[simp] theorem send_cores (s : State) (m : Msg) : (s.send m).cores = s.cores := rfl
@[simp] theorem send_quads (s : State) (m : Msg) : (s.send m).quads = s.quads := rfl
@[simp] theorem send_groups (s : State) (m : Msg) : (s.send m).groups = s.groups := rfl
@[simp] theorem send_teams (s : State) (m : Msg) : (s.send m).teams = s.teams := rfl
@[simp] theorem send_ports (s : State) (m : Msg) : (s.send m).ports = s.ports := rfl
@[simp] theorem send_cur (s : State) (m : Msg) : (s.send m).cur = s.cur := rfl
@[simp] theorem send_reqs (s : State) (m : Msg) : (s.send m).reqs = s.reqs := rfl
@[simp] theorem send_nextId (s : State) (m : Msg) : (s.send m).nextId = s.nextId := rfl
@[simp] theorem send_seqr (s : State) (m : Msg) : (s.send m).seqr = s.seqr := rfl
@[simp] theorem send_engOps (s : State) (m : Msg) : (s.send m).engOps = s.engOps := rfl
@[simp] theorem send_tileOps (s : State) (m : Msg) : (s.send m).tileOps = s.tileOps := rfl
@[simp] theorem send_hamper (s : State) (m : Msg) : (s.send m).hamper = s.hamper := rfl
@[simp] theorem send_flasks (s : State) (m : Msg) : (s.send m).flasks = s.flasks := rfl
@[simp] theorem send_sched (s : State) (m : Msg) : (s.send m).sched = s.sched := rfl
@[simp] theorem send_plat (s : State) (m : Msg) : (s.send m).plat = s.plat := rfl
@[simp] theorem send_errlog (s : State) (m : Msg) : (s.send m).errlog = s.errlog := rfl
@[simp] theorem send_outbox (s : State) (m : Msg) : (s.send m).outbox = s.outbox ++ [m] := rfl

@[simp] theorem leave_agenda (s : State) (gid : Nat) (m : BitVec 64) : (s.leave gid m).agenda = s.agenda := rfl
@[simp] theorem leave_fresh (s : State) (gid : Nat) (m : BitVec 64) : (s.leave gid m).fresh = s.fresh := rfl
@[simp] theorem leave_clock (s : State) (gid : Nat) (m : BitVec 64) : (s.leave gid m).clock = s.clock := rfl
@[simp] theorem leave_mem (s : State) (gid : Nat) (m : BitVec 64) : (s.leave gid m).mem = s.mem := rfl
@[simp] theorem leave_home (s : State) (gid : Nat) (m : BitVec 64) : (s.leave gid m).home = s.home := rfl
@[simp] theorem leave_dies (s : State) (gid : Nat) (m : BitVec 64) : (s.leave gid m).dies = s.dies := rfl
@[simp] theorem leave_trusted (s : State) (gid : Nat) (m : BitVec 64) : (s.leave gid m).trusted = s.trusted := rfl
@[simp] theorem leave_xlate (s : State) (gid : Nat) (m : BitVec 64) : (s.leave gid m).xlate = s.xlate := rfl
@[simp] theorem leave_regs (s : State) (gid : Nat) (m : BitVec 64) : (s.leave gid m).regs = s.regs := rfl
@[simp] theorem leave_cores (s : State) (gid : Nat) (m : BitVec 64) : (s.leave gid m).cores = s.cores := rfl
@[simp] theorem leave_quads (s : State) (gid : Nat) (m : BitVec 64) : (s.leave gid m).quads = s.quads := rfl
@[simp] theorem leave_groups (s : State) (gid : Nat) (m : BitVec 64) : (s.leave gid m).groups = s.groups := rfl
@[simp] theorem leave_teams (s : State) (gid : Nat) (m : BitVec 64) : (s.leave gid m).teams = s.teams := rfl
@[simp] theorem leave_ports (s : State) (gid : Nat) (m : BitVec 64) : (s.leave gid m).ports = s.ports := rfl
@[simp] theorem leave_cur (s : State) (gid : Nat) (m : BitVec 64) : (s.leave gid m).cur = s.cur.map fun p => p.remove gid m := rfl
@[simp] theorem leave_reqs (s : State) (gid : Nat) (m : BitVec 64) : (s.leave gid m).reqs = s.reqs := rfl
@[simp] theorem leave_nextId (s : State) (gid : Nat) (m : BitVec 64) : (s.leave gid m).nextId = s.nextId := rfl
@[simp] theorem leave_seqr (s : State) (gid : Nat) (m : BitVec 64) : (s.leave gid m).seqr = s.seqr := rfl
@[simp] theorem leave_engOps (s : State) (gid : Nat) (m : BitVec 64) : (s.leave gid m).engOps = s.engOps := rfl
@[simp] theorem leave_tileOps (s : State) (gid : Nat) (m : BitVec 64) : (s.leave gid m).tileOps = s.tileOps := rfl
@[simp] theorem leave_hamper (s : State) (gid : Nat) (m : BitVec 64) : (s.leave gid m).hamper = s.hamper := rfl
@[simp] theorem leave_flasks (s : State) (gid : Nat) (m : BitVec 64) : (s.leave gid m).flasks = s.flasks := rfl
@[simp] theorem leave_sched (s : State) (gid : Nat) (m : BitVec 64) : (s.leave gid m).sched = s.sched := rfl
@[simp] theorem leave_plat (s : State) (gid : Nat) (m : BitVec 64) : (s.leave gid m).plat = s.plat := rfl
@[simp] theorem leave_errlog (s : State) (gid : Nat) (m : BitVec 64) : (s.leave gid m).errlog = s.errlog := rfl
@[simp] theorem leave_outbox (s : State) (gid : Nat) (m : BitVec 64) : (s.leave gid m).outbox = s.outbox := rfl

@[simp] theorem noteWrite_agenda (s : State) (gid n : Nat) : (s.noteWrite gid n).agenda = s.agenda := rfl
@[simp] theorem noteWrite_fresh (s : State) (gid n : Nat) : (s.noteWrite gid n).fresh = s.fresh := rfl
@[simp] theorem noteWrite_clock (s : State) (gid n : Nat) : (s.noteWrite gid n).clock = s.clock := rfl
@[simp] theorem noteWrite_mem (s : State) (gid n : Nat) : (s.noteWrite gid n).mem = s.mem := rfl
@[simp] theorem noteWrite_home (s : State) (gid n : Nat) : (s.noteWrite gid n).home = s.home := rfl
@[simp] theorem noteWrite_dies (s : State) (gid n : Nat) : (s.noteWrite gid n).dies = s.dies := rfl
@[simp] theorem noteWrite_trusted (s : State) (gid n : Nat) : (s.noteWrite gid n).trusted = s.trusted := rfl
@[simp] theorem noteWrite_xlate (s : State) (gid n : Nat) : (s.noteWrite gid n).xlate = s.xlate := rfl
@[simp] theorem noteWrite_regs (s : State) (gid n : Nat) : (s.noteWrite gid n).regs = s.regs := rfl
@[simp] theorem noteWrite_cores (s : State) (gid n : Nat) : (s.noteWrite gid n).cores = s.cores := rfl
@[simp] theorem noteWrite_quads (s : State) (gid n : Nat) : (s.noteWrite gid n).quads = s.quads := rfl
@[simp] theorem noteWrite_groups (s : State) (gid n : Nat) : (s.noteWrite gid n).groups = s.groups := rfl
@[simp] theorem noteWrite_teams (s : State) (gid n : Nat) : (s.noteWrite gid n).teams = s.teams := rfl
@[simp] theorem noteWrite_ports (s : State) (gid n : Nat) : (s.noteWrite gid n).ports = s.ports := rfl
@[simp] theorem noteWrite_cur (s : State) (gid n : Nat) : (s.noteWrite gid n).cur = s.cur.map fun p => { p with wrote := p.wrote ++ [(gid, n)] } := rfl
@[simp] theorem noteWrite_reqs (s : State) (gid n : Nat) : (s.noteWrite gid n).reqs = s.reqs := rfl
@[simp] theorem noteWrite_nextId (s : State) (gid n : Nat) : (s.noteWrite gid n).nextId = s.nextId := rfl
@[simp] theorem noteWrite_seqr (s : State) (gid n : Nat) : (s.noteWrite gid n).seqr = s.seqr := rfl
@[simp] theorem noteWrite_engOps (s : State) (gid n : Nat) : (s.noteWrite gid n).engOps = s.engOps := rfl
@[simp] theorem noteWrite_tileOps (s : State) (gid n : Nat) : (s.noteWrite gid n).tileOps = s.tileOps := rfl
@[simp] theorem noteWrite_hamper (s : State) (gid n : Nat) : (s.noteWrite gid n).hamper = s.hamper := rfl
@[simp] theorem noteWrite_flasks (s : State) (gid n : Nat) : (s.noteWrite gid n).flasks = s.flasks := rfl
@[simp] theorem noteWrite_sched (s : State) (gid n : Nat) : (s.noteWrite gid n).sched = s.sched := rfl
@[simp] theorem noteWrite_plat (s : State) (gid n : Nat) : (s.noteWrite gid n).plat = s.plat := rfl
@[simp] theorem noteWrite_errlog (s : State) (gid n : Nat) : (s.noteWrite gid n).errlog = s.errlog := rfl
@[simp] theorem noteWrite_outbox (s : State) (gid n : Nat) : (s.noteWrite gid n).outbox = s.outbox := rfl

@[simp] theorem updReq_agenda (s : State) (id : Nat) (f : Req → Req) : (s.updReq id f).agenda = s.agenda := rfl
@[simp] theorem updReq_fresh (s : State) (id : Nat) (f : Req → Req) : (s.updReq id f).fresh = s.fresh := rfl
@[simp] theorem updReq_clock (s : State) (id : Nat) (f : Req → Req) : (s.updReq id f).clock = s.clock := rfl
@[simp] theorem updReq_mem (s : State) (id : Nat) (f : Req → Req) : (s.updReq id f).mem = s.mem := rfl
@[simp] theorem updReq_home (s : State) (id : Nat) (f : Req → Req) : (s.updReq id f).home = s.home := rfl
@[simp] theorem updReq_dies (s : State) (id : Nat) (f : Req → Req) : (s.updReq id f).dies = s.dies := rfl
@[simp] theorem updReq_trusted (s : State) (id : Nat) (f : Req → Req) : (s.updReq id f).trusted = s.trusted := rfl
@[simp] theorem updReq_xlate (s : State) (id : Nat) (f : Req → Req) : (s.updReq id f).xlate = s.xlate := rfl
@[simp] theorem updReq_regs (s : State) (id : Nat) (f : Req → Req) : (s.updReq id f).regs = s.regs := rfl
@[simp] theorem updReq_cores (s : State) (id : Nat) (f : Req → Req) : (s.updReq id f).cores = s.cores := rfl
@[simp] theorem updReq_quads (s : State) (id : Nat) (f : Req → Req) : (s.updReq id f).quads = s.quads := rfl
@[simp] theorem updReq_groups (s : State) (id : Nat) (f : Req → Req) : (s.updReq id f).groups = s.groups := rfl
@[simp] theorem updReq_teams (s : State) (id : Nat) (f : Req → Req) : (s.updReq id f).teams = s.teams := rfl
@[simp] theorem updReq_ports (s : State) (id : Nat) (f : Req → Req) : (s.updReq id f).ports = s.ports := rfl
@[simp] theorem updReq_cur (s : State) (id : Nat) (f : Req → Req) : (s.updReq id f).cur = s.cur := rfl
@[simp] theorem updReq_reqs (s : State) (id : Nat) (f : Req → Req) : (s.updReq id f).reqs = s.reqs.map fun r => if r.id = id then f r else r := rfl
@[simp] theorem updReq_nextId (s : State) (id : Nat) (f : Req → Req) : (s.updReq id f).nextId = s.nextId := rfl
@[simp] theorem updReq_seqr (s : State) (id : Nat) (f : Req → Req) : (s.updReq id f).seqr = s.seqr := rfl
@[simp] theorem updReq_engOps (s : State) (id : Nat) (f : Req → Req) : (s.updReq id f).engOps = s.engOps := rfl
@[simp] theorem updReq_tileOps (s : State) (id : Nat) (f : Req → Req) : (s.updReq id f).tileOps = s.tileOps := rfl
@[simp] theorem updReq_hamper (s : State) (id : Nat) (f : Req → Req) : (s.updReq id f).hamper = s.hamper := rfl
@[simp] theorem updReq_flasks (s : State) (id : Nat) (f : Req → Req) : (s.updReq id f).flasks = s.flasks := rfl
@[simp] theorem updReq_sched (s : State) (id : Nat) (f : Req → Req) : (s.updReq id f).sched = s.sched := rfl
@[simp] theorem updReq_plat (s : State) (id : Nat) (f : Req → Req) : (s.updReq id f).plat = s.plat := rfl
@[simp] theorem updReq_errlog (s : State) (id : Nat) (f : Req → Req) : (s.updReq id f).errlog = s.errlog := rfl
@[simp] theorem updReq_outbox (s : State) (id : Nat) (f : Req → Req) : (s.updReq id f).outbox = s.outbox := rfl

@[simp] theorem dropReq_agenda (s : State) (id : Nat) : (s.dropReq id).agenda = s.agenda := rfl
@[simp] theorem dropReq_fresh (s : State) (id : Nat) : (s.dropReq id).fresh = s.fresh := rfl
@[simp] theorem dropReq_clock (s : State) (id : Nat) : (s.dropReq id).clock = s.clock := rfl
@[simp] theorem dropReq_mem (s : State) (id : Nat) : (s.dropReq id).mem = s.mem := rfl
@[simp] theorem dropReq_home (s : State) (id : Nat) : (s.dropReq id).home = s.home := rfl
@[simp] theorem dropReq_dies (s : State) (id : Nat) : (s.dropReq id).dies = s.dies := rfl
@[simp] theorem dropReq_trusted (s : State) (id : Nat) : (s.dropReq id).trusted = s.trusted := rfl
@[simp] theorem dropReq_xlate (s : State) (id : Nat) : (s.dropReq id).xlate = s.xlate := rfl
@[simp] theorem dropReq_regs (s : State) (id : Nat) : (s.dropReq id).regs = s.regs := rfl
@[simp] theorem dropReq_cores (s : State) (id : Nat) : (s.dropReq id).cores = s.cores := rfl
@[simp] theorem dropReq_quads (s : State) (id : Nat) : (s.dropReq id).quads = s.quads := rfl
@[simp] theorem dropReq_groups (s : State) (id : Nat) : (s.dropReq id).groups = s.groups := rfl
@[simp] theorem dropReq_teams (s : State) (id : Nat) : (s.dropReq id).teams = s.teams := rfl
@[simp] theorem dropReq_ports (s : State) (id : Nat) : (s.dropReq id).ports = s.ports := rfl
@[simp] theorem dropReq_cur (s : State) (id : Nat) : (s.dropReq id).cur = s.cur := rfl
@[simp] theorem dropReq_reqs (s : State) (id : Nat) : (s.dropReq id).reqs = s.reqs.filter fun r => r.id != id := rfl
@[simp] theorem dropReq_nextId (s : State) (id : Nat) : (s.dropReq id).nextId = s.nextId := rfl
@[simp] theorem dropReq_seqr (s : State) (id : Nat) : (s.dropReq id).seqr = s.seqr := rfl
@[simp] theorem dropReq_engOps (s : State) (id : Nat) : (s.dropReq id).engOps = s.engOps := rfl
@[simp] theorem dropReq_tileOps (s : State) (id : Nat) : (s.dropReq id).tileOps = s.tileOps := rfl
@[simp] theorem dropReq_hamper (s : State) (id : Nat) : (s.dropReq id).hamper = s.hamper := rfl
@[simp] theorem dropReq_flasks (s : State) (id : Nat) : (s.dropReq id).flasks = s.flasks := rfl
@[simp] theorem dropReq_sched (s : State) (id : Nat) : (s.dropReq id).sched = s.sched := rfl
@[simp] theorem dropReq_plat (s : State) (id : Nat) : (s.dropReq id).plat = s.plat := rfl
@[simp] theorem dropReq_errlog (s : State) (id : Nat) : (s.dropReq id).errlog = s.errlog := rfl
@[simp] theorem dropReq_outbox (s : State) (id : Nat) : (s.dropReq id).outbox = s.outbox := rfl

@[simp] theorem retryHeld_agenda (s : State) : (s.retryHeld).agenda = s.agenda := rfl
@[simp] theorem retryHeld_fresh (s : State) : (s.retryHeld).fresh = s.fresh := rfl
@[simp] theorem retryHeld_clock (s : State) : (s.retryHeld).clock = s.clock := rfl
@[simp] theorem retryHeld_mem (s : State) : (s.retryHeld).mem = s.mem := rfl
@[simp] theorem retryHeld_home (s : State) : (s.retryHeld).home = s.home := rfl
@[simp] theorem retryHeld_dies (s : State) : (s.retryHeld).dies = s.dies := rfl
@[simp] theorem retryHeld_trusted (s : State) : (s.retryHeld).trusted = s.trusted := rfl
@[simp] theorem retryHeld_xlate (s : State) : (s.retryHeld).xlate = s.xlate := rfl
@[simp] theorem retryHeld_regs (s : State) : (s.retryHeld).regs = s.regs := rfl
@[simp] theorem retryHeld_cores (s : State) : (s.retryHeld).cores = s.cores := rfl
@[simp] theorem retryHeld_quads (s : State) : (s.retryHeld).quads = s.quads := rfl
@[simp] theorem retryHeld_groups (s : State) : (s.retryHeld).groups = s.groups.map fun g => { g with lanes := g.lanes.map Lane.retry } := rfl
@[simp] theorem retryHeld_teams (s : State) : (s.retryHeld).teams = s.teams := rfl
@[simp] theorem retryHeld_ports (s : State) : (s.retryHeld).ports = s.ports := rfl
@[simp] theorem retryHeld_cur (s : State) : (s.retryHeld).cur = s.cur := rfl
@[simp] theorem retryHeld_reqs (s : State) : (s.retryHeld).reqs = s.reqs := rfl
@[simp] theorem retryHeld_nextId (s : State) : (s.retryHeld).nextId = s.nextId := rfl
@[simp] theorem retryHeld_seqr (s : State) : (s.retryHeld).seqr = s.seqr := rfl
@[simp] theorem retryHeld_engOps (s : State) : (s.retryHeld).engOps = s.engOps := rfl
@[simp] theorem retryHeld_tileOps (s : State) : (s.retryHeld).tileOps = s.tileOps := rfl
@[simp] theorem retryHeld_hamper (s : State) : (s.retryHeld).hamper = s.hamper := rfl
@[simp] theorem retryHeld_flasks (s : State) : (s.retryHeld).flasks = s.flasks := rfl
@[simp] theorem retryHeld_sched (s : State) : (s.retryHeld).sched = s.sched := rfl
@[simp] theorem retryHeld_plat (s : State) : (s.retryHeld).plat = s.plat := rfl
@[simp] theorem retryHeld_errlog (s : State) : (s.retryHeld).errlog = s.errlog := rfl
@[simp] theorem retryHeld_outbox (s : State) : (s.retryHeld).outbox = s.outbox := rfl

@[simp] theorem mapPick_agenda (s : State) (f : Group → Nat → Lane → Lane) : (s.mapPick f).agenda = s.agenda := by unfold State.mapPick; split <;> rfl
@[simp] theorem mapPick_fresh (s : State) (f : Group → Nat → Lane → Lane) : (s.mapPick f).fresh = s.fresh := by unfold State.mapPick; split <;> rfl
@[simp] theorem mapPick_clock (s : State) (f : Group → Nat → Lane → Lane) : (s.mapPick f).clock = s.clock := by unfold State.mapPick; split <;> rfl
@[simp] theorem mapPick_mem (s : State) (f : Group → Nat → Lane → Lane) : (s.mapPick f).mem = s.mem := by unfold State.mapPick; split <;> rfl
@[simp] theorem mapPick_home (s : State) (f : Group → Nat → Lane → Lane) : (s.mapPick f).home = s.home := by unfold State.mapPick; split <;> rfl
@[simp] theorem mapPick_dies (s : State) (f : Group → Nat → Lane → Lane) : (s.mapPick f).dies = s.dies := by unfold State.mapPick; split <;> rfl
@[simp] theorem mapPick_trusted (s : State) (f : Group → Nat → Lane → Lane) : (s.mapPick f).trusted = s.trusted := by unfold State.mapPick; split <;> rfl
@[simp] theorem mapPick_xlate (s : State) (f : Group → Nat → Lane → Lane) : (s.mapPick f).xlate = s.xlate := by unfold State.mapPick; split <;> rfl
@[simp] theorem mapPick_regs (s : State) (f : Group → Nat → Lane → Lane) : (s.mapPick f).regs = s.regs := by unfold State.mapPick; split <;> rfl
@[simp] theorem mapPick_cores (s : State) (f : Group → Nat → Lane → Lane) : (s.mapPick f).cores = s.cores := by unfold State.mapPick; split <;> rfl
@[simp] theorem mapPick_quads (s : State) (f : Group → Nat → Lane → Lane) : (s.mapPick f).quads = s.quads := by unfold State.mapPick; split <;> rfl
@[simp] theorem mapPick_teams (s : State) (f : Group → Nat → Lane → Lane) : (s.mapPick f).teams = s.teams := by unfold State.mapPick; split <;> rfl
@[simp] theorem mapPick_ports (s : State) (f : Group → Nat → Lane → Lane) : (s.mapPick f).ports = s.ports := by unfold State.mapPick; split <;> rfl
@[simp] theorem mapPick_cur (s : State) (f : Group → Nat → Lane → Lane) : (s.mapPick f).cur = s.cur := by unfold State.mapPick; split <;> rfl
@[simp] theorem mapPick_reqs (s : State) (f : Group → Nat → Lane → Lane) : (s.mapPick f).reqs = s.reqs := by unfold State.mapPick; split <;> rfl
@[simp] theorem mapPick_nextId (s : State) (f : Group → Nat → Lane → Lane) : (s.mapPick f).nextId = s.nextId := by unfold State.mapPick; split <;> rfl
@[simp] theorem mapPick_seqr (s : State) (f : Group → Nat → Lane → Lane) : (s.mapPick f).seqr = s.seqr := by unfold State.mapPick; split <;> rfl
@[simp] theorem mapPick_engOps (s : State) (f : Group → Nat → Lane → Lane) : (s.mapPick f).engOps = s.engOps := by unfold State.mapPick; split <;> rfl
@[simp] theorem mapPick_tileOps (s : State) (f : Group → Nat → Lane → Lane) : (s.mapPick f).tileOps = s.tileOps := by unfold State.mapPick; split <;> rfl
@[simp] theorem mapPick_hamper (s : State) (f : Group → Nat → Lane → Lane) : (s.mapPick f).hamper = s.hamper := by unfold State.mapPick; split <;> rfl
@[simp] theorem mapPick_flasks (s : State) (f : Group → Nat → Lane → Lane) : (s.mapPick f).flasks = s.flasks := by unfold State.mapPick; split <;> rfl
@[simp] theorem mapPick_sched (s : State) (f : Group → Nat → Lane → Lane) : (s.mapPick f).sched = s.sched := by unfold State.mapPick; split <;> rfl
@[simp] theorem mapPick_plat (s : State) (f : Group → Nat → Lane → Lane) : (s.mapPick f).plat = s.plat := by unfold State.mapPick; split <;> rfl
@[simp] theorem mapPick_errlog (s : State) (f : Group → Nat → Lane → Lane) : (s.mapPick f).errlog = s.errlog := by unfold State.mapPick; split <;> rfl
@[simp] theorem mapPick_outbox (s : State) (f : Group → Nat → Lane → Lane) : (s.mapPick f).outbox = s.outbox := by unfold State.mapPick; split <;> rfl

@[simp] theorem mapPickGroups_agenda (s : State) (f : BitVec 64 → Group → Group) : (s.mapPickGroups f).agenda = s.agenda := by unfold State.mapPickGroups; split <;> rfl
@[simp] theorem mapPickGroups_fresh (s : State) (f : BitVec 64 → Group → Group) : (s.mapPickGroups f).fresh = s.fresh := by unfold State.mapPickGroups; split <;> rfl
@[simp] theorem mapPickGroups_clock (s : State) (f : BitVec 64 → Group → Group) : (s.mapPickGroups f).clock = s.clock := by unfold State.mapPickGroups; split <;> rfl
@[simp] theorem mapPickGroups_mem (s : State) (f : BitVec 64 → Group → Group) : (s.mapPickGroups f).mem = s.mem := by unfold State.mapPickGroups; split <;> rfl
@[simp] theorem mapPickGroups_home (s : State) (f : BitVec 64 → Group → Group) : (s.mapPickGroups f).home = s.home := by unfold State.mapPickGroups; split <;> rfl
@[simp] theorem mapPickGroups_dies (s : State) (f : BitVec 64 → Group → Group) : (s.mapPickGroups f).dies = s.dies := by unfold State.mapPickGroups; split <;> rfl
@[simp] theorem mapPickGroups_trusted (s : State) (f : BitVec 64 → Group → Group) : (s.mapPickGroups f).trusted = s.trusted := by unfold State.mapPickGroups; split <;> rfl
@[simp] theorem mapPickGroups_xlate (s : State) (f : BitVec 64 → Group → Group) : (s.mapPickGroups f).xlate = s.xlate := by unfold State.mapPickGroups; split <;> rfl
@[simp] theorem mapPickGroups_regs (s : State) (f : BitVec 64 → Group → Group) : (s.mapPickGroups f).regs = s.regs := by unfold State.mapPickGroups; split <;> rfl
@[simp] theorem mapPickGroups_cores (s : State) (f : BitVec 64 → Group → Group) : (s.mapPickGroups f).cores = s.cores := by unfold State.mapPickGroups; split <;> rfl
@[simp] theorem mapPickGroups_quads (s : State) (f : BitVec 64 → Group → Group) : (s.mapPickGroups f).quads = s.quads := by unfold State.mapPickGroups; split <;> rfl
@[simp] theorem mapPickGroups_teams (s : State) (f : BitVec 64 → Group → Group) : (s.mapPickGroups f).teams = s.teams := by unfold State.mapPickGroups; split <;> rfl
@[simp] theorem mapPickGroups_ports (s : State) (f : BitVec 64 → Group → Group) : (s.mapPickGroups f).ports = s.ports := by unfold State.mapPickGroups; split <;> rfl
@[simp] theorem mapPickGroups_cur (s : State) (f : BitVec 64 → Group → Group) : (s.mapPickGroups f).cur = s.cur := by unfold State.mapPickGroups; split <;> rfl
@[simp] theorem mapPickGroups_reqs (s : State) (f : BitVec 64 → Group → Group) : (s.mapPickGroups f).reqs = s.reqs := by unfold State.mapPickGroups; split <;> rfl
@[simp] theorem mapPickGroups_nextId (s : State) (f : BitVec 64 → Group → Group) : (s.mapPickGroups f).nextId = s.nextId := by unfold State.mapPickGroups; split <;> rfl
@[simp] theorem mapPickGroups_seqr (s : State) (f : BitVec 64 → Group → Group) : (s.mapPickGroups f).seqr = s.seqr := by unfold State.mapPickGroups; split <;> rfl
@[simp] theorem mapPickGroups_engOps (s : State) (f : BitVec 64 → Group → Group) : (s.mapPickGroups f).engOps = s.engOps := by unfold State.mapPickGroups; split <;> rfl
@[simp] theorem mapPickGroups_tileOps (s : State) (f : BitVec 64 → Group → Group) : (s.mapPickGroups f).tileOps = s.tileOps := by unfold State.mapPickGroups; split <;> rfl
@[simp] theorem mapPickGroups_hamper (s : State) (f : BitVec 64 → Group → Group) : (s.mapPickGroups f).hamper = s.hamper := by unfold State.mapPickGroups; split <;> rfl
@[simp] theorem mapPickGroups_flasks (s : State) (f : BitVec 64 → Group → Group) : (s.mapPickGroups f).flasks = s.flasks := by unfold State.mapPickGroups; split <;> rfl
@[simp] theorem mapPickGroups_sched (s : State) (f : BitVec 64 → Group → Group) : (s.mapPickGroups f).sched = s.sched := by unfold State.mapPickGroups; split <;> rfl
@[simp] theorem mapPickGroups_plat (s : State) (f : BitVec 64 → Group → Group) : (s.mapPickGroups f).plat = s.plat := by unfold State.mapPickGroups; split <;> rfl
@[simp] theorem mapPickGroups_errlog (s : State) (f : BitVec 64 → Group → Group) : (s.mapPickGroups f).errlog = s.errlog := by unfold State.mapPickGroups; split <;> rfl
@[simp] theorem mapPickGroups_outbox (s : State) (f : BitVec 64 → Group → Group) : (s.mapPickGroups f).outbox = s.outbox := by unfold State.mapPickGroups; split <;> rfl

theorem core_setCore (s : State) (k j : Nat) (x : Core) : (s.setCore k x).core j = if j = k then x else s.core j :=
  alookup_aset ..
theorem core_updCore (s : State) (k j : Nat) (f : Core → Core) : (s.updCore k f).core j = if j = k then f (s.core k) else s.core j :=
  alookup_aset ..

theorem quad_setQuad (s : State) (k j : Nat) (x : Quad) : (s.setQuad k x).quad j = if j = k then x else s.quad j :=
  alookup_aset ..
theorem quad_updQuad (s : State) (k j : Nat) (f : Quad → Quad) : (s.updQuad k f).quad j = if j = k then f (s.quad k) else s.quad j :=
  alookup_aset ..

theorem die_setDie (s : State) (k j : Nat) (x : Die) : (s.setDie k x).die j = if j = k then x else s.die j :=
  alookup_aset ..
theorem die_updDie (s : State) (k j : Nat) (f : Die → Die) : (s.updDie k f).die j = if j = k then f (s.die k) else s.die j :=
  alookup_aset ..

/-- A change of one group that keeps its number changes the group of that number alone. -/
theorem group_updGroup (s : State) (gid k : Nat) (f : Group → Group) (hf : ∀ g, (f g).gid = g.gid) :
    (s.updGroup gid f).group? k = if k = gid then (s.group? gid).map f else s.group? k := by
  unfold State.group? State.updGroup
  simp only
  induction s.groups with
  | nil => simp
  | cons g gs ih =>
    simp only [List.map_cons, List.find?_cons]
    by_cases h : g.gid = gid <;> by_cases hk : g.gid = k
    · subst h; subst hk; simp [hf]
    · subst h; simp [hf, beq_eq_false_iff_ne.2 hk, Ne.symm hk, ih]
    · subst hk; simp [h]
    · simp only [h, if_false, beq_eq_false_iff_ne.2 hk, beq_eq_false_iff_ne.2 h, ih]

end Sys2Proof.Laws
end

