-- ==== Sys2Proof/Laws/Cross.lean ====
section
/-! SUPPORT. What a convergent instruction does when every live lane of its group is at it, said once. -/

namespace Sys2Proof.Laws

open Sys2Proof.Machine Sys2Proof.Claims

theorem group?_of_converged {s : State} {p : Pick} {gid : Nat} {m : BitVec 64} {g : Group}
    (h : Converged s p gid m g) : s.group? gid = some g := by
  have := h.group
  unfold State.group?
  rw [← List.head?_filter, this]; rfl

/-- Bit `i` of the mask of the lanes that satisfy a condition. -/
theorem foldl_mask (p : Nat → Lane → Bool) (ls : List Lane) (k : Nat) (acc : BitVec 64) (i : Nat) :
    ((ls.zipIdx k).foldl (fun m e => if p e.2 e.1 then m ||| (1#64 <<< e.2) else m) acc).getLsbD i =
      (acc.getLsbD i || (decide (i < 64) && decide (k ≤ i) && (match ls[i - k]? with | some l => p i l | none => false))) := by
  induction ls generalizing k acc with
  | nil => simp
  | cons l ls ih =>
    rw [List.zipIdx_cons, List.foldl_cons, ih]
    by_cases hik : i = k
    · subst hik
      by_cases hp : p i l = true <;> simp [hp]
    · by_cases hlt : k < i
      · have e : i - k = (i - (k + 1)) + 1 := by omega
        rw [e, List.getElem?_cons_succ]
        have h1 : decide (k + 1 ≤ i) = decide (k ≤ i) := by simp; omega
        rw [h1]
        split
        · have : (1#64 <<< k).getLsbD i = false := by
            rw [BitVec.getLsbD_shiftLeft]; simp; intros; omega
          simp [this]
        · rfl
      · have : decide (k + 1 ≤ i) = false := by simp; omega
        have h2 : decide (k ≤ i) = false := by simp; omega
        rw [this, h2]
        split
        · have : (1#64 <<< k).getLsbD i = false := by
            rw [BitVec.getLsbD_shiftLeft]; simp; intros; omega
          simp [this]
        · simp

theorem maskOf_bit (g : Group) (p : Nat → Lane → Bool) (i : Nat) :
    (g.maskOf p).getLsbD i = (decide (i < 64) && (match g.lanes[i]? with | some l => p i l | none => false)) := by
  have := foldl_mask p g.lanes 0 0#64 i
  simpa [Group.maskOf] using this

theorem maskOf_congr (g : Group) {p q : Nat → Lane → Bool} (h : ∀ i l, g.lanes[i]? = some l → p i l = q i l) :
    g.maskOf p = g.maskOf q := by
  apply BitVec.eq_of_getLsbD_eq; intro i hi
  rw [maskOf_bit, maskOf_bit]
  cases hl : g.lanes[i]? with
  | none => rfl
  | some l => simp [h i l hl]

theorem lowest_none (g : Group) (m : BitVec 64) (h : m = 0#64) (p : Nat → Lane → Bool) : g.lowest m p = none := by
  unfold Group.lowest
  have : (g.lanes.zipIdx).find? (fun e => m.getLsbD e.2 && p e.2 e.1) = none := by
    rw [List.find?_eq_none]; intro e _; simp [h]
  rw [this]

theorem bank_of_no_frames {g : Group} (h : g.frames = []) (i : Nat) : g.bank i = 0 := by simp [Group.bank, h]

/-- A bank without lanes of the pick does nothing. -/
theorem convergeBank_empty (s : State) (n : Nat) (perform : State → Nat → BitVec 64 → State) (gid b : Nat)
    (m : BitVec 64) (h : ∀ g, s.group? gid = some g → g.frames = []) (hb : b ≠ 0) :
    s.convergeBank n perform gid b m = s := by
  unfold State.convergeBank
  cases hc : s.cur with
  | none => rfl
  | some p =>
    cases hg : s.group? gid with
    | none => rfl
    | some g =>
      have e : (g.maskOf fun i _ => m.getLsbD i && g.bank i == b) = 0#64 := by
        apply BitVec.eq_of_getLsbD_eq; intro i hi
        rw [maskOf_bit]; cases g.lanes[i]? <;> simp [bank_of_no_frames (h g hg)]; intros; omega
      simp only [e, lowest_none _ _ rfl]

theorem lowest_some (g : Group) (m : BitVec 64) (h : g.maskOf (fun i _ => m.getLsbD i) = m) (hm : m ≠ 0#64) :
    ∃ e, g.lowest m (fun _ _ => true) = some e := by
  unfold Group.lowest
  cases hf : (g.lanes.zipIdx).find? (fun e => m.getLsbD e.2 && true) with
  | some e => exact ⟨_, rfl⟩
  | none =>
    exfalso; apply hm
    rw [List.find?_eq_none] at hf
    rw [← h]; apply BitVec.eq_of_getLsbD_eq; intro i hi
    rw [maskOf_bit]
    cases hl : g.lanes[i]? with
    | none => simp
    | some l =>
      have : (l, i) ∈ g.lanes.zipIdx := by
        rw [List.mem_zipIdx_iff_getElem?]; exact hl
      have := hf _ this
      simp_all

/-- When no lane of the pick has an answer out that may trap it, none waits at issue (R193, log 27). -/
theorem holdAwaiting_settled {s : State} (h : Settled s) : s.holdAwaiting = s := by
  unfold State.holdAwaiting State.forPick
  cases hc : s.cur with
  | none => rfl
  | some p =>
    have key : ∀ es : List (Nat × BitVec 64), (∀ e ∈ es, e ∈ p.members) → es.foldl (fun s e =>
        match s.group? e.1 with
        | none => s
        | some g =>
          let w := g.maskOf fun i _ => e.2.getLsbD i && s.awaits e.1 i
          if w = 0#64 then s else s.holdLanes e.1 w) s = s := by
      intro es
      induction es with
      | nil => intro _; rfl
      | cons e es ih =>
        intro hes
        have hw : ∀ g : Group, (g.maskOf fun i _ => e.2.getLsbD i && s.awaits e.1 i) = 0#64 := by
          intro g; apply BitVec.eq_of_getLsbD_eq; intro i hi
          rw [maskOf_bit]
          cases hb : e.2.getLsbD i with
          | false => cases g.lanes[i]? <;> simp
          | true =>
            have := h p hc e (hes e List.mem_cons_self) i hb
            cases g.lanes[i]? <;> simp [this]
        rw [List.foldl_cons]
        have : (match s.group? e.1 with
            | none => s
            | some g =>
              let w := g.maskOf fun i _ => e.2.getLsbD i && s.awaits e.1 i
              if w = 0#64 then s else s.holdLanes e.1 w) = s := by
          cases s.group? e.1 with
          | none => rfl
          | some g => simp [hw g]
        rw [this]
        exact ih fun x hx => hes x (List.mem_cons_of_mem _ hx)
    exact key p.members fun _ he => he

theorem lowest_is {g : Group} {m : BitVec 64} {e : Nat × Lane} (h : g.lowest m (fun _ _ => true) = some e) :
    LowestLane g m (fun _ => True) e.1 e.2 := by
  unfold Group.lowest at h
  cases hf : (g.lanes.zipIdx).find? (fun e => m.getLsbD e.2 && true) with
  | none => rw [hf] at h; cases h
  | some x =>
    rw [hf] at h
    obtain rfl : (x.2, x.1) = e := by simpa using h
    have hmem := List.mem_of_find?_eq_some hf
    have hp := List.find?_some hf
    rw [List.mem_zipIdx_iff_getElem?] at hmem
    refine ⟨hmem, by simpa using hp, trivial, fun k y hk hy hb _ => ?_⟩
    obtain ⟨_, as, bs, hl, hnone⟩ := List.find?_eq_some_iff_append.1 hf
    have hlt : k < x.2 := hk
    have hlen : as.length = x.2 := by
      have : (g.lanes.zipIdx)[as.length]? = some x := by rw [hl]; simp
      rw [List.getElem?_zipIdx] at this
      cases hg : g.lanes[as.length]? with
      | none => rw [hg] at this; cases this
      | some z => rw [hg] at this; have := Option.some.inj this; rw [← this]; simp
    have hget : (g.lanes.zipIdx)[k]? = some (y, k) := by rw [List.getElem?_zipIdx, hy]; simp
    rw [hl, List.getElem?_append_left (by omega)] at hget
    have := hnone _ (List.mem_of_getElem? hget)
    simp_all

/-- Bank 0 of a converged group performs at once, and the lanes that are parked then have missed it (R171). -/
theorem convergeBank_zero {s : State} {p : Pick} {gid : Nat} {m : BitVec 64} {g : Group} (h : Converged s p gid m g)
    (n : Nat) (perform : State → Nat → BitVec 64 → State) : ∃ (i : Nat) (l : Lane), LowestLane g m (fun _ => True) i l ∧
    s.convergeBank n perform gid 0 m = (perform s gid m).updGroup gid fun g => g.converged (p.counter l) 0 0#64 m := by
  have hm : (g.maskOf fun i _ => m.getLsbD i) = m := by
    conv_rhs => rw [← h.live]
    apply BitVec.eq_of_getLsbD_eq; intro i hi
    rw [maskOf_bit, maskOf_bit]
    cases hl : g.lanes[i]? with
    | none => rfl
    | some l =>
      rw [← h.live, maskOf_bit, hl]; simp
  have hmine : (g.maskOf fun i _ => m.getLsbD i && g.bank i == 0) = m := by
    conv_rhs => rw [← hm]
    apply maskOf_congr; intros; simp [bank_of_no_frames h.bank]
  have hlive : g.liveIn 0 = m := by
    rw [← h.live]; unfold Group.liveIn; apply maskOf_congr; intros; simp [bank_of_no_frames h.bank]
  obtain ⟨e, he⟩ := lowest_some g m hm h.some
  have hw : ∀ k, g.waitersAt p 0 k = 0#64 := by
    intro k; apply BitVec.eq_of_getLsbD_eq; intro i hi
    unfold Group.waitersAt; rw [maskOf_bit]
    cases hl : g.lanes[i]? with
    | none => simp
    | some l =>
      have := h.ready l (List.mem_of_getElem? hl)
      by_cases hs : l.status = .waiting .converge
      · exact absurd (this (by simp [Lane.live, hs])) (by simp [hs])
      · simp [hs]
  refine ⟨e.1, e.2, lowest_is he, ?_⟩
  unfold State.convergeBank
  simp only [h.pick, group?_of_converged h, hmine, he, hw, hlive, BitVec.or_zero, if_true]

theorem mapLanes_zero (g : Group) (f : Nat → Lane → Lane) : g.mapLanes 0#64 f = g := by
  have : (g.lanes.mapIdx fun i l => if (0#64).getLsbD i then f i l else l) = g.lanes := by
    apply List.ext_getElem? ; intro i; rw [List.getElem?_mapIdx]; cases g.lanes[i]? <;> simp
  unfold Group.mapLanes; rw [this]

theorem group?_updGroup (s : State) (gid : Nat) (f : Group → Group) (hf : ∀ g, (f g).gid = g.gid) :
    (s.updGroup gid f).group? gid = (s.group? gid).map f := by
  unfold State.group? State.updGroup
  simp only [List.find?_map, Function.comp_def]
  have : (fun x : Group => (if x.gid = gid then f x else x).gid == gid) = fun x => x.gid == gid := by
    funext x; split <;> simp [*]
  rw [this]
  cases hx : s.groups.find? fun g => g.gid == gid with
  | none => rfl
  | some g => have := List.find?_some hx; simp_all

/-- A change of the lanes of a group that is the only one of its number. -/
theorem updGroup_becomes {s : State} {p : Pick} {gid : Nat} {m : BitVec 64} {g : Group} (h : Converged s p gid m g)
    (f : Group → Nat → Lane → Lane) (R : Group → Nat → Lane → Lane → Prop) (hR : ∀ i l, g.lanes[i]? = some l → R g i l (f g i l)) :
    LanesBecome s (s.updGroup gid fun g => g.mapLanes m (f g)) (Taking gid m) R := by
  have only : ∀ x ∈ s.groups, x.gid = gid → x = g := by
    intro x hx hg
    have : x ∈ s.groups.filter (fun g => g.gid == gid) := by simp [hx, hg]
    rw [h.group] at this; simpa using this
  refine ⟨rfl, by simp [State.updGroup], fun k x hk => ⟨if x.gid = gid then x.mapLanes m (f x) else x, ?_, ?_, ?_, ?_⟩⟩
  · simp [State.updGroup, hk]
  · split <;> rfl
  · split <;> simp [Group.mapLanes]
  · intro i l hl
    by_cases hx : x.gid = gid
    · obtain rfl : x = g := only x (List.mem_of_getElem? hk) hx
      refine ⟨if m.getLsbD i then f x i l else l, by simp [hx, Group.mapLanes, List.getElem?_mapIdx, hl], ?_, ?_⟩
      · rintro ⟨-, hm⟩; simpa [hm] using hR i l hl
      · intro hn
        have : m.getLsbD i = false := by by_contra hm; exact hn ⟨hx, by simpa using hm⟩
        simp [this]
    · exact ⟨l, by simp [hx, hl], fun hn => absurd hn.1 hx, fun _ => rfl⟩

/-- A convergent instruction whose performance leaves its lanes ready has been performed (R171). -/
theorem converged_performed (h : Group) (c : DWord × Nat × Nat) (b : Nat) (m : BitVec 64)
    (hr : ∀ i l, h.lanes[i]? = some l → m.getLsbD i = true → l.status ≠ .waiting .resource) :
    h.converged c b 0#64 m = h.noteConverged c b m := by
  unfold Group.converged
  rw [mapLanes_zero]
  have : h.heldBack m = false := by
    unfold Group.heldBack
    have : (h.maskOf fun i l => m.getLsbD i && l.status == .waiting .resource) = 0#64 := by
      apply BitVec.eq_of_getLsbD_eq; intro i hi
      rw [maskOf_bit]
      cases hl : h.lanes[i]? with
      | none => simp
      | some l =>
        cases hb : m.getLsbD i with
        | false => simp
        | true => simp [hr i l hl hb]
    simp [this]
  simp [this]

/-- Everything that a cross-lane instruction does when it performs at once. -/
theorem crossLanes_becomes {s : State} {p : Pick} {gid : Nat} {m : BitVec 64} {g : Group} (h : Converged s p gid m g)
    (f : Group → BitVec 64 → Nat → Lane → Lane) (R : Group → Nat → Lane → Lane → Prop)
    (hR : ∀ i l, g.lanes[i]? = some l → R g i l (f g m i l))
    (hs : ∀ i l, g.lanes[i]? = some l → (f g m i l).status = l.status) :
    ∃ t, Performed t (s.crossLanes f) p g m ∧ LanesBecome s t (Taking gid m) R := by
  have hgid : g.gid = gid := by
    have : g ∈ s.groups.filter (fun g => g.gid == gid) := by rw [h.group]; simp
    simpa using (List.mem_filter.1 this).2
  have only : ∀ x ∈ s.groups, x.gid = gid → x = g := by
    intro x hx hg
    have : x ∈ s.groups.filter (fun g => g.gid == gid) := by simp [hx, hg]
    rw [h.group] at this; simpa using this
  obtain ⟨i, l, hlow, hz⟩ := convergeBank_zero h 1 fun s gid m => s.updGroup gid fun g => g.mapLanes m (f g m)
  have hst : ∀ j x, (g.mapLanes m (f g m)).lanes[j]? = some x → m.getLsbD j = true → x.status ≠ .waiting .resource := by
    intro j x hx hb
    simp only [Group.mapLanes, List.getElem?_mapIdx, hb, if_true] at hx
    cases hl : g.lanes[j]? with
    | none => simp [hl] at hx
    | some y =>
      obtain rfl : f g m j y = x := by simpa [hl] using hx
      have hlive : y.live = true := by
        have := congrArg (fun v : BitVec 64 => v.getLsbD j) h.live
        simp only [maskOf_bit, hl, hb] at this
        simp_all
      rw [hs j y hl, h.ready y (List.mem_of_getElem? hl) hlive]
      simp
  have e : s.crossLanes f = (s.updGroup gid fun g => g.mapLanes m (f g m)).updGroup gid fun h => h.noteConverged (p.counter l) 0 m := by
    unfold State.crossLanes State.converge
    rw [holdAwaiting_settled h.settled]
    unfold State.forPick
    simp only [h.pick, h.members, List.foldl_cons, List.foldl_nil]
    rw [hz]
    have e1 : ((s.updGroup gid fun g => g.mapLanes m (f g m)).updGroup gid fun g => g.converged (p.counter l) 0 0#64 m) =
        (s.updGroup gid fun g => g.mapLanes m (f g m)).updGroup gid fun h => h.noteConverged (p.counter l) 0 m := by
      unfold State.updGroup
      simp only [List.map_map]
      congr 1
      apply List.map_congr_left
      intro x hx
      by_cases hg : x.gid = gid
      · obtain rfl := only x hx hg
        simp [hg, Group.mapLanes]
        exact converged_performed _ _ _ _ hst
      · simp [hg]
    rw [e1]
    have hf : ∀ g', ((s.updGroup gid fun g => g.mapLanes m (f g m)).updGroup gid fun h =>
        h.noteConverged (p.counter l) 0 m).group? gid = some g' → g'.frames = [] := by
      intro g' hg'
      rw [group?_updGroup _ _ _ (by intro; rfl), group?_updGroup _ _ _ (by intro; rfl), group?_of_converged h] at hg'
      obtain rfl : (g.mapLanes m (f g m)).noteConverged (p.counter l) 0 m = g' := by simpa using hg'
      exact h.bank
    rw [convergeBank_empty _ _ _ _ _ _ hf (by decide), convergeBank_empty _ _ _ _ _ _ hf (by decide)]
  exact ⟨_, ⟨i, l, hlow, by rw [hgid]; exact e⟩, updGroup_becomes h (fun g => f g m) R hR⟩

end Sys2Proof.Laws
end

