-- ==== Sys2Proof/Laws/Groups.lean ====
section
/-! SUPPORT. What the operations on a group's lanes do, said once: taking a trap, waiting, and changing masked lanes. -/

namespace Sys2Proof.Laws

open Sys2Proof.Machine Sys2Proof.Claims

/-- Nothing of a group but its masked lanes. -/
theorem mapLanes_lanes (g : Group) (m : BitVec 64) (f : Nat → Lane → Lane) :
    LanesTo g (g.mapLanes m f) fun i l l' => l' = if m.getLsbD i then f i l else l := by
  refine ⟨by simp [Group.mapLanes], fun i l hl => ⟨_, ?_, rfl⟩⟩
  simp [Group.mapLanes, List.getElem?_mapIdx, hl]

theorem mapLanes_kept (g : Group) (m : BitVec 64) (f : Nat → Lane → Lane) :
    g.mapLanes m f = { g with lanes := (g.mapLanes m f).lanes } := rfl

/-- Lane `i` is in the mask of a list of traps when it has one of them. -/
theorem lanesOf_bit (ts : List LaneTrap) (i : Nat) (hi : i < 64) : (lanesOf ts).getLsbD i = true ↔ ∃ t ∈ ts, t.lane = i := by
  have key : ∀ (ts : List LaneTrap) (acc : BitVec 64),
      (ts.foldl (fun m t => m ||| (1#64 <<< t.lane)) acc).getLsbD i = true ↔ acc.getLsbD i = true ∨ ∃ t ∈ ts, t.lane = i := by
    intro ts
    induction ts with
    | nil => simp
    | cons t ts ih =>
      intro acc
      rw [List.foldl_cons, ih]
      have h1 : (1#64 <<< t.lane).getLsbD i = true ↔ t.lane = i := by
        simp only [BitVec.getLsbD_shiftLeft, BitVec.getLsbD_one, hi, decide_true, Bool.true_and, Bool.and_eq_true,
          Bool.not_eq_true', decide_eq_false_iff_not, decide_eq_true_eq]
        omega
      simp only [BitVec.getLsbD_or, Bool.or_eq_true, h1, List.mem_cons, exists_eq_or_imp, or_assoc]
  simpa [lanesOf] using key ts 0#64

theorem lowestTrap_none (ts : List LaneTrap) (h : lowestTrap ts = none) : ts = [] := by
  cases ts with
  | nil => rfl
  | cons t ts =>
    simp only [lowestTrap] at h
    split at h
    · cases h
    · split at h <;> cases h

/-- The trap of the lowest lane of a list. -/
theorem lowestTrap_some (ts : List LaneTrap) (t : LaneTrap) (h : lowestTrap ts = some t) :
    t ∈ ts ∧ ∀ u ∈ ts, t.lane ≤ u.lane := by
  induction ts generalizing t with
  | nil => cases h
  | cons x xs ih =>
    simp only [lowestTrap] at h
    cases hx : lowestTrap xs with
    | none =>
      rw [hx] at h
      cases h
      have := lowestTrap_none xs hx
      subst this
      simp
    | some u =>
      rw [hx] at h
      have hu := ih u hx
      simp only at h
      split at h <;> rename_i hlt <;> cases h
      · refine ⟨List.mem_cons_of_mem _ hu.1, fun v hv => ?_⟩
        rcases List.mem_cons.1 hv with rfl | hv
        · exact hlt.le
        · exact hu.2 v hv
      · refine ⟨List.mem_cons_self, fun v hv => ?_⟩
        rcases List.mem_cons.1 hv with rfl | hv
        · exact le_refl _
        · exact le_trans (not_lt.1 hlt) (hu.2 v hv)

/-- Traps of one cause have that cause alone. -/
theorem causesOf_one (ts : List LaneTrap) (c : DWord) (hne : ts ≠ []) (hc : ∀ t ∈ ts, t.cause = c) : causesOf ts = [c] := by
  have key : ∀ (ts : List LaneTrap), (∀ t ∈ ts, t.cause = c) → ts.foldl (fun acc t => insertCause t.cause acc) [c] = [c] := by
    intro ts
    induction ts with
    | nil => intro _; rfl
    | cons t ts ih =>
      intro h
      rw [List.foldl_cons, h t List.mem_cons_self]
      simp only [insertCause, if_true]
      exact ih fun u hu => h u (List.mem_cons_of_mem _ hu)
  cases ts with
  | nil => exact absurd rfl hne
  | cons t ts =>
    unfold causesOf
    rw [List.foldl_cons, hc t List.mem_cons_self]
    exact key ts fun u hu => hc u (List.mem_cons_of_mem _ hu)

/-- TAKING A TRAP, said once (R443): the lanes `k`, which all trap with one cause, form one parked sub-group, and nothing else of
the group changes but the counters that count traps. -/
theorem park_parked (g : Group) (at' : Lane → Place) (keep : List Nat) (ts : List LaneTrap) (k : BitVec 64) (c : DWord)
    (va : Nat → Lane → DWord) (hk : k ≠ 0#64) (hb : ∀ t ∈ ts, t.lane < 64)
    (hl : ∀ n, n < 64 → (k.getLsbD n = true ↔ ∃ t ∈ ts, t.lane = n)) (hc : ∀ t ∈ ts, t.cause = c)
    (hg : ∀ t ∈ ts, ∃ l, g.lanes[t.lane]? = some l ∧ t.va = va t.lane l) :
    Parked g (g.park at' none keep ts) k at' c va keep := by
  have hlanes : lanesOf ts = k := by
    apply BitVec.eq_of_getLsbD_eq; intro i hi
    rw [Bool.eq_iff_iff, lanesOf_bit ts i hi, hl i hi]
  have hne : ts ≠ [] := by
    rintro rfl
    exact hk (hlanes ▸ rfl)
  have hf : (ts.filter fun t => t.cause == c) = ts := List.filter_eq_self.2 fun t ht => by simp [hc t ht]
  cases hlow : lowestTrap ts with
  | none => exact absurd (lowestTrap_none ts hlow) hne
  | some low =>
    obtain ⟨hmem, hleast⟩ := lowestTrap_some ts low hlow
    obtain ⟨l, hgl, hva⟩ := hg low hmem
    unfold Group.park
    rw [causesOf_one ts c hne hc]
    simp only [List.foldl_cons, List.foldl_nil, hf, hlow, hlanes, hgl]
    refine ⟨rfl, mapLanes_lanes g k _, low.lane, l, ⟨hgl, ?_, trivial, ?_⟩, ?_⟩
    · exact (hl low.lane (hb low hmem)).2 ⟨low, hmem, rfl⟩
    · intro n x hn _ hkn
      obtain ⟨t, ht, rfl⟩ := (hl n (lt_of_lt_of_le hn (hb low hmem).le)).1 hkn
      exact absurd (hleast t ht) (not_le.2 hn)
    · simp [Group.count, Group.mapLanes, hva, Place.address]

/-- Lanes that leave the pick to wait (R169, R170). -/
theorem mapLanes_waits (p : Pick) (g : Group) (m : BitVec 64) (n : Nat) (w : Wait) :
    Waits p g (g.mapLanes m fun _ l => p.wait n w l) m n w :=
  ⟨rfl, mapLanes_lanes g m _⟩

/-- Lanes that leave a pick which lists their group once. -/
theorem leave_members (s : State) (p : Pick) (gid : Nat) (m k : BitVec 64) (hp : s.cur = some p)
    (hm : p.members.filter (fun e => e.1 == gid) = [(gid, m)]) :
    ∃ q, (s.leave gid k).cur = some q ∧ q.members.filter (fun e => e.1 == gid) = [(gid, m &&& ~~~k)] := by
  refine ⟨p.remove gid k, by simp [State.leave, hp], ?_⟩
  have key : ∀ (es : List (Nat × BitVec 64)),
      (es.map fun e => if e.1 = gid then (e.1, e.2 &&& ~~~k) else e).filter (fun e => e.1 == gid) =
        (es.filter fun e => e.1 == gid).map fun e => (e.1, e.2 &&& ~~~k) := by
    intro es
    induction es with
    | nil => rfl
    | cons e es ih =>
      by_cases h : e.1 = gid
      · simp [h, ih]
      · simp [h, ih]
  simp only [Pick.remove]
  rw [key, hm]
  rfl

end Sys2Proof.Laws
end

