-- ==== Sys2Proof/Machine/Registers.lean ====
section
/-! DEFINITION. Reads of the registers in the BAR 0 windows (R10, R474, R475): what a read returns. A read changes nothing,
and the opcode table has no event for one: `State.readBar0` is what the outside world sees of the machine. -/

namespace Sys2Proof.Machine

/-- What a read that no register answers returns (R474). -/
def noRead : DWord := BitVec.allOnes 64

/-- Submission queue registers from an offset within their block (R426). -/
def State.readSq (s : State) (fn off : Nat) : DWord :=
  let q := s.sq fn (off / 0x20)
  match off % 0x20 with
  | 0x00 => q.base
  | 0x08 => q.ctrl
  | 0x10 => q.tail
  | _ => q.head

/-- The registers of an invalidation queue (R43). -/
def State.readIq (s : State) (fn off : Nat) : DWord :=
  let q := s.iq fn
  match off with
  | 0x00 => q.base
  | 0x08 => q.ctrl
  | 0x10 => q.tail
  | _ => q.head

/-- A function window, or the hypervisor's queues, whose submission queues begin at an offset. -/
def State.readWindow (s : State) (fn off sqAt : Nat) : DWord :=
  if off < 0x20 then s.readIq fn off
  else if sqAt ≤ off ∧ off < sqAt + 0x200 then s.readSq fn (off - sqAt)
  else 0

/-- Device control (R475). -/
def State.readControl (s : State) (off : Nat) : DWord :=
  match off with
  | 0x00 => s.regs.gdtBase
  | 0x08 => s.regs.preDL
  | 0x10 => s.regs.hloss
  | 0x18 => s.regs.domNode
  | 0x20 => s.regs.domCtrl
  | 0x28 => s.regs.pwrLimit
  | _ => 0

/-- The 64-bit registers of a base die (R124). -/
def State.readDie (s : State) (die off : Nat) : DWord :=
  let d := s.die die
  match off with
  | 0x08 => d.migCtrl
  | 0x10 => d.pqBase
  | 0x18 => d.pqHead
  | 0x20 => d.pqTail
  | 0x28 => d.rqTail
  | 0x30 => d.rqHead
  | _ => 0

/-- QREP: STATE is that of the quad which QUAD names, and CMD reads 0 (R489). -/
def State.readQrep (s : State) : DWord :=
  let r := s.regs.qrep
  0#50 ++ s.qstate (fldN r 0 8) ++ fld r 10 1 ++ 0#2 ++ fld r 0 8

/-- A word of the debug window: the flask table, and then the range-lock tables (R77, R147, R474). -/
def State.readDebug (s : State) (off : Nat) : DWord :=
  if off < 0x80000 then fld (s.flaskEntry (off / 32)) (64 * (off % 32 / 8)) 64
  else
    let o := off - 0x80000
    fld (alookup (s.quad (o / 0x800)).ranges (o % 0x800 / 16) 0) (64 * (o % 16 / 8)) 64

/-- The state dump window: what it shows has no layout in the manual, and is a free value while it is open (R474, log 125). -/
def State.readDump (s : State) (off : Nat) : DWord := if s.plat.debug = .device then Config.dumpWord off else noRead

/-- An aligned 64-bit read in function 0's BAR 0 (R474). -/
def State.read64 (s : State) (off : Nat) : DWord :=
  let blk := off / 65536
  let o := off % 65536
  if blk = 0 then s.readControl o
  else if blk = 1 then s.readWindow hyperQueue o 0x100
  else if 0x40000 ≤ off ∧ off < 0x40020 then fld s.regs.featNative (8 * (off - 0x40000)) 64
  else if 0x40020 ≤ off ∧ off < 0x40020 + 32 * 4096 then
    fld (alookup s.regs.featMask ((off - 0x40020) / 32) (BitVec.allOnes 256)) (8 * ((off - 0x40020) % 32)) 64
  else if 8 ≤ blk ∧ blk < 12 then s.readDie (blk - 8) o
  else if blk = 12 then
    if o = 0 then s.regs.collBase else if o = 8 then s.regs.hbmRetire else if o = 16 then s.readQrep else 0
  else if blk = 13 then s.readIq (o / 16) (o % 16)
  else if blk = 14 then s.readWindow 0 o 0x1000
  else if 0x1000000 ≤ off ∧ off < 0x10D0000 then s.readDebug (off - 0x1000000)
  else if 0x1100000 ≤ off ∧ off < 0x2000000 then s.readDump (off - 0x1100000)
  else 0

/-- The 32-bit registers: STICKY.QUOTA (R64), SCHED.QUANT (R439) and COH.PURGE_DL (R124). -/
def State.read32? (s : State) (off : Nat) : Option Word :=
  if 0x20000 ≤ off ∧ off < 0x20040 then some (alookup s.regs.stickyQuota ((off - 0x20000) / 4) 0)
  else if 0x30000 ≤ off ∧ off < 0x34000 then some (alookup s.regs.schedQuant ((off - 0x30000) / 4) 0x1388#32)
  else if 8 ≤ off / 65536 ∧ off / 65536 < 12 ∧ off % 65536 = 0 then some (s.die (off / 65536 - 8)).purgeDL
  else none

/-- A READ OF BAR 0 of `size` bytes, at an offset as in REGISTER_WRITE: function 0 below 64 MiB and function *n* at *n* times
64 MiB. A read of another size or alignment than its register's, and a read of a function in reset, returns all ones (R474,
R476). -/
def State.readBar0 (s : State) (off size : Nat) : DWord :=
  let fn := off / 2 ^ 26
  let o := off % 2 ^ 26
  if s.inReset fn then noRead
  else if size = 4 ∧ o % 4 = 0 ∧ fn = 0 then
    match s.read32? o with
    | some w => w.setWidth 64
    | none => noRead
  else if size = 8 ∧ o % 8 = 0 then
    if fn = 0 then (if (s.read32? o).isSome then noRead else s.read64 o)
    else if fn < 4096 ∧ o < 65536 then s.readWindow fn o 0x1000
    else noRead
  else noRead

end Sys2Proof.Machine
end

