-- ==== Sys2Proof/Tests/Slice0.lean ====
section
/-! SUPPORT. Tests: ill-formed terms, words written out from the manual's encodings, single steps on small states, and states
that meet the hypotheses of the statements. -/

namespace Sys2Proof.Tests

open Sys2Proof Sys2Proof.Machine Sys2Proof.Claims

/-! ### Every check of WellFormed refuses a term -/

/-- R190: WS 1 with D not 0. -/
theorem test_ill_ws : (Instr.addB32 5 1 0 0).illFormed = some .mustBeZero := by decide
/-- R189: 1.0 is no 64-bit operand. -/
theorem test_ill_src64_constant : (Instr.addB64 0 0 0x88 0x84).illFormed = some .illegalOperand := by decide
/-- R188: an odd vector register is no pair. -/
theorem test_ill_src64_odd : (Instr.addB64 0 0 0x84 0x07).illFormed = some .illegalOperand := by decide
/-- R188: latch b1 holds no 64-bit result. -/
theorem test_ill_src64_latch : (Instr.selB64 0 0 0x81 0x84 0).illFormed = some .illegalOperand := by decide
/-- R291: a transfer target is a scalar or an even pair. -/
theorem test_ill_target : (Instr.jmp 0x84).illFormed = some .illegalOperand := by decide
/-- R298: a scalar source of a check is 64 bits wide. -/
theorem test_ill_check : (Instr.chkb 0 0x8F 0x04).illFormed = some .illegalOperand := by decide
/-- R299: an exponent above 4. -/
theorem test_ill_align : (Instr.chkaln 0xC4 5).illFormed = some .mustBeZero := by decide
/-- R295: a vector register is no loop count. -/
theorem test_ill_count : (Instr.loop 1 0x05 []).illFormed = some .illegalOperand := by decide
/-- R201: a loop of no clauses. -/
theorem test_ill_loop : (Instr.loop 0 0x90 []).illFormed = some .loopField := by decide
/-- R201: five increments. -/
theorem test_ill_increments : (Instr.loop 1 0x90 (List.replicate 5 ⟨0, 1, 1, 1⟩)).illFormed = some .loopField := by decide
/-- R314: a latch is no source of an exchange. -/
theorem test_ill_latch : (Instr.xlPick 4 0 0x80 0x84).illFormed = some .illegalOperand := by decide
/-- R129: SCOPE 0b111 is reserved. -/
theorem test_ill_scope : (Instr.ldB32 0 0xC4 0x84 ⟨1, 7, 0, 0, 0⟩).illFormed = some .scopeOrder := by decide
/-- R132: ORDER 0b101 is reserved. -/
theorem test_ill_order : (Instr.ldB32 0 0xC4 0x84 ⟨1, 4, 5, 0, 0⟩).illFormed = some .scopeOrder := by decide
/-- R325: the pair of an 8-byte load is even. -/
theorem test_ill_even : (Instr.ldB64 3 0xC4 0x84 ⟨1, 4, 0, 0, 0⟩).illFormed = some .illegalOperand := by decide
/-- R325: the registers of a 16-byte load begin at a multiple of 4. -/
theorem test_ill_aligned : (Instr.ldB128 2 0xC4 0x84 ⟨1, 4, 0, 0, 0⟩).illFormed = some .illegalOperand := by decide
/-- R330: a stash operation's source is uniform. -/
theorem test_ill_uniform : (Instr.stashFlush 0x04 ⟨1, 4, 0, 0, 0⟩).illFormed = some .illegalOperand := by decide
/-- R332: RET of a flask operation is 0b01. -/
theorem test_ill_fixed : (Instr.flaskSeal 0 0xC4 ⟨0, 4, 0, 0, 0⟩).illFormed = some .mustBeZero := by decide
/-- R345: the scalars of a collective are even. -/
theorem test_ill_scalar2 : (Instr.coll 0xC1 0xC2 ⟨1, 4, 0, 0, 0⟩).illFormed = some .illegalOperand := by decide
/-- R343: the scalars of a gather begin at a multiple of 4. -/
theorem test_ill_scalar4 : (Instr.gather 0xC4 0xC2 ⟨1, 4, 0, 0, 0⟩).illFormed = some .illegalOperand := by decide
/-- R340: a lock is named by a scalar. -/
theorem test_ill_scalar : (Instr.lockAcq 0x04 ⟨1, 4, 0, 0, 0⟩).illFormed = some .illegalOperand := by decide
/-- R403: a record block begins at an even register. -/
theorem test_ill_record : (Instr.hmPut 0 0 0x03 1 0).illFormed = some .illegalOperand := by decide
/-- R414: no system register has the number 0x00F. -/
theorem test_ill_sysreg : (Instr.rdsys 0x06 0x00F).illFormed = some .mustBeZero := by decide
/-- R420 and R424: a budget above 128. -/
theorem test_ill_budget : (Instr.vregGrow 17).illFormed ≠ none := by decide

/-! ### Words of the manual -/

/-- The worked encoding of chapter 06, clause 1. -/
theorem test_word_ld : decode 2 [0x0410C484#32, 0x61000040#32] = .ok (.ldB32 8 0xC4 0x84 ⟨1, 4, 1, 0, 0x40⟩, []) := by rfl
/-- The worked encoding of chapter 06, clause 2. -/
theorem test_word_fma : decode 1 [0x0C080108#32, 0x080C808A#32] = .ok (.fmaF32 0 4 0 1 8, [0x080C808A#32]) := by rfl
theorem test_word_mul : decode 1 [0x080C808A#32] = .ok (.mulF32 0 6 0 0x80 0x8A, []) := by rfl
/-- Chapter 07: `exit`. -/
theorem test_word_exit : decode 0 [0x86000000#32] = .ok (.exit, []) := by rfl
/-- The example of R317: `minidx.n32 v10, v4`, `red.add.b32 v12, v4`, `scan.excl.add.b32 v13, v4`. -/
theorem test_word_minidx : decode 1 [0x8F140484#32] = .ok (.minidxN32 5 0 4, []) := by rfl
theorem test_word_red : decode 1 [0x84180484#32] = .ok (.redAddB32 12 0 4, []) := by rfl
theorem test_word_scan : decode 1 [0x931A0484#32] = .ok (.scanExclAddB32 13 0 4, []) := by rfl
/-- The example of R334: the same word with and without `.nr`. -/
theorem test_word_atom : decode 2 [0x200AC684#32, 0x60000000#32] = .ok (.atomAddB32 5 0xC6 0x84 ⟨1, 4, 0, 0, 0⟩, []) := by rfl
theorem test_word_atom_nr : decode 2 [0x200AC684#32, 0x60200000#32] = .ok (.atomAddB32 5 0xC6 0x84 ⟨1, 4, 0, 2, 0⟩, []) := by rfl
/-- Chapter 13: `mx.qpass acc[0], h1, h3, 0, 0` and `tfree h1`. -/
theorem test_word_qpass : decode 3 [0x13004600#32] = .ok (.mxQpass 0 0 1 3 0 0, []) := by rfl
theorem test_word_tfree : decode 3 [0x01004000#32] = .ok (.tfree 1, []) := by rfl
/-- Chapter 14: `hm.put v2, v8, 3, add.rn.f32` and `hm.get v16, 3`; chapter 22: `hm.rput`. -/
theorem test_word_put : decode 4 [0x00040884#32, 0x00000B03#32] = .ok (.hmPut 2 0 8 3 0x0B, []) := by rfl
theorem test_word_get : decode 4 [0x02208484#32, 0x00000003#32] = .ok (.hmGet 16 3, []) := by rfl
theorem test_word_rput : decode 4 [0x01061084#32, 0x00000001#32] = .ok (.hmRput 3 0 0x10 1, []) := by rfl
/-- The example of R421: `warn.clr 0b0010` and `rdsys v6, WARN`. -/
theorem test_word_warn : decode 5 [0x04008402#32] = .ok (.warnClr 2, []) := by rfl
theorem test_word_rdsys : decode 5 [0x02060300#32] = .ok (.rdsys 6 0x030, []) := by rfl
/-- Chapter 20: the loop of `hamming` and two words of its body. -/
theorem test_word_loop : decode 0 [0x87189800#32, 0x01400001#32, 0x01800001#32, 0x04400001#32, 0x04800001#32] =
    .ok (.loop 1 0x98 [⟨0, 1, 1, 1⟩, ⟨0, 1, 2, 1⟩, ⟨0, 4, 1, 1⟩, ⟨0, 4, 2, 1⟩], []) := by rfl
theorem test_word_xor : decode 0 [0x29501810#32] = .ok (.xorB32 40 0 0x18 0x10, []) := by rfl
theorem test_word_popc : decode 0 [0x1F502884#32] = .ok (.popcB32 40 0 0x28, []) := by rfl
/-- Chapter 21: the words of the poll block. -/
theorem test_word_ptr_add : decode 0 [0x6034C418#32, 0x00000103#32] = .ok (.ptrAdd 13 0 0xC4 0x18 3 1, []) := by rfl
theorem test_word_chkaln : decode 0 [0x8A001A03#32] = .ok (.chkaln 0x1A 3, []) := by rfl
theorem test_word_mov64 : decode 0 [0x3A3C8484#32, 0#32] = .ok (.movB64Imm 15 0 0, []) := by rfl
theorem test_word_shr64 : decode 0 [0x393C1C92#32] = .ok (.shrI64 15 0 0x1C 0x92, []) := by rfl
theorem test_word_setp64 : decode 0 [0x4A062084#32] = .ok (.setpEqB64 3 0x20 0x84, []) := by rfl
theorem test_word_bra : decode 0 [0x806FFFF9#32] = .ok (.bra 3 0 0xFFFF9, []) := by rfl
/-- Chapter 23: words of `qmat`. -/
theorem test_word_ttag : decode 3 [0x0810C800#32, 0x00000004#32] = .ok (.ttag 2 3 4 0 1 0, []) := by rfl
theorem test_word_ttake : decode 3 [0x03080605#32] = .ok (.ttakeRing 1 3 2, []) := by rfl
theorem test_word_tgive : decode 3 [0x02008003#32] = .ok (.tgiveRing 2 1, []) := by rfl
theorem test_word_stream : decode 3 [0x150884C8#32, 0x60000000#32] = .ok (.mxStream 1 0xC8 ⟨1, 4, 0, 0, 0⟩, []) := by rfl
theorem test_word_engwait : decode 2 [0x3B188484#32] = .ok (.engWait 12 0x84, []) := by rfl
theorem test_word_drain : decode 3 [0x1600C484#32, 0x60400000#32] = .ok (.mxDrainMem 0xC4 0x84 ⟨1, 4, 0, 4, 0⟩, []) := by rfl
/-- Class 6: an unimplemented opcode with bit 7 set takes one X-M word (R199, R200). -/
theorem test_word_class6 : ∃ i, decode 6 [0xFF000000#32, 0#32, 7#32] = .ok (i, [7#32]) := ⟨_, rfl⟩
/-- A reserved opcode is refused, and so is a word cut short (R195). -/
theorem test_word_reserved : decode 0 [0x70000000#32] = .error .reservedOpcode := by rfl
theorem test_word_short : ∃ r, decode 2 [0x0410C484#32] = .error r := ⟨_, rfl⟩

/-! ### Small states -/

/-- A pick of one group's eight lanes, at the first word of a clause of `cls`. -/
def pickOf8 (cls : Nat) : Pick :=
  { core := 0, slot := 0, port := 0, hdr := 0x1000#64, cls := cls, words := [0#32, 0#32], pos := 0, yields := false,
    members := [(0, 0xFF#64)], wrote := [] }

/-- A group of eight lanes whose registers `f` sets. -/
def group8 (f : Nat → Lane → Lane) : Group := { Group.placed 0 with lanes := (List.range 8).map fun i => f i Lane.placed }

/-- A machine that holds one group, which issues. -/
def one (f : Nat → Lane → Lane) : State := { State.reset with groups := [group8 f], cur := some (pickOf8 0) }

/-- The state after an instruction or an event. -/
noncomputable def after (i : Instr) (s : State) : State :=
  match exec i s with
  | .next t => t
  | _ => s

/-- Register `n` of lane `i` of the first group. -/
def regOf (s : State) (i n : Nat) : Word := match s.groups with
  | g :: _ => ((g.lanes[i]?).getD Lane.zero).reg n
  | [] => 0

/-- The group of the small states. -/
def g0 : Group := group8 fun _ l => l

/-- A team of one group on core 0 with three handles: 0 held in slot 5, 1 in transit in slot 6, 2 free. -/
def team0 : Team :=
  { launch := 0, team := 0, quadTeam := false, core := 0, local' := 0, seq := 0, resident := true, ended := false, stopped := none,
    stashBases := [0], stashLines := 16, slots := [(0, 5), (0, 6), (0, 7)], accBase := 0, accCount := 4, handles := 3,
    rename := [mkRen 1 1 false 0 5, mkRen 2 2 false 0 6, mkRen 3 0 false 0 0],
    boxes := [[{ handle := 0x0201, takeable := true }], [], [], []], flaskRefs := [] }

/-- A translation of the first 2 MiB of guest 0 to the pages from 32 on. -/
def tlb0 : TlbEntry :=
  { guest := 0, window := 0, base := 32, vmask := BitVec.allOnes 32, dmask := BitVec.allOnes 32, ipas := [], rd := true, wr := true,
    coh := 0, ret := 0, mig := false, remote := false, node := 0 }

/-- A core with that translation, and with a tile in slots 5 and 6. -/
def core0 : Core :=
  { Core.empty with dtlb := [tlb0], tiles := [(5, { TileSlot.zero with state := .live, tag := BitVec.ofNat 64 tF16 }),
                                                         (6, { TileSlot.zero with state := .live, tag := BitVec.ofNat 64 tF16 })] }

/-- The group with handle values for the team's handles in h0 and h1. -/
def gT : Group := { g0 with h := (Vector.replicate 32 0#16).set 0 0x0100 |>.set 1 0x0201 }

/-- A machine with that team, core and group. -/
def staffed : State :=
  { State.reset with groups := [gT], cur := some (pickOf8 2), teams := [team0], cores := [(0, core0)],
                     quads := [(0, { Quad.empty with owner := some 0 })] }

/-! ### Single steps, with results of the manual -/

/-- R273: sums are modulo 2^32. -/
theorem test_add_wraps : regOf (after (.addB32 10 0 6 4) (one fun _ l => (l.setReg 6 0xFFFFFFFF).setReg 4 2)) 3 10 = 1 := by decide
/-- R275: a division by zero, and the one signed overflow. -/
theorem test_div_zero : regOf (after (.divN32 10 0 6 0x84) (one fun _ l => l.setReg 6 7)) 0 10 = 0xFFFFFFFF := by decide
theorem test_div_overflow : regOf (after (.divI32 10 0 6 0x87) (one fun _ l => l.setReg 6 0x80000000)) 0 10 = 0x80000000 := by decide
/-- R183: a lane with a false guard keeps D. -/
theorem test_guard : regOf (after (.movB32 10 0 0x91) (one fun i l => { l with guard := i == 1 })) 0 10 = 0 := by decide
/-- Chapter 06: 1.5 × 2.0 + 0.25 is 3.25, and 3.25 × 2.0 is 6.5. -/
theorem test_fma : regOf (after (.fmaF32 0 4 0 1 8) (one fun _ l =>
    ((l.setReg 1 0x3FC00000).setReg 8 0x40000000).setReg 4 0x3E800000)) 0 4 = 0x40500000 := by decide
theorem test_mul_latch : regOf (after (.mulF32 0 6 0 0x80 0x8A) (one fun _ l => l.push32 0x40500000)) 0 6 = 0x40D00000 := by decide
/-- Chapter 14: 2^24 + 1 rounds to 2^24. -/
theorem test_add_ties : regOf (after (.addF32 0 6 0 4 5) (one fun _ l => (l.setReg 4 0x4B800000).setReg 5 0x3F800000)) 0 6 = 0x4B800000 := by
  decide

/-- The lanes of the example of R317: lane 4 is parked and lane 7 has exited. -/
def exampleLanes (i : Nat) (l : Lane) : Lane :=
  { l.setReg 4 ([9, 4, 2, 4, 2, 2, 5, 8].getD i 0) with
    status := if i = 4 then .parked else if i = 7 then .exited else .ready }
/-- The machine of that example, whose pick holds the live lanes. -/
def exampleState : State := { one exampleLanes with cur := some { pickOf8 1 with members := [(0, 0x6F#64)] } }

theorem test_minidx : [0, 1, 2, 3, 5, 6].map (fun i => (regOf (after (.minidxN32 5 0 4) exampleState) i 10, regOf (after (.minidxN32 5 0 4) exampleState) i 11)) =
    [(2, 2), (2, 2), (2, 2), (2, 2), (2, 2), (2, 2)] := by decide
theorem test_red : [0, 6].map (regOf (after (.redAddB32 12 0 4) exampleState) · 12) = [26, 26] := by decide
theorem test_scan : [0, 1, 2, 3, 5, 6].map (regOf (after (.scanExclAddB32 13 0 4) exampleState) · 13) = [0, 9, 13, 15, 19, 21] := by decide

/-- The example of R334: the four lanes get 100, 110, 140 and 200, and the word ends at 280. -/
def atomPart (lane x : Nat) : Part :=
  { lane := lane, va := 0, pa := 0, off := 0, len := 4, data := BitVec.ofNat 128 x, data2 := 0, dst := some 5, value := 0, trap := 0, ticket := 0 }
theorem test_atom_run :
    let r := atomParts .add 4 100#1024 [atomPart 0 10, atomPart 2 30, atomPart 5 60, atomPart 7 80]
    r.2.map (fun p => p.value) = [100, 110, 140, 200] ∧ r.1 = 280#1024 := by decide +kernel

/-- R340 and R339: a store of one byte at an unaligned address changes that byte alone. -/
theorem test_memory : memGet (writeLE [] 5 (0x1234#16) 2) 6 = 0x12 ∧ memGet (writeLE [] 5 (0x1234#16) 2) 7 = 0 := by decide
/-- R8: the lowest byte is stored first. -/
theorem test_little_endian : writeLE [] 4 (0x11223344#32) 4 = [(4, 0x44), (5, 0x33), (6, 0x22), (7, 0x11)] := by decide
/-- R55: the home slice of the line at 2^47 + 128 is 1 xor 1. -/
theorem test_home_slice : sliceOf ((2 ^ 47 + 128) / 128) = 0 := by decide
/-- R416: `trap 7` parks with USER_TRAP and its number. -/
theorem test_trap : (after (.trap 7) (one fun _ l => l)).groups.map (fun g => g.parkedSubs.map fun p => (p.lanes, p.cause)) =
    [[(0xFF#64, 0x000700000000001E#64)]] := by decide +kernel
/-- R285: a write to p7 is discarded. -/
theorem test_p7 : (after (.setpNeB32 7 0x84 0x84) (one fun _ l => l)).groups = [g0] := by decide +kernel
/-- R294: `exit` ends the lanes. -/
theorem test_exit : (after .exit (one fun _ l => l)).groups.map (fun g => g.lanes.map fun l => l.status) = [List.replicate 8 .exited] := by decide +kernel
/-- R43: a write of TAIL that passes HEAD is discarded and logged. -/
theorem test_tail : ((after (.sqTailWrite 0 0 4095) State.reset).sq 0 0).tail = 4095 ∧
    (after (.sqTailWrite 0 0 4095) State.reset).errlog = [] := by decide
/-- R478: HLOSS counts a link loss. -/
theorem test_link_loss : (after .linkLoss State.reset).regs.hloss = 0x0000000100000001#64 := by decide

/-! ### The machine runs a placed instruction -/

/-- The state after a step, or the state before it when it stops. -/
noncomputable def stepped (s : State) : State :=
  match step s with
  | .next t => t
  | _ => s

/-- R423: `yield`. -/
theorem test_first_step : (stepped (State.reset.withFetchWord 32 0x08000000)).ports.map (fun p => p.pos) = [1] := by decide +kernel
/-- R273: `add.b32 v10, 1, 2`. -/
theorem test_step_adds : regOf (stepped (State.reset.withFetchWord 32 0x00149192)) 0 10 = 3 := by decide +kernel

/-! ### States that meet the hypotheses of the statements -/

theorem guarded0 (g : Group) (h : g.lanes = g0.lanes) : IsGuarded g 0xFF#64 0xFF#64 := by
  intro i
  rw [h]
  refine ⟨fun hi => ⟨hi, ?_⟩, fun hi => hi.1⟩
  have : i < 8 := by
    by_contra hn
    have h8 : (0xFF#64 : BitVec 64) = (0xFF#8).setWidth 64 := rfl
    rw [h8, BitVec.getLsbD_setWidth, BitVec.getLsbD_of_ge _ _ (by omega)] at hi
    simp at hi
  interval_cases i <;> exact ⟨_, rfl, rfl⟩

theorem leads0 (g : Group) (h : g.lanes = g0.lanes) : Leads g 0xFF#64 0 Lane.placed := by
  refine ⟨by rw [h]; rfl, by decide, rfl, fun k _ hk => absurd hk (by omega)⟩

theorem placed_of_mem (l : Lane) (h : l ∈ g0.lanes) : l = Lane.placed := by
  simp only [g0, group8, List.mem_map] at h
  obtain ⟨_, _, rfl⟩ := h
  rfl

/-- With no request out, no lane awaits an answer that may trap it. -/
theorem settled_of_no_reqs (s : State) (h : s.reqs = []) : Settled s := by
  intro _ _ _ _ _ _
  simp [State.awaits, h]

theorem witness_encode : (Instr.ldB128 8 0xC4 0x84 ⟨1, 4, 1, 0, 0x40⟩).isInstruction = true ∧
    (Instr.ldB128 8 0xC4 0x84 ⟨1, 4, 1, 0, 0x40⟩).illFormed = none := by decide
theorem witness_decoded : decode 2 [0x0410C484#32, 0x61000040#32, 7#32] = .ok (.ldB32 8 0xC4 0x84 ⟨1, 4, 1, 0, 0x40⟩, [7#32]) := by rfl
theorem witness_step : ∃ (s : State) (p : Pick) (i : Instr), s.agenda = [none] ∧ s.ports = [p] ∧ p.pos < p.words.length ∧
    decode p.cls (p.words.drop p.pos) = .ok (i, []) :=
  ⟨{ State.reset with agenda := [none], ports := [{ pickOf8 0 with words := [0x86000000#32] }] }, _, .exit, rfl, rfl, by decide, rfl⟩
theorem witness_stop : ∃ (s : State) (f : Fault), step s = .fault f :=
  ⟨{ State.reset with agenda := [none], ports := [{ pickOf8 0 with words := [0x70000000#32] }] }, _, rfl⟩
theorem witness_sound : Memory.wf (State.reset.withFetchWord 32 0x08000000).mem = true ∧
    ∃ t, step (State.reset.withFetchWord 32 0x08000000) = .next t := ⟨by decide +kernel, by
  cases h : step (State.reset.withFetchWord 32 0x08000000) with
  | next t => exact ⟨t, rfl⟩
  | fault r =>
    have : (match step (State.reset.withFetchWord 32 0x08000000) with | .fault _ => true | _ => false) = false := by decide +kernel
    rw [h] at this; cases this
  | refused r =>
    have : (match step (State.reset.withFetchWord 32 0x08000000) with | .refused _ => true | _ => false) = false := by decide +kernel
    rw [h] at this; cases this⟩
theorem witness_turn : ∀ u, (State.reset.withFetchWord 32 0x08000000).nextTurn ≠ .idle u := by
  intro u h
  have : (match (State.reset.withFetchWord 32 0x08000000).nextTurn with | .idle _ => true | _ => false) = false := by decide +kernel
  rw [h] at this; cases this

theorem witness_results : (∃ r, intResult (.addB32 10 0 6 4) = some r) ∧ (∃ r, wideResult (.addB64 5 0 6 4) = some r) ∧
    (∃ r, predResult (.setpEqB32 1 6 4) = some r) ∧ (∃ r, floatResult (.addF32 0 10 0 6 4) = some r) ∧
    (∃ r, crossEffect (.redAddB32 10 0 6) = some r) ∧ (∃ r, transferEffect (.bra 7 0 3) = some r) ∧
    (∃ r, checkSpec (.chkb 0 4 5) = some r) ∧ (∃ r, sysRead (.rdsys 6 0x030) = some r) ∧ (∃ r, sysWrite (.warnClr 2) = some r) ∧
    (∃ r, lineHint (.pref 0 0 0xC4 0x84 ⟨1, 4, 0, 0, 0⟩) = some r) :=
  ⟨⟨_, rfl⟩, ⟨_, rfl⟩, ⟨_, rfl⟩, ⟨_, rfl⟩, ⟨_, rfl⟩, ⟨_, rfl⟩, ⟨_, rfl⟩, ⟨_, rfl⟩, ⟨_, rfl⟩, ⟨_, rfl⟩⟩

theorem witness_converged : Converged (one fun _ l => l) (pickOf8 0) 0 0xFF#64 g0 :=
  ⟨rfl, rfl, rfl, rfl, by decide +kernel, by decide, fun l h _ => by rw [placed_of_mem l h]; rfl, settled_of_no_reqs _ rfl⟩

theorem witness_takes_part : TakesPart (one fun _ l => l) (pickOf8 0) g0 0xFF#64 ∧ IsGuarded g0 0xFF#64 0xFF#64 :=
  ⟨⟨rfl, rfl, rfl⟩, guarded0 g0 rfl⟩

/-- A lane that fails a bound check, and one that passes it. -/
theorem witness_check : ∃ c, checkSpec (.chkb 0 4 5) = some c ∧ c.fails (one fun _ l => l) g0 0 Lane.placed = some (causeWith 0x0F 0) ∧
    c.fails (one fun _ l => l) g0 0 (Lane.placed.setReg 5 1) = none := ⟨_, rfl, by decide, by decide⟩

theorem witness_may_access : MayAccess staffed (pickOf8 2) gT 0xFF#64 0xFF#64 :=
  ⟨rfl, rfl, rfl, guarded0 gT rfl, by decide, fun _ l _ hl => by rw [placed_of_mem l (List.mem_of_getElem? hl)]; rfl⟩

/-- No lane of the pick waits for its counter, or for an answer. -/
theorem witness_may_issue (f : MemForm) : MayIssue staffed f (pickOf8 2) gT 0xFF#64 0xFF#64 :=
  { toMayAccess := witness_may_access, counter := by split <;> decide, answered := fun _ _ _ => rfl }

theorem witness_performs : InTeam staffed (pickOf8 2) gT 0xFF#64 0 Lane.placed team0 :=
  { pick := rfl, members := rfl, group := rfl, leads := leads0 gT rfl, settled := rfl, team := rfl }

/-- A load of eight lanes at address 0 in a mapped page is issued. -/
theorem witness_issues : ∃ (f : MemForm) (s₁ : State) (as : List Access),
    accessForm (.ldB32 8 0xC4 0x84 ⟨1, 4, 0, 0, 0⟩) = some (f, 0xC4, 0x84, ⟨1, 4, 0, 0, 0⟩) ∧ f.kind ≠ .store ∧
    Issues staffed f 0xC4 0x84 ⟨1, 4, 0, 0, 0⟩ (pickOf8 2) gT 0xFF#64 0xFF#64 s₁ as :=
  ⟨_, _, _, rfl, by decide, { toMayIssue := witness_may_issue _, checked := rfl, behind := fun h => by cases h
                              room := by decide +kernel }⟩

/-- A store of the same lanes is issued. -/
theorem witness_store : ∃ (f : MemForm) (s₁ : State) (as : List Access),
    accessForm (.stB32 8 0xC4 0x84 ⟨1, 4, 0, 0, 0⟩) = some (f, 0xC4, 0x84, ⟨1, 4, 0, 0, 0⟩) ∧ f.kind = .store ∧
    Issues staffed f 0xC4 0x84 ⟨1, 4, 0, 0, 0⟩ (pickOf8 2) gT 0xFF#64 0xFF#64 s₁ as :=
  ⟨_, _, _, rfl, rfl, { toMayIssue := witness_may_issue _, checked := rfl, behind := fun _ => by decide +kernel
                        room := by decide +kernel }⟩

/-- The checks of a load of lanes whose pointer has a bit above 54 set. -/
def refusedChecks : State × Checked :=
  staffed.checkLanes gT 0xFF#64 4 .load fun i l => effAddr gT i l 0xC4 0x84 ⟨1, 4, 0, 0, 0xFFFFF⟩

theorem witness_fails : refusedChecks.2.accesses = [] ∧ refusedChecks.2.waits = 0#64 ∧
    (∀ t ∈ refusedChecks.2.traps, t.cause = (xerr cXlateMiss false 0 false).cause .load) ∧
    refusedChecks.1.group? 0 = some gT ∧ refusedChecks.2.traps.length = 8 := by decide +kernel

/-- A load from the first line of the stash, which is unbacked. -/
theorem witness_touches : ∃ f, stashForm (.ldsB32 8 0x84 0x84 ⟨1, 2, 0, 0, 0⟩) = some (f, false, 0x84, 0x84, ⟨1, 2, 0, 0, 0⟩) ∧
    Touches staffed f false 0x84 0x84 ⟨1, 2, 0, 0, 0⟩ (pickOf8 2) gT 0xFF#64 0xFF#64 :=
  ⟨_, rfl, { toMayIssue := witness_may_issue _
             passes := fun i l hi hl => by
               have hl' := placed_of_mem l (List.mem_of_getElem? hl)
               subst hl'
               have h8 : i < 8 := by
                 have := (List.getElem?_eq_some_iff.1 hl).1
                 exact this
               interval_cases i <;> exact ⟨by decide +kernel, by decide +kernel⟩ }⟩

/-- A map of one line that succeeds, one that R68 lets fail, and the state of its range locks and buffer. -/
theorem witness_maps : staffed.mapFails gT team0 0 0 0 1 0 = false ∧ staffed.mapFails gT team0 0 0 64 1 0 = true ∧
    staffed.rangeBusy 0 0 0#64 128 false = false ∧ gT.c1 < 63 ∧ staffed.touchesPending 0 = false ∧
    staffed.mapFails gT team0 1 0 0 1 0 = false ∧ staffed.keysWait gT 0 1 = none ∧ staffed.keysOf gT 0 1 = [16384] := by decide +kernel
/-- A flush and an unmap of lines that write nothing back, with an entry of the map table. -/
theorem witness_flush : ∃ s₁, staffed.flushLines gT [0] = (s₁, .ok ()) ∧ staffed.lineUnsettled 0 0 = false := ⟨_, rfl, by decide +kernel⟩
theorem witness_unmap : ∃ e : Nat × BitVec 128, [(3, mkMap 0 0 0 0 0 1 0 0)].find? (fun e : Nat × BitVec 128 =>
    mapValid e.2 && mapTeam e.2 == team0.local' && mapSoff e.2 == team0.stashAt 0 + 0 / 128) = some e := ⟨_, rfl⟩

theorem witness_flask : FlaskIssues gT Lane.placed ∧ (∃ r, flaskForm (.flaskSeal 0 0xC4 ⟨1, 4, 0, 0, 0⟩) = some r) ∧
    (∃ (s₁ : State) (tr : Trans), staffed.translate (some 0) 0 0 0#64 .load = (s₁, .ok tr) ∧ s₁.group? 0 = some gT) ∧
    ∃ (s₁ : State) (e : XErr), staffed.translate (some 0) 0 0 (1#64 <<< 60) .load = (s₁, .error e) ∧ e.waits = false ∧
      s₁.group? 0 = some gT :=
  ⟨⟨by decide, rfl⟩, ⟨_, rfl⟩, ⟨_, _, rfl, rfl⟩, _, _, rfl, rfl, rfl⟩

/-- A fence without a pointer, and one of a launch that is no superstep; a group of a launch that is one. -/
theorem witness_fence : (∀ (n : Nat) (l : Lane), (0xFF#64 : BitVec 64).getLsbD n = true → gT.lanes[n]? = some l →
      (staffed.fenceClass gT 0x84 n l).toOption.isSome = true) ∧ Settled staffed ∧ staffed.superstep gT = false ∧
    (∃ l ∈ gT.lanes, l.live = true) ∧ ({ staffed with groups := [] } : State).groups = [] :=
  ⟨fun _ _ _ _ => rfl, settled_of_no_reqs _ rfl, rfl, ⟨Lane.placed, by decide +kernel, rfl⟩, rfl⟩

/-- A lock word at address 0, in a converged group. -/
theorem witness_lock : Converged staffed (pickOf8 2) 0 0xFF#64 gT ∧ staffed.hasEntry 0 = true ∧
    ∃ (s₁ : State) (sp : Machine.Span) (rest : List Machine.Span), staffed.checkAccess gT (Machine.src64 gT 0 Lane.placed 0xC4) 8 .atomic =
      (s₁, .ok (sp :: rest)) ∧ s₁.group? 0 = some gT :=
  ⟨⟨rfl, rfl, rfl, rfl, by decide +kernel, by decide, fun l h _ => by rw [placed_of_mem l h]; rfl, settled_of_no_reqs _ rfl⟩,
   by decide +kernel, _, _, _, rfl, rfl⟩

/-- A copy with good operands, a collective with bad ones, and a free identifier. -/
theorem witness_engine : (∃ c, engineForm staffed (.copy 0xC4 0xC6 ⟨1, 4, 0, 0, 0⟩) gT 0 Lane.placed = some c ∧ c.bad = 0 ∧ c.waits = none) ∧
    (∃ c, engineForm staffed (.coll 0xC4 0xC6 ⟨1, 4, 0, 0, 0⟩) gT 0 Lane.placed = some c ∧ c.bad ≠ 0) ∧
    (∃ n, staffed.freeOpid 0 = some n) ∧ gT.c2 < 63 :=
  ⟨⟨_, rfl, by decide +kernel, rfl⟩, ⟨_, rfl, by decide +kernel⟩, ⟨_, rfl⟩, by decide⟩

/-- The held, the free and the stale handle of the team. -/
theorem witness_handles : (∃ e, team0.current (gT.handle 0 0) = some e ∧ renState e = 1#2) ∧
    team0.current (gT.handle 0 2) = none ∧
    (List.range team0.handles).find? (fun n => renState (team0.entry n) == 0#2) = some 2 ∧
    (allocCores team0 gT false).map (fun c => (ownSlots team0 c).find? fun n => (staffed.slot c n).state == .free) = [7].map some ∧
    staffed.lostWrite 0 64 = false :=
  ⟨⟨_, rfl, by decide +kernel⟩, by decide +kernel, by decide +kernel, by decide +kernel, by decide +kernel⟩

/-- An empty ring, a box with the handle in transit, and that handle. -/
theorem witness_rings : ringCount (staffed.sline 0 3).data = 0 ∧ (staffed.core 0).mapOf? 3 = none ∧
    team0.boxes.getD 0 [] = [] ++ { handle := 0x0201, takeable := true } :: [] ∧ Takeable staffed team0 0x0201 (BitVec.ofNat 4 tF16) :=
  ⟨by decide +kernel, rfl, rfl, _, _, _, rfl, by decide +kernel, rfl, by decide +kernel⟩

/-- A tile load of 32 rows at address 0 in the mapped pages. -/
theorem witness_tile : ∃ (at' : Nat × Nat) (s₁ : State) (ps : List TilePiece), staffed.tileSlotOf team0 gT (gT.handle 0 0) = some at' ∧
    staffed.checkRows gT 0#64 (tileRowBytes 0) (tileRowBytes 0) .load 0 [] (tileRows 0) = (s₁, .ok ps) ∧
    s₁.tileHeld gT 0 Lane.placed false (s₁.tileReqs gT ⟨1, 4, 0, 0, 0⟩ (gT.performing (pickOf8 2) 0xFF#64) 0 true ps) = false :=
  ⟨_, _, _, rfl, rfl, by decide +kernel⟩

/-- Operands of a conversion, and a current handle for a tag. -/
theorem witness_convert : (∃ sa, team0.ordinary (gT.handle 0 0) = .ok sa) ∧ (∃ o, staffed.capture team0 (gT.handle 0 0) (0, 5) = .ok o) ∧
    (team0.current (gT.handle 0 1)).isSome = true ∧ gT.c3 < 63 := ⟨⟨_, rfl⟩, ⟨_, rfl⟩, by decide +kernel, by decide⟩

/-- An engine that is free, one that another group owns, and one that the group owns. -/
theorem witness_engines : (State.reset.quad 0).owner = none ∧ (staffed.quad 0).owner = some gT.gid ∧
    (staffed.quad 0).ownerQ.contains 0 = false ∧ staffed.regains gT = false ∧ (staffed.quad 0).resv.length < 64 := by decide +kernel

/-- A pass of two current tiles of one format, and one that a tile past the quota refuses. -/
theorem witness_pass : (∃ pl, staffed.planPass team0 (gT.handle 0 0) (gT.handle 0 1) 0 0 true false = .ok pl) ∧
    (∃ e, staffed.planPass team0 (gT.handle 0 0) (gT.handle 0 1) 9 0 true false = .error e) ∧
    (∃ b, staffed.planDrain gT team0 0 false false = .ok b) := ⟨⟨_, rfl⟩, ⟨_, rfl⟩, ⟨_, rfl⟩⟩

/-- The same machine with a sealed code page that holds a stream body of one clause of one word. -/
def coded : State :=
  { staffed with cores := [(0, { core0 with itlb := [tlb0] })], trusted := { staffed.trusted with seals := [(32, 1)] },
                 quads := [(0, { Quad.empty with owner := some 0, l2tlb := [tlb0] })],
                 mem := writeLE (writeLE [] (65536 * 32 + 0x1010) (0x12090A00#32) 4) (65536 * 32 + 0x100C) (0xA00003B1#32) 4 }
theorem witness_stream : ∃ (s₁ : State) (r : List (Word × List Word) × DWord),
    coded.fetchRun 0 0 (pickOf8 2).nextClause [] 1 = (s₁, .ok r) ∧ s₁.cur = some (pickOf8 2) ∧ s₁.group? 0 = some gT ∧
    (s₁.quad 0).owner = some 0 ∧ (s₁.quad 0).stream = none ∧ (s₁.freeOpid 0).isSome = true :=
  ⟨_, _, rfl, rfl, rfl, rfl, rfl, rfl⟩
/-- The words of that body. -/
theorem test_fetch : coded.peekClause 0 0 0x100C = some (0xA00003B1, [0x12090A00]) := by decide +kernel

/-- A machine with collective set 0, whose one rank is quad 0 of module 0. -/
def gathered : State := { staffed with mem := writeLE [] 0 (0x00000000000001000000000000002000#128) 16 }
theorem witness_collective : (gathered.collRanks (collSet 0)).contains (gathered.thisNode, 0) = true ∧
    badCollWord 0 (gathered.collRanks (collSet 0)).length = false ∧ (∃ b, gathered.planDrain gT team0 0 false false = .ok b) :=
  ⟨by decide +kernel, by decide +kernel, _, rfl⟩

theorem witness_selectors : (3 : Nat) < 64 ∧ g0.width ≤ 64 := by decide

/-- A group that may use key space 1, and one that may not. -/
theorem witness_hamper : HamperIssues staffed (pickOf8 2) gT 0xFF#64 0xFF#64 ∧ staffed.ksOk gT 1 = false ∧
    ({ staffed with hamper := { staffed.hamper with guest := some 0, kspaces := [(1, mkKs 0 0 0 0 0 true)] } } : State).ksOk gT 1 = true :=
  ⟨{ toMayAccess := witness_may_access, counter := by decide, settled := fun _ _ => rfl }, by decide +kernel, by decide +kernel⟩

/-- A tag of a home in a state, with the entry of node 1 at its head. -/
def homeTag (line : Nat) (hst : BitVec 3) (walk : Bool) : HomeTag :=
  { line := line, way := 0, ret := 0, cls := 0, owner := none, hst := hst, head := mkPtr 1 1 0 0 0, homeWalk := walk, hostHi := 0,
    hostLo := 0, brHi := 0, brLo := 0, walkPos := nullPtr, recallSent := 0, pending := 0, leaving := false, run := none, queue := [] }

/-- A caching entry of a line of node 1 in a state. -/
def cacheTag (n : Nat) (cst : BitVec 4) (acks backoff : Nat) : CacheTag :=
  { CacheTag.empty (remoteKey 1 n) with cst := cst, acks := acks, backoff := backoff }

/-- A module of a domain with a home line in each state of a chain, and a caching entry in each. -/
def chained : State :=
  { State.reset with
      regs := { State.reset.regs with domCtrl := 2 }
      home := { State.reset.home with
                  tags := [homeTag 1 1 false, homeTag 2 2 false, homeTag 3 3 false, homeTag 4 4 false, homeTag 5 3 true]
                  caches := [cacheTag 1 1 0 64, cacheTag 2 2 0 0, cacheTag 3 3 0 0, cacheTag 4 4 2 0, cacheTag 5 5 0 64, cacheTag 6 6 0 0,
                             cacheTag 7 7 0 0, cacheTag 8 8 0 0, cacheTag 9 4 1 0] } }

/-- Homes that accept the messages of node 1: of a line that nothing is using, and of lines in each state. -/
theorem witness_homes : (∀ n ∈ [0, 1, 2, 3, 4, 5], Accepts chained n (mkPtr 1 1 0 0 0) 0) ∧ QuietLine chained 0 ∧
    (∃ h, chained.tag? 1 = some h ∧ h.hst = 1#3 ∧ h.head = mkPtr 1 1 0 0 0 ∧ chained.holds (mkPtr 1 1 0 0 0) (.unhead nullPtr) = false) ∧
    (∃ h, chained.tag? 3 = some h ∧ h.hst = 3#3 ∧ h.homeWalk = false ∧ ptrNode h.head = ptrNode (mkPtr 1 1 0 0 0)) ∧
    (∃ h, chained.tag? 2 = some h ∧ h.hst = 2#3 ∧ h.queue = []) ∧ (∃ h, chained.tag? 4 = some h ∧ h.hst = 4#3 ∧ h.queue = []) ∧
    ∃ h, chained.tag? 5 = some h ∧ keyNode 5 = none ∧ h.hst = 3#3 ∧ h.homeWalk = true :=
  ⟨fun n h => by
     simp only [List.mem_cons, List.not_mem_nil, or_false] at h
     rcases h with rfl | rfl | rfl | rfl | rfl | rfl <;>
       exact ⟨by decide +kernel, by decide +kernel, by decide +kernel, by decide +kernel⟩,
   ⟨by decide +kernel, rfl, by decide +kernel, (fun _ h => absurd h List.not_mem_nil), rfl⟩,
   ⟨_, rfl, rfl, rfl, by decide +kernel⟩, ⟨_, rfl, rfl, rfl, by decide +kernel⟩, ⟨_, rfl, rfl, rfl⟩, ⟨_, rfl, rfl, rfl⟩,
   _, rfl, rfl, rfl, rfl⟩

/-- Caching entries of lines of node 1, which is current: one in each state, with nothing waiting. -/
theorem witness_caches : (∀ n ∈ [1, 2, 3, 4, 5, 6, 7, 8, 9], chained.incOk (homeNode (remoteKey 1 n)) 0 = true ∧
      chained.incOk (ptrNode (mkPtr 1 1 0 0 0)) 0 = true ∧ keyNode (remoteKey 1 n) = some 1 ∧
      ((chained.cacheTag? (remoteKey 1 n)).map fun c => (c.cst, c.queue.length)) = some (if n = 9 then 4 else BitVec.ofNat 4 n, 0)) ∧
    (∀ o ∈ chained.plat.orphans, o.key ≠ remoteKey 1 3) ∧
    ((chained.cacheTag? (remoteKey 1 4)).map fun c => c.acks) = some 2 ∧ ((chained.cacheTag? (remoteKey 1 9)).map fun c => c.acks) = some 1 ∧
    ((chained.cacheTag? (remoteKey 1 1)).map fun c => c.backoff) = some 64 ∧ ((chained.cacheTag? (remoteKey 1 5)).map fun c => c.backoff) = some 64 ∧
    chained.holds (mkPtr 1 1 0 0 0) (.setfwd nullPtr) = false ∧ chained.holds (mkPtr 1 1 0 0 0) (.setback nullPtr) = false ∧
    chained.running (remoteKey 1 7) = false ∧ chained.running (remoteKey 1 8) = false ∧ mkPtr 1 1 0 0 0 ≠ nullPtr := by decide +kernel

/-- A machine without teams has none on the quads of a reset. -/
theorem witness_reset_over : OthersAway State.reset 1 [0] := fun _ h => absurd h List.not_mem_nil

/-- Each unit's statement has a step. -/
theorem witness_events : (∃ e, voteEffect State.reset (.growGrant 0) = some e) ∧ (∃ e, launchEffect State.reset (.sqErrClear 0 0) = some e) ∧
    (∃ e, preemptEffect State.reset (.drainDeadline 0) = some e) ∧ (∃ e, trapEffect State.reset (.trapDelivery 0) = some e) ∧
    (∃ e, stileEffect State.reset (.sealClear 0) = some e) ∧ (∃ e, translationEffect State.reset (.iqTailWrite 0 0) = some e) ∧
    (∃ e, memoryEffect State.reset (.coalesceTimeout 0 0) = some e) ∧ (∃ e, syncEffect State.reset (.engineStart 0) = some e) ∧
    (∃ e, hostEffect State.reset (.hostReadShared 0 ⟨0, false⟩) = some e) ∧ (∃ e, chainEffect State.reset (.fetch 0 0) = some e) ∧
    (∃ e, agentEffect State.reset (.migEpoch 0) = some e) ∧ (∃ e, unitEffect State.reset (.tileOpComplete 0) = some e) ∧
    (∃ e, linkEffect State.reset .linkLoss = some e) ∧ (∃ e, platformEffect State.reset .moduleReset = some e) :=
  ⟨⟨_, rfl⟩, ⟨_, rfl⟩, ⟨_, rfl⟩, ⟨_, rfl⟩, ⟨_, rfl⟩, ⟨_, rfl⟩, ⟨_, rfl⟩, ⟨_, rfl⟩, ⟨_, rfl⟩, ⟨_, rfl⟩, ⟨_, rfl⟩, ⟨_, rfl⟩, ⟨_, rfl⟩, ⟨_, rfl⟩⟩

end Sys2Proof.Tests
end

section
/-! PROOFS. Translation (R33 to R45): what a consumed command of an invalidation queue does, what a SYNC and its completion
do, and the entry with which a walk that completes leaves the TLB of its core. -/

namespace Sys2Proof.Laws

open Sys2Proof.Machine Sys2Proof.Claims

/-- The step of an event of translation completes, with what the claims say of it. -/
def TranslationStepHolds (i : Instr) (s : State) : Prop :=
  ∀ e : State → Prop, translationEffect s i = some e → ∃ t, exec i s = .next t ∧ e t

/-! ### Rings of commands (R43) -/

@[simp] theorem iq_setIq_same (s : State) (q : Nat) (x : Queue) : (s.setIq q x).iq q = x := by
  unfold State.iq State.setIq
  rw [alookup_aset, if_pos rfl]

theorem iqTailWrite_holds (q : Nat) (v : DWord) (s : State) : TranslationStepHolds (.iqTailWrite q v) s := by
  rintro _ ⟨⟩
  refine ⟨_, rfl, ?_⟩
  by_cases fits : ringAdvance (s.iq q) v ≤ ringFree (s.iq q)
  · have taken : (s.iq q).advanceTail v = some { s.iq q with tail := BitVec.ofNat 64 (fldN v 0 12) } := if_pos fits
    simp only [taken, if_pos fits]
  · have passesHead : (s.iq q).advanceTail v = none := if_neg fits
    simp only [passesHead, if_neg fits]

theorem iqErrClear_holds (q : Nat) (s : State) : TranslationStepHolds (.iqErrClear q) s := by
  rintro _ ⟨⟩
  exact ⟨_, rfl, rfl⟩

/-- Consuming a command has the effect `F` when `f` gives it. -/
theorem consume_consumes (s : State) (q op : Nat) (f : State → BitVec 128 → State)
    (F : State → State → BitVec 128 → Prop) (hf : ∀ u c, F u (f u c) c) :
    ∃ t, s.consume q op f = .next t ∧ Consumes s t q op fun u c => F u t c := by
  refine ⟨_, rfl, fun hnone => ?_, fun c s₁ hsome hread => ⟨fun hne hlo hhi => ?_, fun hop hbad => ?_, fun hop hgood => ?_⟩⟩
  · simp only [hnone]
  · have other : cmdOp c ≠ op ∧ 1 ≤ cmdOp c ∧ cmdOp c ≤ 5 := ⟨hne, hlo, hhi⟩
    simp only [hsome, hread, if_pos other]
  · have notOther : ¬ (cmdOp c ≠ op ∧ 1 ≤ cmdOp c ∧ cmdOp c ≤ 5) := by omega
    simp only [hsome, hread, if_neg notOther, if_pos hbad]
    rfl
  · have notOther : ¬ (cmdOp c ≠ op ∧ 1 ≤ cmdOp c ∧ cmdOp c ≤ 5) := fun h => h.1 hop
    simp only [hsome, hread, if_neg notOther, hgood, Bool.false_eq_true, if_false]
    exact hf s₁ c

/-! ### Invalidations (R35, R42) -/

/-- A state without the named entries of the TLBs and of the walk caches, with the record of each descriptor changed by `d`. -/
def invalidated (s : State) (p : TlbEntry → Bool) (w : WalkEntry → Bool) (d : DescUse → DescUse) : State :=
  { s.dropTlbs p with xlate := { (s.dropWalks w).xlate with descs := s.xlate.descs.map d } }

theorem invalidates_retire (s : State) (q : Nat) (p : TlbEntry → Bool) (w : WalkEntry → Bool) (d : DescUse → DescUse) :
    Invalidates s ((invalidated s p w d).retire q) q p w d where
  elsewhere := rfl
  cores := rfl
  quads := rfl
  walks := rfl
  descs := rfl
  kept := ⟨rfl, by rw [State.retire, iq_setIq_same]; rfl⟩
  head := iq_setIq_same ..

theorem dropTlbs_eq_invalidated (s : State) (p : TlbEntry → Bool) :
    s.dropTlbs p = invalidated s p (fun _ => false) fun d => d := by
  simp [invalidated, State.dropTlbs, State.dropWalks]

theorem dropTlbs_dropWalks_eq_invalidated (s : State) (p : TlbEntry → Bool) (w : WalkEntry → Bool) :
    (s.dropTlbs p).dropWalks w = invalidated s p w fun d => d := by
  simp [invalidated, State.dropTlbs, State.dropWalks]

theorem dropTlbs_dropWalks_updDesc_eq_invalidated (s : State) (p : TlbEntry → Bool) (w : WalkEntry → Bool) (guest : Nat)
    (f : DescUse → DescUse) :
    ((s.dropTlbs p).dropWalks w).updDesc guest f = invalidated s p w fun d => if d.guest = guest then f d else d := rfl

theorem invS1Va_holds (q : Nat) (s : State) : TranslationStepHolds (.invS1Va q) s := by
  rintro _ ⟨⟩
  exact consume_consumes s q 1 _ (fun u t c => Invalidates u t q _ _ _) fun u c => by
    rw [dropTlbs_eq_invalidated]
    exact invalidates_retire ..

theorem invS1All_holds (q : Nat) (s : State) : TranslationStepHolds (.invS1All q) s := by
  rintro _ ⟨⟩
  exact consume_consumes s q 2 _ (fun u t c => Invalidates u t q _ _ _) fun u c => by
    rw [dropTlbs_dropWalks_updDesc_eq_invalidated]
    exact invalidates_retire ..

theorem invS2Ipa_holds (q : Nat) (s : State) : TranslationStepHolds (.invS2Ipa q) s := by
  rintro _ ⟨⟩
  exact consume_consumes s q 3 _ (fun u t c => Invalidates u t q _ _ _) fun u c => by
    simp only [dropTlbs_dropWalks_eq_invalidated]
    exact invalidates_retire ..

theorem invS2All_holds (q : Nat) (s : State) : TranslationStepHolds (.invS2All q) s := by
  rintro _ ⟨⟩
  exact consume_consumes s q 4 _ (fun u t c => Invalidates u t q _ _ _) fun u c => by
    rw [dropTlbs_dropWalks_updDesc_eq_invalidated]
    exact invalidates_retire ..

/-! ### SYNC (R43, R45) -/

theorem sync_holds (q : Nat) (s : State) : TranslationStepHolds (.sync q) s := by
  rintro _ ⟨⟩
  refine consume_consumes s q 5 _ (fun u t c => _) fun u c => ⟨fun u₁ bad => ?_, fun u₁ wait => ?_, fun u₁ pa place => ?_⟩
  · simp only [bad]; rfl
  · simp only [wait]
  · simp only [place]

theorem syncComplete_holds (q : Nat) (s : State) : TranslationStepHolds (.syncComplete q) s := by
  rintro _ ⟨⟩
  refine ⟨_, rfl, fun hnone => ?_, fun y hsome => ⟨fun early => ?_, fun s₁ done bad => ?_, fun s₁ s₂ pa done place written => ?_⟩⟩
  · simp only [hnone]
  · simp only [hsome, early, Bool.not_false, if_true]
  · simp only [hsome, done, bad, Bool.not_true, Bool.false_eq_true, if_false]
    exact ⟨rfl, rfl, iq_setIq_same ..⟩
  · simp only [hsome, done, place, written, Bool.not_true, Bool.false_eq_true, if_false]
    exact ⟨rfl, rfl, iq_setIq_same .., rfl⟩

/-! ### The merged entry of a walk (R40) -/

/-- The bits of a mask that is built of the places of a list. -/
theorem getLsbD_foldl_or (l : List (Nat × Walked)) (m : BitVec 32) (i : Nat) (hi : i < 32) :
    (l.foldl (fun m p => m ||| (1#32 <<< p.1)) m).getLsbD i = (m.getLsbD i || l.any fun p => p.1 == i) := by
  induction l generalizing m with
  | nil => simp
  | cons p l ih =>
    have bit : (1#32 <<< p.1).getLsbD i = (p.1 == i) := by
      rw [BitVec.getLsbD_shiftLeft, Bool.eq_iff_iff]
      simp [BitVec.getLsbD_one]
      omega
    rw [List.foldl_cons, ih, BitVec.getLsbD_or, bit, List.any_cons, Bool.or_assoc]

/-- A walk merges with the walked page itself. -/
theorem mergesWith_self (s : State) (wc : Seen) (guest page : Nat) (o : WalkOut) :
    s.mergesWith wc guest page o (page % 32) = .ok [(page % 32, o.w)] := by
  simp [State.mergesWith]

/-- An entry that maps a page and gives it the translation of a walk. -/
structure EntryOf (e : TlbEntry) (guest page : Nat) (w : Walked) : Prop where
  maps : e.maps guest page = true
  base : e.base = (w.ppn + 2 ^ 32 - page % 32) % 2 ^ 32
  coh : e.coh = w.coh
  ret : e.ret = w.ret
  remote : e.remote = w.remote

/-- A traversal that succeeds begins with the result of its first element. -/
theorem mapM_cons_ok {ε α β : Type} {f : α → Except ε β} {a : α} {b : β} {l : List α} {r : List β} (ha : f a = .ok b)
    (h : (a :: l).mapM f = .ok r) : ∃ r', r = b :: r' := by
  rw [List.mapM_cons, ha] at h
  cases hl : l.mapM f with
  | error e => simp [hl, bind, Except.bind] at h
  | ok r' => exact ⟨r', by simpa [hl, bind, Except.bind, pure, Except.pure, eq_comm] using h⟩

/-- The mask of a merged entry covers the walked page, which is the first place that the merge looks at. -/
theorem merge_entryOf {s : State} {wc : Seen} {guest page : Nat} {o : WalkOut} {e : TlbEntry} {leaves : List Leaf}
    (h : s.merge wc guest page o = .ok (e, leaves)) : EntryOf e guest page o.w := by
  unfold State.merge at h
  obtain ⟨rest, places⟩ : ∃ rest, (if page % 32 ≤ o.w.ppn ∧ (o.w.ppn - page % 32) % 32 = 0 then
      page % 32 :: (List.range 32).filter (fun i => i != page % 32) else [page % 32]) = page % 32 :: rest := by
    split <;> exact ⟨_, rfl⟩
  simp only [places] at h
  cases found : (page % 32 :: rest).mapM (s.mergesWith wc guest page o) with
  | error x => simp [found, bind, Except.bind] at h
  | ok pages =>
    obtain ⟨others, rfl⟩ := mapM_cons_ok (mergesWith_self s wc guest page o) found
    simp only [found, bind, Except.bind, Except.ok.injEq, Prod.mk.injEq] at h
    obtain ⟨rfl, -⟩ := h
    refine ⟨?_, rfl, rfl, rfl, rfl⟩
    have inWindow : page % 32 < 32 := Nat.mod_lt page (by decide)
    simp [TlbEntry.maps, getLsbD_foldl_or _ _ _ inWindow, inWindow]

/-! ### TLBs (R39) -/

/-- An entry that is loaded for an access of a core stands in that core's TLB. -/
theorem mem_loadTlb_core (s : State) (core quad : Nat) (k : AccKind) (e : TlbEntry) (page : Nat) :
    e ∈ ((s.loadTlb (some core) quad k e page).core core).tlb k := by
  simp only [State.loadTlb, core_updCore, if_true, Core.addTlb, Core.tlb]
  split <;> exact List.mem_cons_self

/-! ### Walks (R38, R41) -/

/-- Setting DIRTY of the walked page leaves the translation of an entry as it is. -/
theorem EntryOf.withDirty {e : TlbEntry} {guest page : Nat} {w : Walked} (h : EntryOf e guest page w) (dirty : List Leaf) :
    EntryOf (if dirty = [] then e else { e with dmask := 1#32 <<< (page % 32) }) guest page w := by
  split
  · exact h
  · exact ⟨h.maps, h.base, h.coh, h.ret, h.remote⟩

/-- A walk that gives a translation has loaded the TLBs with an entry of it. -/
theorem walkMiss_ok {s t : State} {core : Option Nat} {quad guest : Nat} {va : DWord} {k : AccKind} {tr : Machine.Trans}
    (h : s.walkMiss core quad guest va k = (t, .ok tr)) : ∃ (u : State) (e : TlbEntry) (w : Walked),
      t = u.loadTlb core quad k e (pageOf va) ∧ EntryOf e guest (pageOf va) w ∧
        tr = { ppn := w.ppn, coh := w.coh, ret := w.ret, mig := w.mig, remote := w.remote, node := w.node } := by
  simp only [State.walkMiss] at h
  generalize alookup s.xlate.walkCaches (dieOfQuad quad) [] = wc at h
  cases walked : s.walk1 wc guest (pageOf va) with
  | error x => simp [walked, bind, Except.bind] at h
  | ok o =>
    cases merged : s.merge wc guest (pageOf va) o with
    | error x => simp [walked, merged, bind, Except.bind] at h
    | ok m =>
      obtain ⟨e, leaves⟩ := m
      simp only [walked, merged, bind, Except.bind] at h
      generalize (if k.writes = true then o.w.wr else o.w.rd) = permitted at h
      generalize (!o.w.remote && s.inCarve (65536 * o.w.ppn + va.toNat % 65536)) = carved at h
      generalize (if (k.writes && permitted && !carved) = true then o.w.leaves else []) = dirty at h
      cases checked : (s.leafChecks accBit leaves).or (s.leafChecks dirtyBit dirty) with
      | some x => simp [checked] at h
      | none =>
        cases permitted <;> cases carved <;> simp [checked] at h
        obtain ⟨rfl, rfl⟩ := h
        exact ⟨_, _, o.w, rfl, (merge_entryOf merged).withDirty dirty, rfl⟩

/-- The state after a finished walk: the walk's own, unless it fails a check, when nothing has changed and the fault is the
access's to raise (R41). -/
def afterWalk (s : State) : State × Except XErr Machine.Trans → State
  | (t, .ok _) => t
  | (t, .error e) => if e.waits then t else s

theorem execWalkComplete_eq (guest core : Nat) (va : DWord) (kind : Nat) (s : State) :
    execWalkComplete guest core va kind s =
      .next (afterWalk s (s.walkMiss (some core) (quadOf core) guest va (kindOf kind))) := by
  match kind with
  | 0 | 1 | 2 | 3 | 4 | _ + 5 => rfl

theorem walkComplete_holds (guest core : Nat) (va : DWord) (kind : Nat) (s : State) :
    TranslationStepHolds (.walkComplete guest core va kind) s := by
  rintro _ ⟨⟩
  refine ⟨_, execWalkComplete_eq .., fun t e fails => by rw [fails]; rfl, fun t tr gives => ?_⟩
  obtain ⟨u, e, w, loaded, entry, rfl⟩ := walkMiss_ok gives
  rw [gives]
  refine ⟨rfl, e, ?_, entry.maps, entry.base, entry.coh, entry.ret, entry.remote⟩
  exact loaded ▸ mem_loadTlb_core ..

/-! ### The statement -/

/-- Settles O51: each event of the invalidation queues and of the walkers has its lemma above; `translationEffect` says
nothing of any other. -/
theorem translationStepsHold : Obligations.TranslationStepsHold := by
  unfold Obligations.TranslationStepsHold
  intro i s e h
  unfold translationEffect at h
  split at h
  next q v => exact iqTailWrite_holds q v s e h
  next q => exact iqErrClear_holds q s e h
  next q => exact invS1Va_holds q s e h
  next q => exact invS1All_holds q s e h
  next q => exact invS2Ipa_holds q s e h
  next q => exact invS2All_holds q s e h
  next q => exact sync_holds q s e h
  next q => exact syncComplete_holds q s e h
  next guest core va kind => exact walkComplete_holds guest core va kind s e h
  next => exact absurd h (Option.some_ne_none e).symm

end Sys2Proof.Laws
end

section
/-! PROOFS. Memory and synchronisation (R57 to R83, R144 to R152): two clauses of the claims that some state of the model does
not meet. An atomic of another module can change a byte outside its line when memory is not in its canonical form, and a copy
that stops at a line gives every operation of its number the line at which the copy itself stood. -/

namespace Sys2Proof.Laws

open Sys2Proof.Machine Sys2Proof.Claims

/-! ### An atomic of another module, over a memory that is not in canonical form (R57, R92) -/

/-- Memory that lists the byte at 128 before the byte at 0. The list is not sorted, so the byte at 0 reads as unlisted for as
long as the other entry stands before it. -/
def hidingMem : List Host.Cell := [(128, 1), (0, 7)]

/-- The module right after reset, in a domain, with that memory. -/
def hidingState : State := { State.reset with mem := hidingMem, regs := { Regs.reset with domCtrl := 2#64 } }

/-- Another module exchanges the first four bytes of line 1 for zero bytes. -/
def clearingExchange : Instr := .homeRequest (.foreign 0 1 (opcodeOfAtom .xchg 4) false (byteMask 0 4) 0)

theorem quietLine_hidingState : QuietLine hidingState 1 where
  hbm := by decide
  tag := rfl
  room := by decide
  inbox := by simp [hidingState, State.reset]
  kept := rfl

/-- The exchange writes a zero byte at 128. Canonical memory lists no zero byte, so the entry of 128 goes, and the byte at 0,
which lies in line 0, comes to be read. -/
theorem clearingExchange_mem {t : State} (step : exec clearingExchange hidingState = .next t) : t.mem = [(0, 7)] := by
  obtain rfl := Host.Outcome.next.inj step
  decide +kernel

/-- Refutes O52: of an atomic that another module forwards, the claim is that every byte outside its line reads as before,
whatever list the memory is. `hidingState` holds a list that is not sorted, and there the byte at 0 reads 0 before
`clearingExchange` and 7 after it. The clause needs `Memory.wf s.mem`. -/
theorem not_memoryStepsHold : ¬ Obligations.MemoryStepsHold := by
  unfold Obligations.MemoryStepsHold
  intro holds
  obtain ⟨t, step, -, performs⟩ := holds clearingExchange hidingState _ rfl
  obtain ⟨-, -, -, exchanges⟩ := performs (by decide) (by decide) rfl quietLine_hidingState
  obtain ⟨-, -, kept⟩ := exchanges (by decide) (by decide)
  have same : memGet t.mem 0 = memGet hidingMem 0 := kept 0 (by decide)
  rw [clearingExchange_mem step] at same
  exact absurd same (by decide)

/-! ### A copy that stops, beside another operation of its number (R342, R348) -/

/-- A copy whose one line has been read and is to be written where no page can be: above the 55 bits of an address (R38). -/
def strayCopy : EngOp :=
  { EngOp.zero with lines := 1, captured := [0], dst := BitVec.ofNat 64 (2 ^ 63), started := true }

/-- Two operations with one number, the second of which stands at line 1. -/
def twinCopies : State := { State.reset with engOps := [strayCopy, { strayCopy with next := 1 }] }

/-- The cause with which the copy stops. -/
def strayCause : Nat := (xerr cXlateMiss false 0 false).code

theorem engDest_strayCopy :
    twinCopies.engDest strayCopy strayCopy.next (BitVec.allOnes 128) 0 [] = (twinCopies, .stop strayCause, []) := rfl

/-- Both operations take the line at which the copy that performs stands. -/
theorem exec_strayCopy : exec (.engineLinePerform strayCopy.id [] []) twinCopies =
    .next (twinCopies.updEng strayCopy.id fun o => o.fail strayCause strayCopy.next) := rfl

/-- Refutes O53: of a copy that stops while it writes, the claim is that every operation of its number then names as its error
line the line at which that operation stands itself, where the model names the line of the copy that performs. In
`twinCopies` the two differ for the second operation: the step gives it line 0, and the claim line 1. The clause needs the
line of the copy, or numbers that no two operations share. -/
theorem not_syncStepsHold : ¬ Obligations.SyncStepsHold := by
  unfold Obligations.SyncStepsHold
  intro holds
  obtain ⟨t, step, -, claim⟩ := holds (.engineLinePerform strayCopy.id [] []) twinCopies _ rfl
  obtain ⟨-, performs⟩ := claim strayCopy rfl
  obtain ⟨copies, -⟩ := performs rfl rfl
  obtain ⟨-, -, stops⟩ := (copies rfl).writes (by decide) (by decide) rfl 0 rfl
  have claimed := stops _ _ _ engDest_strayCopy
  obtain rfl := Host.Outcome.next.inj (exec_strayCopy.symm.trans step)
  have errLines : [0, 0] = [0, 1] := congrArg (fun u : State => u.engOps.map fun (o : EngOp) => o.errLine) claimed
  exact absurd errLines (by decide)

end Sys2Proof.Laws
end

section
/-! PROOFS. The constant selectors of R189: a source that names one reads its row of the table, and a 64-bit use extends the
32-bit value, by zeros for `LANE.ID` and `GROUP.SIZE` and by the sign for the others. -/

namespace Sys2Proof.Laws

open Sys2Proof.Machine

/-- The selectors of R189. -/
structure ConstSel (a : BitVec 8) : Prop where
  above : 0x84 ≤ a.toNat
  below : a.toNat < 0xC0

/-! ### A source that names a constant -/

theorem src32_constSel {a : BitVec 8} (sel : ConstSel a) (g : Group) (i : Nat) (l : Lane) :
    Machine.src32 g i l a = const32 g i a.toNat := by
  obtain ⟨above, below⟩ := sel
  have notRegister : ¬ a.toNat < 0x80 := by omega
  have notLatch : ¬ a.toNat < 0x84 := by omega
  unfold Machine.src32
  rw [if_neg notRegister, if_neg notLatch, if_pos below]

theorem src64_zeroExtended {a : BitVec 8} (zext : a = 0x85#8 ∨ a = 0x86#8) (g : Group) (i : Nat) (l : Lane) :
    Machine.src64 g i l a = (Machine.src32 g i l a).setWidth 64 := by
  obtain rfl | rfl := zext <;> rfl

theorem src64_signExtended {a : BitVec 8} (sel : ConstSel a) (sext : ¬ (a = 0x85#8 ∨ a = 0x86#8)) (g : Group) (i : Nat)
    (l : Lane) : Machine.src64 g i l a = (Machine.src32 g i l a).signExtend 64 := by
  rw [src32_constSel sel]
  obtain ⟨above, below⟩ := sel
  have notRegister : ¬ a.toNat < 0x80 := by omega
  have notLatch : ¬ a.toNat < 0x84 := by omega
  unfold Machine.src64
  rw [if_neg notRegister, if_neg notLatch, if_neg sext, if_pos below]

theorem src64_zeroExtended_toNat {a : BitVec 8} (zext : a = 0x85#8 ∨ a = 0x86#8) (g : Group) (i : Nat) (l : Lane) :
    (Machine.src64 g i l a).toNat = (Machine.src32 g i l a).toNat := by
  rw [src64_zeroExtended zext, BitVec.toNat_setWidth_of_le (by decide)]

theorem src64_signExtended_toInt {a : BitVec 8} (sel : ConstSel a) (sext : ¬ (a = 0x85#8 ∨ a = 0x86#8)) (g : Group) (i : Nat)
    (l : Lane) : (Machine.src64 g i l a).toInt = (Machine.src32 g i l a).toInt := by
  rw [src64_signExtended sel sext, BitVec.toInt_signExtend_of_le (by decide)]

theorem signExtended_of_integer {a : BitVec 8} (integer : 0x90 ≤ a.toNat) : ¬ (a = 0x85#8 ∨ a = 0x86#8) := by
  rintro (rfl | rfl) <;> exact absurd integer (by decide)

/-! ### The integers of the table -/

/-- A selector past the named values falls through to the two integer rows. -/
theorem const32_integer (g : Group) (i : Nat) {n : Nat} (integer : 0x90 ≤ n) :
    const32 g i n = if n < 0xB0 then BitVec.ofNat 32 (n - 0x90) else BitVec.ofInt 32 (Int.ofNat n - 0xC0) := by
  have named : ∀ k < 0x90, n ≠ k := fun k hk => by omega
  simp [const32, named]

theorem const32_nonnegative_toInt (g : Group) (i : Nat) {n : Nat} (lo : 0x90 ≤ n) (hi : n < 0xB0) :
    (const32 g i n).toInt = (n : Int) - 0x90 := by
  rw [const32_integer g i lo, if_pos hi, BitVec.toInt_ofNat', Int.bmod_def]
  omega

theorem const32_negative_toInt (g : Group) (i : Nat) {n : Nat} (lo : 0xB0 ≤ n) (hi : n < 0xC0) :
    (const32 g i n).toInt = (n : Int) - 0xC0 := by
  rw [const32_integer g i (by omega), if_neg (by omega), BitVec.toInt_ofInt, Int.ofNat_eq_natCast, Int.bmod_def]
  omega

theorem src_integer_toInt {a : BitVec 8} (lo : 0x90 ≤ a.toNat) (hi : a.toNat < 0xC0) (g : Group) (i : Nat) (l : Lane) {v : Int}
    (value : (const32 g i a.toNat).toInt = v) : (Machine.src32 g i l a).toInt = v ∧ (Machine.src64 g i l a).toInt = v := by
  have sel : ConstSel a := ⟨by omega, hi⟩
  have narrow : (Machine.src32 g i l a).toInt = v := by rw [src32_constSel sel, value]
  exact ⟨narrow, (src64_signExtended_toInt sel (signExtended_of_integer lo) g i l).trans narrow⟩

/-! ### `LANE.ID` and `GROUP.SIZE` -/

theorem src_zeroExtended_toNat {a : BitVec 8} (zext : a = 0x85#8 ∨ a = 0x86#8) (g : Group) (i : Nat) (l : Lane) {n : Nat}
    (fits : n < 2 ^ 32) (value : Machine.src32 g i l a = BitVec.ofNat 32 n) :
    (Machine.src32 g i l a).toNat = n ∧ (Machine.src64 g i l a).toNat = n := by
  have narrow : (Machine.src32 g i l a).toNat = n := by rw [value, BitVec.toNat_ofNat, Nat.mod_eq_of_lt fits]
  exact ⟨narrow, (src64_zeroExtended_toNat zext g i l).trans narrow⟩

/-! ### The floating-point constants -/

theorem src64_float_illegal {a : BitVec 8} (lo : 0x88 ≤ a.toNat) (hi : a.toNat < 0x90) :
    Sys2Proof.src64 a = some .illegalOperand := by
  have notRegister : ¬ a.toNat < 0x80 := by omega
  have notLatch : ¬ a.toNat < 0x84 := by omega
  have notLegal : ¬ (a.toNat < 0x88 ∨ 0x90 ≤ a.toNat) := by omega
  simp [Sys2Proof.src64, need, notRegister, notLatch, notLegal]

/-- Settles O45: the selectors of the table that are no integers are read off it, and the two rows of integers are the lemmas
above; `src64` extends each by the sign, but for `LANE.ID` and `GROUP.SIZE`, which fit in 32 bits. -/
theorem constantSelectorsGiveTheirValues : Obligations.ConstantSelectorsGiveTheirValues := by
  unfold Obligations.ConstantSelectorsGiveTheirValues
  intro g i l lane width
  refine ⟨?zero, ?laneId, ?groupSize, ?ones, ?floats, ?illegal, ?nonnegative, ?negative⟩
  case zero => exact ⟨rfl, src64_signExtended ⟨by decide, by decide⟩ (by decide) g i l⟩
  case laneId => exact src_zeroExtended_toNat (.inl rfl) g i l (by omega) rfl
  case groupSize => exact src_zeroExtended_toNat (.inr rfl) g i l (by omega) rfl
  case ones => exact ⟨rfl, src64_signExtended ⟨by decide, by decide⟩ (by decide) g i l⟩
  case floats => rfl
  case illegal => exact fun a lo hi => src64_float_illegal lo hi
  case nonnegative => exact fun a lo hi => src_integer_toInt lo (by omega) g i l (const32_nonnegative_toInt g i lo hi)
  case negative => exact fun a lo hi => src_integer_toInt (by omega) hi g i l (const32_negative_toInt g i lo hi)

end Sys2Proof.Laws
end

section
/-! PROOFS. `yield` (R184, R423): its one word, and what it does to its pick. -/

namespace Sys2Proof.Laws

open Sys2Proof.Machine

/-! ### The word of `yield` -/

/-- Nothing of a word lies outside the fields of format A. -/
theorem joinA_splitA (w : Word) :
    joinA (splitA w).op (splitA w).d (splitA w).w (splitA w).a (splitA w).b = w := by
  dsimp only [joinA, splitA]
  repeat rw [BitVec.extractLsb'_append_extractLsb'_eq_extractLsb' (by rfl)]
  exact BitVec.extractLsb'_eq_self

/-- The one word of `yield` has its opcode and its other bits 0 (R423). -/
theorem eq_yieldWord_iff {w : Word} (opcode : opOf w = 0x08#8) :
    w = 0x08000000#32 ↔ (splitA w).d = 0#7 ∧ (splitA w).w = 0#1 ∧ (splitA w).a = 0#8 ∧ (splitA w).b = 0#8 := by
  constructor
  · rintro rfl
    decide
  · rintro ⟨d, ws, a, b⟩
    have op : (splitA w).op = 0x08#8 := opcode
    rw [← joinA_splitA w, op, d, ws, a, b]
    rfl

theorem word1_legal (fixed : Bool) (i : Instr) (rest : List Word) :
    word1 fixed true i rest = if fixed then .ok (i, rest) else .error .mustBeZero := by
  cases fixed <;> rfl

theorem parseInstr_yieldOpcode {w : Word} (opcode : opOf w = 0x08#8) (rest : List Word) :
    parseInstr 5 (w :: rest) = if w = 0x08000000#32 then .ok (.yield, rest) else .error .mustBeZero := by
  simp only [parseInstr, decode5, opcode, BitVec.toNat_ofNat, Nat.reducePow, Nat.reduceMod, word1_legal]
  simp only [Bool.and_eq_true, beq_iff_eq, and_assoc, eq_yieldWord_iff opcode]

theorem decode_yieldWord (rest : List Word) : decode 5 (0x08000000#32 :: rest) = .ok (.yield, rest) := by
  unfold decode
  rw [parseInstr_yieldOpcode rfl, if_pos rfl]
  rfl

theorem decode_yieldOpcode_error {w : Word} (opcode : opOf w = 0x08#8) (other : w ≠ 0x08000000#32) (rest : List Word) :
    decode 5 (w :: rest) = .error .mustBeZero := by
  unfold decode
  rw [parseInstr_yieldOpcode opcode, if_neg other]

/-! ### What `yield` does -/

theorem exec_yield {s : State} {p : Pick} (issuing : s.cur = some p) :
    exec .yield s = .next { s with cur := some { p with yields := true } } := by
  have arm : exec .yield s = execYield s := rfl
  rw [arm, execYield, issuing, Option.map_some]

/-- Settles O24: `exec_yield` marks the pick of `yield`, a pick starts with bit 28 of its header by the definition of `pickOf`,
and of the words with the opcode of `yield` class 5 decodes one. -/
theorem yieldMarksThePick : Obligations.YieldMarksThePick := by
  unfold Obligations.YieldMarksThePick
  refine ⟨?marks, ?header, ?word, ?otherWords⟩
  case marks => exact fun s p issuing => exec_yield issuing
  case header => exact fun core slot port c v h ws => rfl
  case word => exact decode_yieldWord
  case otherWords => exact fun w rest opcode other => ⟨_, decode_yieldOpcode_error opcode other rest⟩

end Sys2Proof.Laws
end

section
/-! SUPPORT. Facts that the proofs about several units share: folds, the one next state of a step, and the changes of one group. -/

namespace Sys2Proof.Laws

open Sys2Proof.Machine Sys2Proof.Claims

/-- A step has one next state. -/
theorem eq_of_next {x : Out} {t u : State} (h : x = .next t) (h' : x = .next u) : t = u :=
  Host.Outcome.next.inj (h.symm.trans h')

/-- What every step of a fold leaves as it was, the fold leaves as it was. -/
theorem foldl_keeps {f : β → α → β} {l : List α} {b : β} (p : β → γ) (h : ∀ b a, p (f b a) = p b) :
    p (l.foldl f b) = p b := by
  induction l generalizing b with
  | nil => rfl
  | cons a l ih => rw [List.foldl_cons, ih, h]

theorem updGroup_othersKept (s : State) (gid : Nat) (f : Group → Group) : OthersKept s (s.updGroup gid f) gid := by
  refine ⟨by simp [State.updGroup], fun k g hk other => ?_⟩
  simp [State.updGroup, hk, other]

theorem othersKept_trans {s t u : State} {gid : Nat} (h : OthersKept s t gid) (h' : OthersKept t u gid) : OthersKept s u gid :=
  ⟨h'.1.trans h.1, fun k g hk other => h'.2 k g (h.2 k g hk other) other⟩

/-- The acquire effect changes cores alone. -/
theorem acquireEffect_keeps (p : State → γ) (h : ∀ s k f, p (State.updCore s k f) = p s) (s : State) (gid : Nat)
    (m : BitVec 64) (scope : BitVec 3) (nc : Nat → Bool) : p (s.acquireEffect gid m scope nc) = p s := by
  unfold State.acquireEffect
  split
  · rfl
  · exact h ..

theorem ite_updGroup (s : State) (c : Prop) [Decidable c] (gid : Nat) (f : Group → Group) :
    (if c then s.updGroup gid f else s) = s.updGroup gid fun g => if c then f g else g := by
  split
  · rfl
  · simp [State.updGroup]

end Sys2Proof.Laws
end

section
/-! PROOFS. The scheduler (R426 to R440): doorbells, the taking up of a launch descriptor, placement, completion, the limits on
waiting and the time slices of guests. -/

namespace Sys2Proof.Laws

open Sys2Proof.Machine Sys2Proof.Claims

/-- The step of an event of the scheduler completes, with what the claims say of it. -/
def LaunchStepHolds (i : Instr) (s : State) : Prop :=
  ∀ e : State → Prop, launchEffect s i = some e → ∃ t, exec i s = .next t ∧ e t

/-! ### Launches -/

/-- A change of one launch that keeps its number changes the launch of that number alone. -/
theorem launch?_updLaunch (s : State) (k id : Nat) (f : Launch → Launch) (hf : ∀ l, (f l).id = l.id) :
    (s.updLaunch k f).launch? id = (s.launch? id).map fun l => if l.id = k then f l else l := by
  unfold State.launch? State.updLaunch
  rw [List.find?_map]
  congr 2
  funext l
  simp only [Function.comp_apply]
  split <;> simp [hf]

/-! ### Submission queues (R426, R427) -/

@[simp] theorem sq_setSq_same (s : State) (fn q : Nat) (x : Queue) : (s.setSq fn q x).sq fn q = x := by
  have others : ((s.sched.sqs.filter fun e => !(e.1 == fn && e.2.1 == q)).find? fun e => e.1 == fn && e.2.1 == q) = none := by
    rw [List.find?_eq_none]
    intro e mem same
    simp only [List.mem_filter, same] at mem
    exact absurd mem.2 (by decide)
  simp only [State.sq, State.setSq, List.find?_append, others, Option.none_or, List.find?_cons, beq_self_eq_true, Bool.and_self]

theorem sqTailWrite_holds (fn q : Nat) (v : DWord) (s : State) : LaunchStepHolds (.sqTailWrite fn q v) s := by
  rintro _ ⟨⟩
  refine ⟨_, rfl, ?_⟩
  by_cases fits : ringAdvance (s.sq fn q) v ≤ ringFree (s.sq fn q)
  · have taken : (s.sq fn q).advanceTail v = some { s.sq fn q with tail := BitVec.ofNat 64 (fldN v 0 12) } := if_pos fits
    simp only [taken, if_pos fits]
    by_cases asleep : s.plat.power = .deepSleep
    · rw [if_pos asleep]
      exact if_pos asleep
    · rw [if_neg asleep]
      exact if_neg asleep
  · have passesHead : (s.sq fn q).advanceTail v = none := if_neg fits
    simp only [passesHead, if_neg fits]

theorem sqErrClear_holds (fn q : Nat) (s : State) : LaunchStepHolds (.sqErrClear fn q) s := by
  rintro _ ⟨⟩
  exact ⟨_, rfl, rfl⟩

/-! ### Descriptors (R427 to R431) -/

theorem next_headN (x : Queue) : x.next.headN = (x.headN + 1) % 4096 := by
  simp only [Queue.next, Queue.headN, fldN, BitVec.extractLsb'_toNat, BitVec.toNat_ofNat, Nat.shiftRight_zero]
  omega

theorem passDescriptor_sq (s : State) (fn q : Nat) : (s.passDescriptor fn q).sq fn q = (s.sq fn q).next :=
  sq_setSq_same ..

theorem acceptLaunch_accepted (s : State) (a : Asked) (q place : Nat) (args : List DWord) :
    Accepted s (s.acceptLaunch a q place args) a q place args where
  launch := ⟨_, rfl, rfl, rfl, rfl, rfl, rfl, rfl, rfl, rfl, rfl, rfl, rfl, rfl, rfl⟩
  approved := List.mem_append_right _ (List.mem_singleton.mpr rfl)
  head := by
    rw [State.acceptLaunch, passDescriptor_sq, next_headN]
    rfl
  memory := rfl
  teams := ⟨rfl, rfl⟩

theorem decideLaunch_decided (s : State) (far : FarLines) (fn q : Nat) (d : Desc) (place : Nat) (rejected : Option Nat) :
    Decided s (s.decideLaunch far fn q d place rejected) far fn q d place rejected := by
  refine ⟨fun s₁ waits => ?_, fun s₁ a read =>
    ⟨fun st rule s₂ refuses written => ?_, fun needs => ?_, fun s₂ args accepts given => ?_⟩⟩
  · simp only [State.decideLaunch, waits]
  · simp only [State.decideLaunch, read, refuses, State.refuseLaunch, written]
  · simp only [State.decideLaunch, read, needs]
  · simp only [State.decideLaunch, read, accepts, given]
    exact acceptLaunch_accepted s₂ a q place args

theorem judgeDescriptor_judged (s : State) (far : FarLines) (fn q : Nat) (d : Desc) :
    Judged s (s.judgeDescriptor far fn q d) far fn q d := by
  refine ⟨fun unaligned => ?_, fun s₁ aligned fails => ?_, fun s₁ tr aligned found => ?_⟩
  · simp only [State.judgeDescriptor, if_pos unaligned]
  · simp only [State.judgeDescriptor, aligned, ne_eq, not_true_eq_false, if_false, fails]
  · simp only [State.judgeDescriptor, aligned, ne_eq, not_true_eq_false, if_false, found]
    exact decideLaunch_decided s₁ far fn q d (tr.place (dCpl d)) none

theorem takeDescriptor_taken (s : State) (far : FarLines) (fn q : Nat) :
    DescriptorTaken s (s.takeDescriptor far fn q) far fn q := by
  refine ⟨fun e begun => ?_, fun fresh => ⟨fun s₁ fails => ?_, fun s₁ s₂ pa place ready => ?_⟩⟩
  · simp only [State.takeDescriptor, begun]
    exact judgeDescriptor_judged ..
  · simp only [State.takeDescriptor, fresh, fails]
  · simp only [State.takeDescriptor, fresh, place, ready]
    exact judgeDescriptor_judged ..

theorem launchDescriptor_holds (fn : Nat) (c : QueueCall) (s : State) : LaunchStepHolds (.launchDescriptor fn c) s := by
  obtain ⟨q, far⟩ := c
  rintro _ ⟨⟩
  have guard : (!s.schedRuns || s.inReset (guestOf fn)) = !(s.schedRuns && !s.inReset (guestOf fn)) := by simp
  refine ⟨_, rfl, fun stopped => ?_, fun runs idle => ⟨fun other => ?_, fun next ready => ?_⟩,
    fun p runs waits => ⟨fun noRecord => ?_, fun rule rejected => ?_, fun rule admitted valid => ?_⟩⟩
  · simp only [guard, stopped, Bool.not_false, if_true]
  · simp only [guard, runs, idle, Bool.not_true, Bool.false_eq_true, if_false]
    exact if_neg (by simpa using other)
  · simp only [guard, runs, idle, Bool.not_true, Bool.false_eq_true, if_false]
    rw [if_pos ⟨next, by simpa using ready⟩]
    exact takeDescriptor_taken s far fn q
  · simp only [guard, runs, waits, noRecord, Bool.not_true, Bool.false_eq_true, if_false]
  · simp only [guard, runs, waits, rejected, Bool.not_true, Bool.false_eq_true, if_false]
    exact decideLaunch_decided s far fn q p.desc p.cplPA (some rule)
  · simp only [guard, runs, waits, admitted, valid, Bool.not_true, Bool.false_eq_true, if_false, if_true]
    exact decideLaunch_decided s far fn q p.desc p.cplPA none

/-! ### Placement (R436, R437) -/

@[simp] theorem zeroStorage_teams (s : State) (t : Team) : (s.zeroStorage t).teams = s.teams :=
  by
  unfold State.zeroStorage
  rw [updQuad_teams]
  exact foldl_keeps State.teams fun _ _ => rfl

theorem newGroup_lanes (l : Launch) (gid team index role rank : Nat) (entry : DWord) (x : Spot) :
    (l.newGroup gid team index role rank entry x).lanes = List.replicate l.width { Lane.zero with pc := entry } := rfl

theorem placeNew_placed (s : State) (l : Launch) (f : Fit) : TeamPlaced (s.placeNew l f) l f where
  team := by
    unfold State.placeNew
    simp only [updLaunch_teams, zeroStorage_teams]
    exact ⟨_, List.mem_append_right _ (List.mem_singleton.mpr rfl), rfl, rfl, rfl, rfl, rfl⟩
  groups := by
    refine ⟨_, _, rfl, ?_, fun g hg => ?_⟩
    · simp
    · obtain ⟨e, -, rfl⟩ := List.mem_map.mp hg
      refine ⟨rfl, rfl, rfl, rfl, List.length_replicate, fun x hx => ?_⟩
      obtain rfl := List.eq_of_mem_replicate hx
      exact ⟨rfl, rfl, rfl, rfl⟩

/-- PLACEMENT of the next new team of a launch, which has a place (R436). -/
theorem execPlacement_new {s : State} {launch team : Nat} {l : Launch} {f : Fit} (core : Nat) (found : s.launch? launch = some l)
    (runs : s.schedRuns = true) (may : s.mayPlace l = true) (new : s.isSaved launch team = false) (isNext : team = l.nextTeam)
    (mayNew : s.mayPlaceNew l = true) (first : s.goesFirst l false team = false) (fits : s.placeFor l = some f) :
    execPlacement launch team core s = .next (if f.core = core then s.placeNew l f else s) := by
  have itsTurn : (decide (team ≠ l.nextTeam) || !s.mayPlaceNew l || s.goesFirst l false team) = false := by
    simp [isNext, mayNew, isNext ▸ first]
  simp only [execPlacement, found, runs, may, new, itsTurn, fits, Bool.not_true, Bool.or_self, Bool.false_eq_true, if_false]

/-- PLACEMENT of a saved team, which has a place (R175). -/
theorem execPlacement_saved {s : State} {launch team : Nat} {l : Launch} {img : Image} {f : Fit} (core : Nat)
    (found : s.launch? launch = some l) (runs : s.schedRuns = true) (may : s.mayPlace l = true)
    (saved : s.isSaved launch team = true) (current : s.imageFor launch team = some img)
    (first : s.goesFirst l true team = false) (fits : s.placeForSaved l img = some f) :
    execPlacement launch team core s = .next (if f.core = core then s.placeSaved l img f else s) := by
  simp only [execPlacement, found, runs, may, saved, current, first, fits, Bool.not_true, Bool.or_self, Bool.false_eq_true,
    if_false, if_true]

theorem placement_holds (launch team core : Nat) (s : State) : LaunchStepHolds (.placement launch team core) s := by
  rintro _ ⟨⟩
  obtain ⟨t, step⟩ : ∃ t, execPlacement launch team core s = .next t := ⟨_, rfl⟩
  refine ⟨t, step, fun absent => ?_, fun l found => ⟨fun idle => ?_, fun runs may =>
    ⟨fun new isNext mayNew first f fits => ?_, fun img saved current first f fits => ?_⟩⟩⟩
  · exact eq_of_next step (by simp only [execPlacement, absent])
  · have waits : (!s.schedRuns || !s.mayPlace l) = true := by simpa using idle
    exact eq_of_next step (by simp only [execPlacement, found, waits, if_true])
  · have placed := eq_of_next step (execPlacement_new core found runs may new isNext mayNew first fits)
    refine ⟨fun other => placed.trans (if_neg other), fun here => ?_⟩
    rw [if_pos here] at placed
    exact ⟨placed, placed ▸ placeNew_placed s l f⟩
  · have placed := eq_of_next step (execPlacement_saved core found runs may saved current first fits)
    exact ⟨fun other => placed.trans (if_neg other), fun here => placed.trans (if_pos here)⟩

/-! ### Freezing and going on (R450, R453) -/

theorem freezeGroup_sched (s : State) (gid : Nat) : (s.freezeGroup gid).sched = s.sched :=
  foldl_keeps State.sched fun _ _ => rfl

theorem freezeLaunch_sched (s : State) (launch : Nat) :
    (s.freezeLaunch launch).sched = (s.updLaunch launch fun l => { l with tier := 2, quiesced := false }).sched := by
  have frozen : ((s.launchGids launch).foldl (fun s k => s.freezeGroup k) s).sched = s.sched :=
    foldl_keeps State.sched freezeGroup_sched
  simp only [State.freezeLaunch, updLaunch_sched, frozen]

/-- What neither a pre-emption nor its end changes of the launches: their numbers and whether they have waited too long. -/
def waitLimits (s : State) : List (Nat × Bool) := s.sched.launches.map fun l => (l.id, l.waitLimit)

theorem find?_waitLimits (s : State) (k : Nat) :
    (waitLimits s).find? (fun e => e.1 == k) = (s.launch? k).map fun l => (l.id, l.waitLimit) :=
  List.find?_map ..

theorem waitLimits_updLaunch (s : State) (k : Nat) (f : Launch → Launch)
    (kept : ∀ l, ((f l).id, (f l).waitLimit) = (l.id, l.waitLimit)) : waitLimits (s.updLaunch k f) = waitLimits s := by
  simp only [waitLimits, updLaunch_sched, List.map_map]
  refine List.map_congr_left fun l _ => ?_
  simp only [Function.comp_apply]
  split
  · exact kept l
  · rfl

theorem waitLimits_of_sched {s t : State} (h : t.sched = s.sched) : waitLimits t = waitLimits s := by
  rw [waitLimits, h, waitLimits]

theorem waitLimits_freezeLaunch (s : State) (launch : Nat) : waitLimits (s.freezeLaunch launch) = waitLimits s :=
  (waitLimits_of_sched (freezeLaunch_sched s launch)).trans (waitLimits_updLaunch s launch _ fun _ => rfl)

theorem waitLimits_preempt (s : State) (launch tier : Nat) (for' : Option Nat) :
    waitLimits (s.preempt launch tier for') = waitLimits s := by
  unfold State.preempt
  split
  · rfl
  · split
    · rfl
    · dsimp only
      split
      · rw [waitLimits_freezeLaunch]
        exact waitLimits_updLaunch s launch _ fun _ => rfl
      · rw [waitLimits_updLaunch]
        · exact waitLimits_updLaunch s launch _ fun _ => rfl
        · exact fun _ => rfl

theorem preempt_switchTo (s : State) (launch tier : Nat) (for' : Option Nat) :
    (s.preempt launch tier for').sched.switchTo = s.sched.switchTo := by
  unfold State.preempt
  split
  · rfl
  · split
    · rfl
    · dsimp only
      split
      · rw [freezeLaunch_sched]
        rfl
      · rfl

theorem thawGroups_keep (p : State → γ) (h : ∀ s gid, p (s.thawGroup gid) = p s) (s : State) (l : Launch) (ks : List Nat) :
    p (if l.linkFrozen then s else ks.foldl (fun s k => s.thawGroup k) s) = p s := by
  split
  · rfl
  · exact foldl_keeps p h

/-- The end of a freeze changes groups, engine operations and launches alone. -/
theorem thawLaunch_keeps (p : State → γ) (hGroup : ∀ s gid, p (s.thawGroup gid) = p s)
    (hLaunch : ∀ s k, p (s.updLaunch k fun l => { l with tier := 0, quiesced := false, stoppedFor := none }) = p s)
    (s : State) (launch : Nat) : p (s.thawLaunch launch) = p s := by
  unfold State.thawLaunch
  split
  · rfl
  · split
    · rfl
    · exact (hLaunch _ _).trans (thawGroups_keep p hGroup _ _ _)

theorem endLaunch_keeps (p : State → γ) (hGroup : ∀ s gid, p (s.thawGroup gid) = p s)
    (hLaunch : ∀ s k, p (s.updLaunch k fun l => { l with tier := 0, quiesced := false, stoppedFor := none }) = p s)
    (s : State) (l : Launch) : p (s.endLaunch l) =
      p { s with sched := { s.sched with launches := s.sched.launches.filter fun m => m.id != l.id },
                 trusted := { s.trusted with approved := s.trusted.approved.filter fun k => k != l.id,
                                             savedCtr := s.trusted.savedCtr.filter fun e => e.1 != l.id } } :=
  foldl_keeps p (thawLaunch_keeps p hGroup hLaunch)

/-! ### Completion, wait limits and time slices (R433, R438, R439) -/

theorem endLaunch_mem (s : State) (l : Launch) : (s.endLaunch l).mem = s.mem :=
  endLaunch_keeps State.mem (fun _ _ => rfl) (fun _ _ => rfl) s l

theorem endLaunch_approved (s : State) (l : Launch) :
    (s.endLaunch l).trusted.approved = s.trusted.approved.filter fun k => k != l.id :=
  endLaunch_keeps (fun s => s.trusted.approved) (fun _ _ => rfl) (fun _ _ => rfl) s l

theorem waitLimits_endLaunch (s : State) (l : Launch) :
    waitLimits (s.endLaunch l) = (s.sched.launches.filter fun m => m.id != l.id).map fun l => (l.id, l.waitLimit) :=
  endLaunch_keeps waitLimits (fun _ _ => rfl) (fun s k => waitLimits_updLaunch s k _ fun _ => rfl) s l

theorem endLaunch_launch? (s : State) (l : Launch) : (s.endLaunch l).launch? l.id = none := by
  rw [← Option.map_eq_none_iff (f := fun l : Launch => (l.id, l.waitLimit)), ← find?_waitLimits, waitLimits_endLaunch,
    List.find?_eq_none]
  intro e he
  obtain ⟨m, hm, rfl⟩ := List.mem_map.mp he
  simpa using (List.mem_filter.mp hm).2

theorem launch?_id {s : State} {k : Nat} {l : Launch} (h : s.launch? k = some l) : l.id = k :=
  beq_iff_eq.mp (List.find?_some (p := fun l : Launch => l.id == k) h)

theorem launchCompletion_holds (launch : Nat) (s : State) : LaunchStepHolds (.launchCompletion launch) s := by
  rintro _ ⟨⟩
  refine ⟨_, rfl, fun absent => ?_, fun l found => ⟨fun runs => ?_, fun s₁ ended written => ?_⟩⟩
  · simp only [absent]
  · simp only [found, runs, Bool.not_false, if_true]
  · simp only [found, ended, written, Bool.not_true, Bool.false_eq_true, if_false]
    obtain rfl := launch?_id found
    refine ⟨trivial, endLaunch_launch? s₁ l, ?_, endLaunch_mem s₁ l⟩
    rw [endLaunch_approved]
    simp

theorem waitLimits_pressOn (s : State) (l : Launch) : waitLimits (s.pressOn l) = waitLimits s := by
  unfold State.pressOn
  dsimp only
  split
  · rfl
  · split
    · rfl
    · exact waitLimits_preempt ..

theorem placementWaitLimit_holds (launch : Nat) (s : State) : LaunchStepHolds (.placementWaitLimit launch) s := by
  rintro _ ⟨⟩
  refine ⟨_, rfl, fun l found => ⟨fun settled => ?_, fun waits => ?_⟩⟩
  · simp only [found, settled, Bool.false_eq_true, if_false]
  · simp only [found, waits, if_true, and_true]
    have marked : (waitLimits ((s.updLaunch launch fun m => { m with waitLimit := true }).pressOn
        { l with waitLimit := true })).find? (fun e => e.1 == launch) = some (launch, true) := by
      rw [waitLimits_pressOn, find?_waitLimits, launch?_updLaunch, found]
      · simp [launch?_id found]
      · exact fun _ => rfl
    rw [find?_waitLimits, Option.map_eq_some_iff] at marked
    obtain ⟨m, hm, same⟩ := marked
    exact ⟨m, hm, congrArg Prod.snd same⟩

theorem startSwitch_switchTo (s : State) (g : Nat) : (s.startSwitch g).sched.switchTo = some g :=
  foldl_keeps (fun s : State => s.sched.switchTo) fun s k => preempt_switchTo s k 1 none

theorem quantumExpiry_holds (s : State) : LaunchStepHolds .quantumExpiry s := by
  rintro _ ⟨⟩
  refine ⟨_, rfl, fun stays => ?_, fun g settled next => ?_⟩
  · rcases stays with under | alone
    · simp only [under, if_true]
    · simp only [alone, ite_self]
  · simp only [settled, next, Option.isSome_none, Bool.false_eq_true, if_false]
    exact ⟨trivial, startSwitch_switchTo s g⟩

/-! ### The statement -/

/-- Settles O48: each event of queues, launches and placement has its lemma above; `launchEffect` says nothing of any other. -/
theorem launchStepsHold : Obligations.LaunchStepsHold := by
  unfold Obligations.LaunchStepsHold
  intro i s e h
  unfold launchEffect at h
  split at h
  next fn q v => exact sqTailWrite_holds fn q v s e h
  next fn q => exact sqErrClear_holds fn q s e h
  next fn q far => exact launchDescriptor_holds fn ⟨q, far⟩ s e h
  next launch team core => exact placement_holds launch team core s e h
  next launch => exact launchCompletion_holds launch s e h
  next launch => exact placementWaitLimit_holds launch s e h
  next => exact quantumExpiry_holds s e h
  next => exact absurd h (Option.some_ne_none e).symm

end Sys2Proof.Laws
end

section
/-! PROOFS. Tiles and the matrix engine (R360 to R373, R441): the ends of tile operations, waits at rings, and the entries of the
reservation table. -/

namespace Sys2Proof.Laws

open Sys2Proof.Machine Sys2Proof.Claims

/-- The step of an event of the tile store, of a matrix engine or of the Hamper completes, with what the claims say of it. -/
def UnitStepHolds (i : Instr) (s : State) : Prop :=
  ∀ e : State → Prop, unitEffect s i = some e → ∃ t, exec i s = .next t ∧ e t

/-! ### Slots (R84, R355) -/

theorem slot_updSlot (s : State) (a : Nat × Nat) (f : TileSlot → TileSlot) (c k : Nat) :
    (s.updSlot a f).slot c k = if (c, k) = a then f (s.slot c k) else s.slot c k := by
  obtain ⟨c', k'⟩ := a
  simp only [State.slot, State.updSlot, core_updCore, Prod.mk.injEq]
  by_cases core : c = c'
  · subst core
    simp only [if_true, alookup_aset, true_and]
    split
    · rename_i slot
      rw [slot]
    · rfl
  · simp only [core, if_false, false_and]

/-- Bytes that are written into a list of slots stand in each of them, and nothing else of any slot changes. -/
theorem slot_foldl_write (d : BitVec 16384) (l : List (Nat × Nat)) (s : State) (c k : Nat) :
    (l.foldl (fun s a => s.updSlot a fun t => { t with data := d }) s).slot c k =
      if (c, k) ∈ l then { s.slot c k with data := d } else s.slot c k := by
  induction l generalizing s with
  | nil => rfl
  | cons a l ih =>
    rw [List.foldl_cons, ih, slot_updSlot]
    by_cases here : (c, k) = a <;> by_cases later : (c, k) ∈ l <;> simp [here, later]

/-- A live slot keeps its bytes when an operation has finished with it: it stays live, so no slot is emptied. -/
theorem slot_unpost_live {s : State} (op : Nat) (slots : List (Nat × Nat)) {c k : Nat} (live : (s.slot c k).state = .live) :
    ((s.unpost op slots).slot c k).data = (s.slot c k).data := by
  suffices kept : ((s.unpost op slots).slot c k).state = .live ∧ ((s.unpost op slots).slot c k).data = (s.slot c k).data from
    kept.2
  refine List.foldlRecOn (motive := fun u => (State.slot u c k).state = .live ∧ (State.slot u c k).data = (s.slot c k).data)
    _ _ ⟨live, rfl⟩ fun u same a _ => ?_
  rw [slot_updSlot]
  split
  · simpa [TileSlot.settle, same.1] using same.2
  · exact same

/-- The end of an operation's use of slots changes slots alone. -/
theorem unpost_keeps (p : State → γ) (h : ∀ s a f, p (State.updSlot s a f) = p s) (s : State) (op : Nat)
    (slots : List (Nat × Nat)) : p (s.unpost op slots) = p s :=
  foldl_keeps p fun s a => h s a _

theorem writeSlots_keeps (p : State → γ) (h : ∀ s a f, p (State.updSlot s a f) = p s) (s : State) (o : TileOp)
    (f : BitVec 16384 → BitVec 16384) : p (s.writeSlots o f) = p s :=
  foldl_keeps p fun s a => h s a _

/-! ### The end of a tile operation (R367) -/

theorem endTile_eq (s : State) (o : TileOp) : s.endTile o =
    (({ s with tileOps := s.tileOps.filter fun p => p.op != o.op } : State).unpost o.op (opReads o ++ o.writes)).updGroup o.gid
      fun g => { g with q3 := g.q3.erase o.op } := rfl

@[simp] theorem endTile_mem (s : State) (o : TileOp) : (s.endTile o).mem = s.mem := by
  rw [endTile_eq, updGroup_mem, unpost_keeps State.mem fun _ _ _ => rfl]

@[simp] theorem endTile_reqs (s : State) (o : TileOp) : (s.endTile o).reqs = s.reqs := by
  rw [endTile_eq, updGroup_reqs, unpost_keeps State.reqs fun _ _ _ => rfl]

@[simp] theorem endTile_tileOps (s : State) (o : TileOp) : (s.endTile o).tileOps = s.tileOps.filter fun p => p.op != o.op := by
  rw [endTile_eq, updGroup_tileOps, unpost_keeps State.tileOps fun _ _ _ => rfl]

theorem endTile_group? (s : State) (o : TileOp) :
    (s.endTile o).group? o.gid = (s.group? o.gid).map fun g => { g with q3 := g.q3.erase o.op } := by
  rw [endTile_eq, group?_updGroup, unpost_keeps (fun s => s.group? o.gid) fun _ _ _ => rfl]
  · rfl
  · exact fun _ => rfl

theorem endTile_slot_live {s : State} {o : TileOp} {c k : Nat} (live : (s.slot c k).state = .live) :
    ((s.endTile o).slot c k).data = (s.slot c k).data :=
  slot_unpost_live o.op (opReads o ++ o.writes) (s := { s with tileOps := s.tileOps.filter fun p => p.op != o.op }) live

/-- An operation that writes no slot ends. -/
theorem endTile_ended {s u : State} (o : TileOp) (mem : u.mem = s.mem) (groups : u.groups = s.groups) :
    TileEnded s (u.endTile o) o none where
  mem := by rw [endTile_mem, mem]
  over' p hp := by
    rw [endTile_tileOps] at hp
    simpa using (List.mem_filter.mp hp).2
  counter g found := by
    have before : u.group? o.gid = some g := by rw [State.group?, groups]; exact found
    exact ⟨{ g with q3 := g.q3.erase o.op }, by rw [endTile_group?, before]; rfl, rfl⟩
  bytes d given := absurd given.symm (Option.some_ne_none d)

/-- An operation that writes a tile's bytes into its slots, after which the requests `rs` are left, ends. -/
theorem writeSlots_ended (s : State) (o : TileOp) (d : BitVec 16384) (rs : List Req) :
    TileEnded s (({ s.writeSlots o fun _ => d with reqs := rs } : State).endTile o) o (some d) :=
  let u : State := { s.writeSlots o fun _ => d with reqs := rs }
  have ended : TileEnded s (u.endTile o) o none :=
    endTile_ended o (writeSlots_keeps State.mem (fun _ _ _ => rfl) ..) (writeSlots_keeps State.groups (fun _ _ _ => rfl) ..)
  { ended with
    bytes := by
      rintro _ ⟨⟩ a ha live
      have written : u.slot a.1 a.2 = { s.slot a.1 a.2 with data := d } :=
        (slot_foldl_write d o.writes s a.1 a.2).trans (if_pos ha)
      rw [endTile_slot_live, written]
      rw [written]
      exact live }

/-! ### TILE_OP_COMPLETE (R363 to R367) -/

/-- A tile operation whose earlier operations have finished. -/
structure TileReady (s : State) (op : Nat) (o : TileOp) : Prop where
  found : (s.tileOps.find? fun o => o.op == op) = some o
  ready : s.slotsReady op (opReads o) o.writes = true

theorem TileReady.goes {s : State} {op : Nat} {o : TileOp} (h : TileReady s op o) :
    ¬ (!s.slotsReady op (opReads o) o.writes) = true := by
  rw [h.ready]
  decide

theorem tileOpComplete_waits {s : State} {op : Nat} {o : TileOp} (found : (s.tileOps.find? fun o => o.op == op) = some o)
    (busy : s.slotsReady op (opReads o) o.writes = false) : execTileOpComplete op s = .next s := by
  have waits : (!s.slotsReady op (opReads o) o.writes) = true := by rw [busy]; rfl
  simp only [execTileOpComplete, found]
  exact congrArg _ (if_pos waits)

theorem tileOpComplete_load_waits {s : State} {op : Nat} {o : TileOp} (h : TileReady s op o) (load : o.kind = .load)
    (out : s.loadReturned o = false) : execTileOpComplete op s = .next s := by
  simp only [execTileOpComplete, h.found]
  refine congrArg _ ((if_neg h.goes).trans ?_)
  simp only [load, out, Bool.not_false, if_true]

theorem tileOpComplete_load {s : State} {op : Nat} {o : TileOp} (h : TileReady s op o) (load : o.kind = .load)
    (returned : s.loadReturned o = true) : execTileOpComplete op s = .next
      (((match badRow (s.opReqs o.gid op) (rowOf s o) with
        | some e => s.loadFails o (s.opReqs o.gid op) e
        | none => s.writeSlots o fun _ => loadedTile (s.opReqs o.gid op)).dropOp o.gid op).endTile o) := by
  simp only [execTileOpComplete, h.found]
  refine congrArg _ ((if_neg h.goes).trans ?_)
  simp only [load, returned, Bool.not_true, Bool.false_eq_true, if_false]
  rfl

theorem tileOpComplete_store {s : State} {op : Nat} {o : TileOp} {x : OpTile} (h : TileReady s op o) (store : o.kind = .store)
    (src : o.src = some x) : execTileOpComplete op s = .next
      (({ s with reqs := s.reqs.map fun r => if r.gid = o.gid ∧ r.op = op then
            { r with parts := r.parts.map fun p => p.fromTile (s.slot x.core x.slot).data } else r } : State).endTile o) := by
  simp only [execTileOpComplete, h.found]
  refine congrArg _ ((if_neg h.goes).trans ?_)
  simp only [store, src]

theorem tileOpComplete_convert {s : State} {op slice : Nat} {nan : Bool} {o : TileOp} {x y : OpTile} (h : TileReady s op o)
    (convert : o.kind = .convert slice nan) (src : o.src = some x) (dst : o.dst = some y) : execTileOpComplete op s = .next
      ((s.writeSlots o fun _ => s.convertElems x y slice nan (s.slot y.core y.slot).data
        (convertCount (tagFmt x.tag) (tagFmt y.tag))).endTile o) := by
  simp only [execTileOpComplete, h.found]
  refine congrArg _ ((if_neg h.goes).trans ?_)
  simp only [convert, src, dst]

theorem tileOpComplete_spread {s : State} {op : Nat} {o : TileOp} {x : OpTile} (h : TileReady s op o) (spread : o.kind = .spread)
    (src : o.src = some x) :
    execTileOpComplete op s = .next ((s.writeSlots o fun _ => (s.slot x.core x.slot).data).endTile o) := by
  simp only [execTileOpComplete, h.found]
  refine congrArg _ ((if_neg h.goes).trans ?_)
  simp only [spread, src]

/-- No row of a load is refused when none of its answers brings a trap. -/
theorem badRow_none {rs : List Req} (rb : Nat) (clean : ∀ r ∈ rs, ∀ p ∈ r.parts, p.trap = 0#64) :
    badRow rs rb = none := by
  have noneBad : (rs.flatMap fun r => r.parts.filter fun p => p.trap != 0#64) = [] := by
    rw [List.flatMap_eq_nil_iff]
    intro r hr
    rw [List.filter_eq_nil_iff]
    intro p hp
    simp [clean r hr p hp]
  simp only [badRow, noneBad, List.find?_nil]

theorem tileOpComplete_holds (op : Nat) (s : State) : UnitStepHolds (.tileOpComplete op) s := by
  rintro _ ⟨⟩
  obtain ⟨t, step⟩ : ∃ t, execTileOpComplete op s = .next t := ⟨_, rfl⟩
  refine ⟨t, step, fun absent => ?_, fun o found => ⟨fun busy => ?_, fun ready => ?_⟩⟩
  · exact eq_of_next step (by simp only [execTileOpComplete, absent])
  · exact eq_of_next step (tileOpComplete_waits found busy)
  have h : TileReady s op o := ⟨found, ready⟩
  refine ⟨fun load out => ?_, fun load returned clean => ?_, fun e load returned refused => ?_, fun x store src => ?_,
    fun slice nan x y convert src dst => ?_, fun x spread src => ?_⟩
  · exact eq_of_next step (tileOpComplete_load_waits h load out)
  · obtain rfl := eq_of_next step (tileOpComplete_load h load returned)
    simp only [badRow_none _ clean]
    refine ⟨writeSlots_ended s o _ _, ?_⟩
    rw [endTile_reqs]
    exact congrArg (List.filter _) (writeSlots_keeps State.reqs (fun _ _ _ => rfl) s o _)
  · obtain rfl := eq_of_next step (tileOpComplete_load h load returned)
    simp only [refused]
  · obtain rfl := eq_of_next step (tileOpComplete_store h store src)
    exact ⟨endTile_ended o rfl rfl, endTile_reqs ..⟩
  · obtain rfl := eq_of_next step (tileOpComplete_convert h convert src dst)
    exact writeSlots_ended s o _ _
  · obtain rfl := eq_of_next step (tileOpComplete_spread h spread src)
    exact writeSlots_ended s o _ _

/-! ### The reservation table (R372, R373, R441) -/

theorem reservationDispatch_holds (quad : Nat) (s : State) : UnitStepHolds (.reservationDispatch quad) s := by
  rintro _ ⟨⟩
  refine ⟨_, rfl, fun busy => ?_, fun goes free noEntry => ?_, fun e goes free next => ?_⟩
  · have waits : (s.plat.throttled || (s.quad quad).resv.any fun e => e.dispatched) = true := by simpa using busy
    simp only [waits, if_true]
  · have idle : (s.plat.throttled || (s.quad quad).resv.any fun e => e.dispatched) = false := by
      simpa [goes] using free
    rw [nextEntry] at noEntry
    simp only [idle, noEntry, Bool.false_eq_true, if_false]
  · have idle : (s.plat.throttled || (s.quad quad).resv.any fun e => e.dispatched) = false := by
      simpa [goes] using free
    rw [nextEntry] at next
    simp only [idle, next, Bool.false_eq_true, if_false]
    rfl

theorem levelAging_holds (quad entry : Nat) (s : State) : UnitStepHolds (.levelAging quad entry) s := by
  rintro _ ⟨⟩
  refine ⟨_, rfl, ?_⟩
  simp only [State.updQuad, Bool.not_eq_true']

/-! ### PASS_COMPLETE (R370, R378 to R380) -/

theorem accTile_updAcc (s : State) (quad n : Nat) (f : AccTile → AccTile) :
    (s.updAcc quad n f).accTile quad n = f (s.accTile quad n) := by
  simp only [State.accTile, State.updAcc, quad_updQuad, if_true, alookup_aset]

/-- The rows of the entry have the sums of the pass, and the others are kept (R370). -/
theorem passTile_result (s : State) (quad : Nat) (e : ResvEntry) (n : Nat) (b : OpTile) :
    PassResult s (s.passTile quad e n b) quad e n b := by
  intro i j hi hj
  have place : 32 * i + j < 1024 := by omega
  have row : (32 * i + j) / 32 = i := by omega
  have column : (32 * i + j) % 32 = j := by omega
  have quarter : (32 * i + j) / 256 = i / 8 := by omega
  rw [State.passTile, accTile_updAcc, AccTile.elem]
  cases covered : e.rows.find? fun r => r.1 == i / 8 with
  | none =>
    simp only [List.getElem?_map, List.getElem?_range place, Option.map_some, Option.getD_some, row, column, quarter, covered]
  | some r =>
    simp only [List.getElem?_map, List.getElem?_range place, Option.map_some, Option.getD_some, row, column, quarter, covered]

theorem zeroAfter_mem (s : State) (quad : Nat) (e : ResvEntry) :
    (if e.zeroAfter then s.updAcc quad e.acc fun t => { t with elems := [] } else s).mem = s.mem := by
  split <;> rfl

theorem performEntry_mem (s : State) (quad : Nat) (e : ResvEntry) (code : List (Word × List Word)) :
    (s.performEntry quad e code).mem = s.mem := by
  cases kind : e.kind with
  | pass =>
    simp only [State.performEntry, kind]
    cases e.b <;> rfl
  | blanket =>
    simp only [State.performEntry, kind]
    exact foldl_keeps State.mem fun _ _ => rfl
  | zero => simp only [State.performEntry, kind]; rfl
  | drainTile =>
    simp only [State.performEntry, kind]
    exact (zeroAfter_mem ..).trans (foldl_keeps State.mem fun _ _ => rfl)
  | drainMem => simp only [State.performEntry, kind]; exact zeroAfter_mem ..
  | drainColl => simp only [State.performEntry, kind]; exact zeroAfter_mem ..

/-- An entry that leaves its table changes slots and groups beside it. -/
theorem retireEntry_keeps (p : State → γ) (hSlot : ∀ s a f, p (State.updSlot s a f) = p s)
    (hGroup : ∀ s gid f, p (State.updGroup s gid f) = p s) (s : State) (quad : Nat) (e : ResvEntry) :
    p (s.retireEntry quad e) = p (s.updQuad quad fun q => { q with resv := q.resv.filter fun x => x.id != e.id }) := by
  unfold State.retireEntry
  dsimp only
  rw [foldl_keeps p, foldl_keeps p]
  · exact fun s id => unpost_keeps p hSlot s id _
  · intro s c
    split
    · rfl
    · exact hGroup ..

theorem retireEntry_quad (s : State) (quad : Nat) (e : ResvEntry) : (s.retireEntry quad e).quad quad =
    { s.quad quad with resv := (s.quad quad).resv.filter fun x => x.id != e.id } := by
  rw [retireEntry_keeps (fun s => s.quad quad) (fun _ _ _ => rfl) (fun _ _ _ => rfl), quad_updQuad, if_pos rfl]

theorem retireEntry_accTile (s : State) (quad n : Nat) (e : ResvEntry) :
    (s.retireEntry quad e).accTile quad n = s.accTile quad n := by
  rw [State.accTile, retireEntry_quad, State.accTile]

theorem performEntry_done (s : State) (quad : Nat) (e : ResvEntry) (code : List (Word × List Word)) :
    EntryDone s ((s.performEntry quad e code).retireEntry quad e) quad e code where
  becomes := rfl
  mem := by
    rw [retireEntry_keeps State.mem (fun _ _ _ => rfl) (fun _ _ _ => rfl)]
    exact performEntry_mem s quad e code
  gone x hx := by
    rw [retireEntry_quad] at hx
    simpa using (List.mem_filter.mp hx).2
  pass b bs kind operands := by
    intro i j hi hj
    have performed : s.performEntry quad e code = s.passTile quad e e.acc b := by
      simp only [State.performEntry, kind, operands]
    rw [retireEntry_accTile, performed]
    exact passTile_result s quad e e.acc b i j hi hj
  zero kind i j := by
    have performed : s.performEntry quad e code = s.updAcc quad e.acc fun t => { t with elems := [] } := by
      simp only [State.performEntry, kind]
    rw [retireEntry_accTile, performed, accTile_updAcc]
    rfl

theorem passComplete_holds (quad entry : Nat) (s : State) : UnitStepHolds (.passComplete quad entry) s := by
  rintro _ ⟨⟩
  obtain ⟨t, step⟩ : ∃ t, execPassComplete quad entry s = .next t := ⟨_, rfl⟩
  refine ⟨t, step, fun absent => ?_, fun e found => ⟨fun idle => ?_, fun s₁ code read dispatched => ?_⟩⟩
  · exact eq_of_next step (by simp only [execPassComplete, absent])
  · refine eq_of_next step ?_
    rcases read : s.entryCode quad e with ⟨s₁, code⟩
    rw [read] at idle
    cases code with
    | none => simp only [execPassComplete, found, read]
    | some code =>
      have waits : e.dispatched = false := idle.resolve_left (Option.some_ne_none code)
      simp only [execPassComplete, found, read, waits, Bool.false_eq_true, if_false]
  · have done : execPassComplete quad entry s = .next ((s₁.performEntry quad e code).retireEntry quad e) := by
      simp only [execPassComplete, found, read, dispatched, if_true]
    obtain rfl := eq_of_next step done
    exact performEntry_done s₁ quad e code

/-! ### RING_WAIT_RESUME (R360, R361) -/

theorem ringWaitResume_holds (gid : Nat) (s : State) : UnitStepHolds (.ringWaitResume gid) s := by
  rintro _ ⟨⟩
  refine ⟨_, rfl, rfl, updGroup_othersKept .., fun g found =>
    ⟨{ g with lanes := g.lanes.map fun l => if l.status = .waiting .ring then l.goOn else l }, ?_, rfl,
      List.length_map _, fun i l hl => ?_⟩⟩
  · rw [State.release, group?_updGroup, found]
    · rfl
    · exact fun _ => rfl
  · exact ⟨_, by rw [List.getElem?_map, hl]; rfl, rfl⟩

end Sys2Proof.Laws
end

section
/-! PROOFS. Streams of the matrix engine (R375 to R377): the steps of a stream's commands, and its end. -/

namespace Sys2Proof.Laws

open Sys2Proof.Machine Sys2Proof.Claims

/-! ### STREAM_COMMAND (R375) -/

theorem streamReady_goesOn {s : State} {quad : Nat} {st : Stream} {g : Group} {tm : Team} (h : StreamReady s quad st g tm) :
    (st.stopped.isSome || decide (st.count ≤ st.iter) || g.frozen) = false := by
  obtain ⟨running, left, free⟩ := h.goes
  simp [running, left, free]

theorem updQuad_streamIs {s : State} {quad : Nat} {st : Stream} (stream : (s.quad quad).stream = some st)
    (f : Stream → Stream) :
    StreamIs s (s.updQuad quad fun q => { q with stream := q.stream.map f }) quad (f st) := by
  simp only [StreamIs, State.updQuad, stream, Option.map_some]

theorem stopNoHandle_stream {s : State} {quad : Nat} {st : Stream} (stream : (s.quad quad).stream = some st) (status ring : Nat) :
    ∃ h, ((s.stopNoHandle quad status ring).quad quad).stream = some { st with stopped := some (status, ring, h) } := by
  refine ⟨(Config.unstated s.fresh).toNat % 65536, ?_⟩
  simp only [State.stopNoHandle, State.unstated, State.stopStream, quad_updQuad, if_true]
  exact congrArg _ stream

section
variable {s : State} {quad : Nat} {st : Stream} {g : Group} {tm : Team} {w : Word} (h : StreamReady s quad st g tm)
  (cmd : st.body[st.cmd]? = some w)
include h cmd

/-- A command that names a ring next takes a value of it. -/
theorem streamCommand_takes {r : Nat} (pass : fldN w 24 8 ≠ 0x1A) (operand : [fldN w 14 5, fldN w 9 5][st.took]? = some r)
    (ring : r / 4 % 2 = 1) : execStreamCommand quad s = .next (s.streamTake quad st tm (r % 4)) := by
  simp only [execStreamCommand, h.stream, h.group, h.team, streamReady_goesOn h, cmd, if_neg pass, operand, if_pos ring,
    Bool.false_eq_true, if_false]

/-- A command that names no ring next counts the operand as taken. -/
theorem streamCommand_plain {r : Nat} (pass : fldN w 24 8 ≠ 0x1A) (operand : [fldN w 14 5, fldN w 9 5][st.took]? = some r)
    (plain : r / 4 % 2 = 0) : execStreamCommand quad s =
      .next (s.updQuad quad fun q => { q with stream := q.stream.map fun st => { st with took := st.took + 1 } }) := by
  have noRing : ¬ r / 4 % 2 = 1 := by omega
  simp only [execStreamCommand, h.stream, h.group, h.team, streamReady_goesOn h, cmd, if_neg pass, operand, if_neg noRing,
    Bool.false_eq_true, if_false]

/-- A command whose operands have been taken is posted. -/
theorem streamCommand_posts (pass : fldN w 24 8 ≠ 0x1A) (taken : 2 ≤ st.took) :
    execStreamCommand quad s = .next (s.streamPost quad st g tm w) := by
  have noOperand : [fldN w 14 5, fldN w 9 5][st.took]? = none := List.getElem?_eq_none taken
  simp only [execStreamCommand, h.stream, h.group, h.team, streamReady_goesOn h, cmd, if_neg pass, noOperand,
    Bool.false_eq_true, if_false]

/-- A command that zeroes an accumulator tile has no operand, and is posted. -/
theorem streamCommand_zero (zero : fldN w 24 8 = 0x1A) : execStreamCommand quad s = .next (s.streamPost quad st g tm w) := by
  simp only [execStreamCommand, h.stream, h.group, h.team, streamReady_goesOn h, cmd, if_pos zero, List.getElem?_nil,
    Bool.false_eq_true, if_false]
end

theorem streamTake_badRing {s : State} {tm : Team} {st : Stream} {x : Nat} (quad : Nat)
    (bad : s.streamRing tm ((st.rings[x]?).getD 0) = none) : s.streamTake quad st tm x = s.stopNoHandle quad 6 x := by
  simp only [State.streamTake, bad]
  rfl

theorem streamTake_empty {s : State} {tm : Team} {st : Stream} {x core line : Nat} (quad : Nat)
    (ring : s.streamRing tm ((st.rings[x]?).getD 0) = some (core, line)) (empty : ringCount (s.sline core line).data = 0) :
    s.streamTake quad st tm x = s := by
  simp only [State.streamTake, ring, empty, if_true]

theorem streamPost_range {s : State} {tm : Team} {w : Word} (quad : Nat) (st : Stream) (g : Group) (zero : fldN w 24 8 = 0x1A)
    (outside : tm.accCount ≤ fldN w 1 8) : s.streamPost quad st g tm w = s.stopNoHandle quad 3 0 := by
  simp only [State.streamPost, if_pos zero, if_pos outside]
  rfl

theorem streamPost_zero {s u : State} {tm : Team} {w : Word} {st : Stream} {g : Group} (quad : Nat) (zero : fldN w 24 8 = 0x1A)
    (inside : fldN w 1 8 < tm.accCount) (posted : s.postZero g tm st.op (fldN w 1 8) (w.getLsbD 0) = some u) :
    s.streamPost quad st g tm w = u.updQuad quad fun q => { q with stream := q.stream.map Stream.advance } := by
  simp only [State.streamPost, if_pos zero, if_neg (Nat.not_le.mpr inside), posted]

theorem streamCommand_step {s t : State} {quad : Nat} {st : Stream} {g : Group} {tm : Team} (h : StreamReady s quad st g tm)
    (step : execStreamCommand quad s = .next t) : StreamStep s t quad st g tm where
  past passed := by
    have next : execStreamCommand quad s = .next (s.updQuad quad fun q => { q with stream := q.stream.map Stream.advance }) := by
      simp only [execStreamCommand, h.stream, h.group, h.team, streamReady_goesOn h, passed, Bool.false_eq_true, if_false]
    rw [eq_of_next step next]
    exact updQuad_streamIs h.stream _
  plain w r cmd pass operand plain := by
    rw [eq_of_next step (streamCommand_plain h cmd pass operand plain)]
    exact updQuad_streamIs h.stream _
  badRing w r cmd pass operand ring bad := by
    rw [eq_of_next step (streamCommand_takes h cmd pass operand ring), streamTake_badRing quad bad]
    exact stopNoHandle_stream h.stream ..
  empty w r core line cmd pass operand ring found empty := by
    rw [eq_of_next step (streamCommand_takes h cmd pass operand ring), streamTake_empty quad found empty]
  takes w r core line cmd pass operand ring found full := eq_of_next step (streamCommand_takes h cmd pass operand ring)
  zero w u cmd zero inside posted := by
    rw [eq_of_next step (streamCommand_zero h cmd zero), streamPost_zero quad zero inside posted, quad_updQuad, if_pos rfl]
  range w cmd zero outside := by
    rw [eq_of_next step (streamCommand_zero h cmd zero), streamPost_range quad st g zero outside]
    exact stopNoHandle_stream h.stream ..
  posts w cmd pass taken := eq_of_next step (streamCommand_posts h cmd pass taken)

theorem streamCommand_holds (quad : Nat) (s : State) : UnitStepHolds (.streamCommand quad) s := by
  rintro _ ⟨⟩
  obtain ⟨t, step⟩ : ∃ t, execStreamCommand quad s = .next t := ⟨_, rfl⟩
  refine ⟨t, step, fun absent => ?_, fun st g stream group stands => ?_, fun st g tm ready => streamCommand_step ready step⟩
  · exact eq_of_next step (by simp only [execStreamCommand, absent])
  · have waits : (st.stopped.isSome || decide (st.count ≤ st.iter) || g.frozen) = true := by simpa [or_assoc] using stands
    refine eq_of_next step ?_
    cases team : s.team? g.launch g.team with
    | none => simp only [execStreamCommand, stream, group, team]
    | some tm => simp only [execStreamCommand, stream, group, team, waits, if_true]

/-! ### STREAM_END (R377) -/

/-- The end of an engine operation changes its quad's ranges, cores and its group beside the list of operations. -/
theorem endEngine_keeps (p : State → γ) (hCore : ∀ s k f, p (State.updCore s k f) = p s)
    (hGroup : ∀ s gid f, p (State.updGroup s gid f) = p s) (s : State) (o : EngOp) : p (s.endEngine o) =
      p { s.updQuad o.quad fun q => q.unregister o.opid with engOps := s.engOps.filter fun x => x.id != o.id } := by
  unfold State.endEngine
  dsimp only
  rw [hGroup, acquireEffect_keeps p hCore]
  rfl

theorem endEngine_stream (s : State) (o : EngOp) (k : Nat) : ((s.endEngine o).quad k).stream = (s.quad k).stream := by
  rw [endEngine_keeps (fun s => (s.quad k).stream) (fun _ _ _ => rfl) fun _ _ _ => rfl]
  change ((s.updQuad o.quad fun q => q.unregister o.opid).quad k).stream = _
  rw [quad_updQuad]
  split
  · rename_i same
    rw [same]
    rfl
  · rfl

theorem releaseHandle_mem (s : State) (t : Team) (h : BitVec 16) : (s.releaseHandle t h).mem = s.mem :=
  foldl_keeps State.mem fun _ _ => rfl

/-- The status word that a stream writes at its end (R377). -/
def endWord (st : Stream) : DWord :=
  match st.stopped with
  | some (status, ring, hval) => streamWord st.iter st.cmd ring hval status
  | none => streamWord st.count 0 0 0 0

/-- The handles that a stream holds of its rings are released (R375). -/
def releaseCurrent (s : State) (st : Stream) : State :=
  match s.group? st.gid with
  | none => s
  | some g => st.cur.foldl (fun s h => match h, s.team? g.launch g.team with
    | some h, some t => if t.held h then s.releaseHandle t h else s
    | _, _ => s) s

theorem releaseCurrent_mem (s : State) (st : Stream) : (releaseCurrent s st).mem = s.mem := by
  unfold releaseCurrent
  split
  · rfl
  · refine foldl_keeps State.mem fun u h => ?_
    split
    · split
      · exact releaseHandle_mem ..
      · rfl
    · rfl

/-- A stream whose status word has been written completes. -/
theorem streamEnd_written {s s₁ : State} {quad : Nat} {st : Stream} {o : EngOp} {d : LineData} {rest : List LineAnswer}
    (stream : (s.quad quad).stream = some st) (eng : s.engOp? st.op = some o) (ended : Quad.streamOver (s.quad quad) st = true)
    (thawed : s.gidFrozen st.gid = false) (released : s.released o.core o.after = true)
    (written : s.engWrite o st.statusVA (byteMask (st.statusVA.toNat % 128) 8)
      (((endWord st).setWidth 1024 : LineData) <<< (8 * (st.statusVA.toNat % 128))) [(0, 0)] = (s₁, .data d, rest)) :
    execStreamEnd quad s = .next (((releaseCurrent s₁ st).updQuad quad fun q => { q with stream := none }).endEngine
      (o.fail (if st.stopped.isSome then engStream else 0) (if st.stopped.isSome then st.iter else st.count))) := by
  cases stop : st.stopped <;> simp only [endWord, stop] at written <;>
    simp only [execStreamEnd, stream, eng, ended, thawed, released, stop, stDone, written, Bool.not_true, Bool.or_self,
      Bool.false_eq_true, if_false] <;> rfl

theorem streamEnd_holds (quad : Nat) (s : State) : UnitStepHolds (.streamEnd quad) s := by
  rintro _ ⟨⟩
  obtain ⟨t, step⟩ : ∃ t, execStreamEnd quad s = .next t := ⟨_, rfl⟩
  refine ⟨t, step, fun absent => ?_, fun st o stream eng =>
    ⟨fun runs => ?_, fun s₁ d rest ended thawed released written => ?_⟩⟩
  · exact eq_of_next step (by simp only [execStreamEnd, absent])
  · have waits : (!(s.quad quad).streamOver st || s.gidFrozen st.gid || !s.released o.core o.after) = true := by
      simpa [or_assoc] using runs
    exact eq_of_next step (by simp only [execStreamEnd, stream, eng, waits, if_true])
  · rw [eq_of_next step (streamEnd_written stream eng ended thawed released written)]
    refine ⟨?_, ?_, fun p hp => ?_⟩
    · rw [endEngine_keeps State.mem (fun _ _ _ => rfl) fun _ _ _ => rfl]
      exact releaseCurrent_mem s₁ st
    · rw [endEngine_stream, quad_updQuad, if_pos rfl]
    · rw [endEngine_keeps State.engOps (fun _ _ _ => rfl) fun _ _ _ => rfl] at hp
      simpa [EngOp.fail] using (List.mem_filter.mp hp).2

end Sys2Proof.Laws
end

section
/-! PROOFS. The Hamper (R392 to R409): requests that perform at their slices, and their answers. -/

namespace Sys2Proof.Laws

open Sys2Proof.Machine Sys2Proof.Claims

/-! ### Answers of the Hamper -/

theorem answer_hasAnswer {s : State} {r : Req} (listed : r ∈ s.reqs) (v : Nat) : HasAnswer (s.answer r v) r v := by
  refine ⟨_, List.mem_map_of_mem listed, ?_, ?_, ?_⟩ <;> rw [if_pos (Or.inl rfl)]

theorem answer_quad (s : State) (r : Req) (v k : Nat) : (s.answer r v).quad k = s.quad k := rfl
theorem addLive_quad (s : State) (k n : Nat) (x : Word) : (s.addLive k x).quad n = s.quad n := rfl

/-! ### Puts (R392, R393, R401) -/

theorem putAtHome_put {s : State} {r : Req} (listed : r ∈ s.reqs) (ans : List LineAnswer) :
    PutAtHome s (s.putAtHome r ans) r ans where
  denied lost := by simp only [State.putAtHome, lost, Bool.not_false, if_true]; rfl
  bad held union empty := by
    have refused : (s.putRec r).op = opUnion ∧ rangeHi (s.putRec r).payload ≤ rangeLo (s.putRec r).payload :=
      ⟨union, empty⟩
    simp only [State.putAtHome, held, if_pos refused, Bool.not_true, Bool.false_eq_true, if_false]
    rfl
  fold w held good found := by
    have folds : s.putAtHome r ans = (s.updQuad r.slice fun q =>
        { q with hrecs := q.hrecs.map fun v => if v.stamp = w.stamp then w.fold (s.putRec r) else v }).answer r 1 := by
      simp only [State.putAtHome, held, opUnion, if_neg good, found, Bool.not_true, Bool.false_eq_true, if_false]
    rw [folds]
    exact ⟨answer_hasAnswer (s := s.updQuad r.slice _) listed 1, rfl, by rw [answer_quad, quad_updQuad, if_pos rfl]⟩
  new held good found room := by
    have forms : s.putAtHome r ans =
        ((({ s with hamper := { s.hamper with nextStamp := s.hamper.nextStamp + 1 } } : State).updQuad r.slice fun q =>
          { q with hrecs := q.hrecs ++ [{ s.putRec r with stamp := s.hamper.nextStamp }] }).addLive (s.putRec r).ks 1).answer
          r 0 := by
      simp only [State.putAtHome, held, opUnion, if_neg good, found, if_pos room, Bool.not_true,
        Bool.false_eq_true, if_false]
    rw [forms]
    exact ⟨answer_hasAnswer (by exact listed) 0, rfl, by rw [answer_quad, addLive_quad, quad_updQuad, if_pos rfl]; rfl, rfl⟩
  spills held good found full := by
    have spills : s.putAtHome r ans = s.spill r (s.putRec r) ans := by
      simp only [State.putAtHome, held, opUnion, if_neg good, found, if_neg (Nat.not_lt.mpr full), Bool.not_true,
        Bool.false_eq_true, if_false]
    refine ⟨fun noRing => ?_, fun _ => spills⟩
    rw [spills]
    simp only [State.spill, noRing, if_true]

/-! ### Key spaces (R408) -/

theorem acquireEffects_keep (p : State → γ) (h : ∀ s k f, p (State.updCore s k f) = p s) (s : State) (rs : List Req) :
    p (rs.foldl (fun s q => s.acquireEffect q.gid q.lanes q.scope fun _ => false) s) = p s :=
  foldl_keeps p fun s q => acquireEffect_keeps p h s q.gid q.lanes q.scope _

section
variable {s : State} {r : Req} {g : Group} (group : s.group? r.gid = some g) (ans : List LineAnswer)
include group

theorem keySpaceAtHome_done (listed : r ∈ s.reqs) : KeySpaceAtHome s (s.kscfgAtHome r ans) r g ans where
  openBusy fn busy := by
    have isOpen : (r.word 0).toNat = 0 := congrArg BitVec.toNat fn
    simp only [State.kscfgAtHome, group, isOpen, busy, if_true]
    rfl
  openBad fn free bad := by
    have isOpen : (r.word 0).toNat = 0 := congrArg BitVec.toNat fn
    have refused : fldN (r.word 2) 0 7 ≠ 0 ∨ 2 ^ 24 < (r.word 3).toNat := bad
    simp only [State.kscfgAtHome, group, isOpen, free, if_pos refused, Bool.false_eq_true, if_false, if_true]
    rfl
  openFast fn free aligned noRing := by
    have good : ¬ (fldN (r.word 2) 0 7 ≠ 0 ∨ 2 ^ 24 < (r.word 3).toNat) := by simp [aligned, noRing]
    have isOpen : (r.word 0).toNat = 0 := congrArg BitVec.toNat fn
    simp only [State.kscfgAtHome, group, isOpen, free, if_neg good, Bool.false_eq_true, if_false, if_true]
    refine (if_pos noRing).trans ?_
    rw [noRing]
    rfl
  openRing s₁ x rest fn free aligned small ring written := by
    have good : ¬ (fldN (r.word 2) 0 7 ≠ 0 ∨ 2 ^ 24 < (r.word 3).toNat) := by omega
    have isOpen : (r.word 0).toNat = 0 := congrArg BitVec.toNat fn
    simp only [State.kscfgAtHome, group, isOpen, free, if_neg good, Bool.false_eq_true, if_false, if_true]
    refine (if_neg ring).trans ?_
    simp only [written]
  denied fn lost := by
    have notOpen : ¬ (r.word 0).toNat = 0 := fun h => fn (BitVec.eq_of_toNat_eq h)
    simp only [State.kscfgAtHome, group, if_neg notOpen, lost, Bool.not_false, if_true]
    rfl
  query fn held := by
    have queries : s.kscfgAtHome r ans = ((s.reqs.filter fun q => q.id == r.id || q.follows r.id).foldl (fun s q =>
        s.acquireEffect q.gid q.lanes q.scope fun _ => false) s).answer r (ksLive (s.ks (r.word 1).toNat)).toNat := by
      have isQuery : (r.word 0).toNat = 1 := congrArg BitVec.toNat fn
      simp only [State.kscfgAtHome, group, isQuery, held, one_ne_zero, Bool.not_true, Bool.false_eq_true, if_false, if_true]
    rw [queries]
    refine ⟨answer_hasAnswer ?_ _, acquireEffects_keep State.hamper (fun _ _ _ => rfl) s _⟩
    rw [acquireEffects_keep State.reqs fun _ _ _ => rfl]
    exact listed
  close notOpen notQuery held := by
    have notOpen : ¬ (r.word 0).toNat = 0 := fun h => notOpen (BitVec.eq_of_toNat_eq h)
    have notQuery : ¬ (r.word 0).toNat = 1 := fun h => notQuery (BitVec.eq_of_toNat_eq h)
    simp only [State.kscfgAtHome, group, if_neg notOpen, if_neg notQuery, held, Bool.not_true, Bool.false_eq_true, if_false]
    rfl
end

/-! ### HAMPER_AT_HOME -/

/-- A request that performs now at its slice. -/
structure AtItsHome (s : State) (req : Nat) (r : Req) : Prop where
  found : s.req? req = some r
  pending : (r.done || !s.orderedReady r) = false

section
variable {s : State} {req : Nat} {r : Req} (h : AtItsHome s req r) (ans : List LineAnswer)
include h

theorem hamperAtHome_put (put : r.kind = .hamper 0 ∨ r.kind = .hamper 1) :
    execHamperAtHome req ans s = .next (s.putAtHome r ans) := by
  rcases put with put | put <;>
    simp only [execHamperAtHome, h.found, h.pending, put, Bool.false_eq_true, if_false]

theorem hamperAtHome_get (get : r.kind = .hamper 2) : execHamperAtHome req ans s = .next (s.getAtHome r ans) := by
  simp only [execHamperAtHome, h.found, h.pending, get, Bool.false_eq_true, if_false]

theorem hamperAtHome_keySpace (fn : r.kind = .hamper 3) : execHamperAtHome req ans s = .next (s.kscfgAtHome r ans) := by
  simp only [execHamperAtHome, h.found, h.pending, fn, Bool.false_eq_true, if_false]

theorem hamperAtHome_gdrain (drain : r.kind = .hamper 4) : execHamperAtHome req ans s = .next (s.gdrainAtHome r ans) := by
  simp only [execHamperAtHome, h.found, h.pending, drain, Bool.false_eq_true, if_false]

theorem hamperAtHome_greload (reload : r.kind = .hamper 5) : execHamperAtHome req ans s = .next (s.greloadAtHome r ans) := by
  simp only [execHamperAtHome, h.found, h.pending, reload, Bool.false_eq_true, if_false]

theorem hamperAtHome_follows {f : Nat} (follows : r.kind = .hamper (followKind f))
    (waits : (s.req? (r.word 0).toNat).isSome = true) :
    execHamperAtHome req ans s = .next s := by
  have kind : r.kind = .hamper (f + 8) := by rw [follows, followKind, Nat.add_comm]
  simp only [execHamperAtHome, h.found, h.pending, kind, waits, Bool.false_eq_true, if_false, if_true]
end

theorem hamperAtHome_holds (req : Nat) (ans : List LineAnswer) (s : State) : UnitStepHolds (.hamperAtHome req ans) s := by
  rintro _ ⟨⟩
  obtain ⟨t, step⟩ : ∃ t, execHamperAtHome req ans s = .next t := ⟨_, rfl⟩
  refine ⟨t, step, fun absent => ?_, fun r found => ⟨fun waits => ?_, fun pending ordered => ?_⟩⟩
  · exact eq_of_next step (by simp only [execHamperAtHome, absent])
  · have waits : (r.done || !s.orderedReady r) = true := by simpa using waits
    exact eq_of_next step (by simp only [execHamperAtHome, found, waits, if_true])
  have h : AtItsHome s req r := ⟨found, by simp [pending, ordered]⟩
  have listed : r ∈ s.reqs := List.mem_of_find?_eq_some found
  refine ⟨fun put => ?_, fun get => ?_, fun g fn group => ?_, fun f follows waits => ?_, fun drain => ?_, fun reload => ?_⟩
  · rw [eq_of_next step (hamperAtHome_put h ans put)]
    exact putAtHome_put listed ans
  · exact eq_of_next step (hamperAtHome_get h ans get)
  · rw [eq_of_next step (hamperAtHome_keySpace h ans fn)]
    exact keySpaceAtHome_done group ans listed
  · exact eq_of_next step (hamperAtHome_follows h ans follows waits)
  · exact eq_of_next step (hamperAtHome_gdrain h ans drain)
  · exact eq_of_next step (hamperAtHome_greload h ans reload)

/-! ### HAMPER_RESULT_RETURN (R182, R403) -/

/-- What an answer that brings no trap leaves of a lane. -/
def answered (r : Req) (p : Part) (l : Lane) : Lane :=
  match p.dst with
  | some d => ({ l with acq := l.acq.filter fun k => k != r.id } : Lane).putBlock r.op d (r.answerWords p)
  | none => { l with acq := l.acq.filter fun k => k != r.id }

/-- An answer without a trap traps no lane. -/
theorem lateTraps_clean (s : State) {r : Req} {p : Part} (parts : r.parts = [p]) (clean : p.trap = 0#64) :
    s.lateTraps r.gid [r] = s := by
  have noTrap : ∀ lane, trapOf [r] lane = 0#64 := by
    intro lane
    have noPart : trapPart [r] lane = none := by simp [trapPart, parts, clean]
    simp only [trapOf, noPart]
    rfl
  unfold State.lateTraps
  split
  next g _ =>
    have noLane : g.answerTraps [r] = [] := by
      rw [Group.answerTraps, List.filterMap_eq_nil_iff]
      intro e _
      simp [noTrap]
    rw [noLane]
    rfl
  next => rfl

/-- A change of a group beside its number, its registers and its lanes. -/
structure BesideLanes (f : Group → Group) : Prop where
  gid : ∀ g, (f g).gid = g.gid
  scalars : ∀ g, (f g).s = g.s
  handles : ∀ g, (f g).h = g.h
  lanes : ∀ g, (f g).lanes = g.lanes

/-- A put that has been folded counts for the event counters (R422). -/
def countFolded (r : Req) (parts : List Part) (g : Group) : Group :=
  if (r.kind == .hamper 0 || r.kind == .hamper 1) && parts.any fun p => p.trap == 0#64 && p.value == 1#128 then
    g.count 0x07 1
  else g

/-- c3 counts down with the last answer of an instruction (R182). -/
def countDown (last : Prop) [Decidable last] (op : Nat) (g : Group) : Group :=
  if last then { g with q3 := dropOne op g.q3 } else g

theorem countFolded_besideLanes (r : Req) (parts : List Part) : BesideLanes (countFolded r parts) := by
  constructor <;> intro g <;> unfold countFolded <;> split <;> rfl

theorem countDown_besideLanes (last : Prop) [Decidable last] (op : Nat) : BesideLanes (countDown last op) := by
  constructor <;> intro g <;> unfold countDown <;> split <;> rfl

/-- The state in which the answer has entered its lane and its request has left. -/
def returned (s : State) (r : Req) (p : Part) : State :=
  ((s.giveLanes r.gid (1#64 <<< p.lane) fun _ l => answered r p l).updGroup r.gid (countFolded r [p])).dropReq r.id

theorem hamperResultReturn_clean {s : State} {req : Nat} {r : Req} {p : Part} (found : s.req? req = some r)
    (kind : r.kind.isHamper = true) (done : r.done = true) (parts : r.parts = [p]) (clean : p.trap = 0#64) :
    execHamperResultReturn req s = .next
      ((returned s r p).updGroup r.gid (countDown ((returned s r p).opReqs r.gid r.op = []) r.op)) := by
  simp only [execHamperResultReturn, found, kind, done, parts, List.foldl_cons, List.foldl_nil, Bool.not_true, Bool.or_self,
    Bool.false_eq_true, if_false, ite_updGroup, lateTraps_clean _ parts clean, clean, if_true]
  rfl

theorem hamperResultReturn_holds (req : Nat) (s : State) : UnitStepHolds (.hamperResultReturn req) s := by
  rintro _ ⟨⟩
  obtain ⟨t, step⟩ : ∃ t, execHamperResultReturn req s = .next t := ⟨_, rfl⟩
  refine ⟨t, step, fun absent => ?_, fun r found =>
    ⟨fun waits => ?_, fun g p kind done group noFrames parts clean inRange => ?_⟩⟩
  · exact eq_of_next step (by simp only [execHamperResultReturn, absent])
  · have waits : (!r.kind.isHamper || !r.done) = true := by simpa using waits
    exact eq_of_next step (by simp only [execHamperResultReturn, found, waits, if_true])
  rw [eq_of_next step (hamperResultReturn_clean found kind done parts clean)]
  have hf := countFolded_besideLanes r [p]
  have hf' := countDown_besideLanes ((returned s r p).opReqs r.gid r.op = []) r.op
  have back : (returned s r p).group? r.gid =
      some (countFolded r [p] (g.mapHeld (1#64 <<< p.lane) fun _ l => answered r p l)) := by
    have given : (s.giveLanes r.gid (1#64 <<< p.lane) fun _ l => answered r p l).group? r.gid =
        (s.updGroup r.gid fun g => g.mapHeld (1#64 <<< p.lane) fun _ l => answered r p l).group? r.gid := rfl
    have dropped : (returned s r p).group? r.gid = ((s.giveLanes r.gid (1#64 <<< p.lane) fun _ l => answered r p l).updGroup
        r.gid (countFolded r [p])).group? r.gid := rfl
    rw [dropped, group?_updGroup _ _ _ hf.gid, given, group?_updGroup, group]
    · rfl
    · exact fun _ => rfl
  refine ⟨rfl, ?_, ?_, _, (group?_updGroup _ _ _ hf'.gid).trans (congrArg _ back), ?_, ?_, ?_⟩
  · rw [State.req?, List.find?_eq_none]
    intro q hq
    have gone : q.id ≠ r.id := by simpa using (List.mem_filter.mp hq).2
    simpa [beq_iff_eq.mp (List.find?_some (p := fun r : Req => r.id == req) found)] using gone
  · exact othersKept_trans (updGroup_othersKept s r.gid _) (othersKept_trans
      (updGroup_othersKept (s.giveLanes r.gid (1#64 <<< p.lane) fun _ l => answered r p l) r.gid _)
      (updGroup_othersKept (returned s r p) r.gid _))
  · rw [hf'.scalars, hf.scalars]; rfl
  · rw [hf'.handles, hf.handles]; rfl
  · rw [LanesTo, hf'.lanes, hf.lanes]
    refine ⟨List.length_mapIdx, fun i l hl => ⟨if (1#64 <<< p.lane).getLsbD i then answered r p l else l, ?_, ?_⟩⟩
    · simp [Group.mapHeld, Group.mapLanes, hl]
    · have itsLane : (1#64 <<< p.lane).getLsbD i = decide (i = p.lane) := by
        rw [BitVec.getLsbD_shiftLeft, BitVec.getLsbD_one, Bool.eq_iff_iff]
        simp
        omega
      by_cases here : i = p.lane
      · rw [if_pos here, itsLane, if_pos (decide_eq_true here)]
        rfl
      · rw [if_neg here, itsLane, decide_eq_false here]
        rfl

/-! ### The statement -/

/-- Settles O57: each event of the tile store, of the matrix engines, of streams and of the Hamper has its lemma above;
`unitEffect` says nothing of any other. -/
theorem tileAndHamperStepsHold : Obligations.TileAndHamperStepsHold := by
  unfold Obligations.TileAndHamperStepsHold
  intro i s e h
  unfold unitEffect at h
  split at h
  next op => exact tileOpComplete_holds op s e h
  next quad => exact reservationDispatch_holds quad s e h
  next quad entry => exact levelAging_holds quad entry s e h
  next quad entry => exact passComplete_holds quad entry s e h
  next gid => exact ringWaitResume_holds gid s e h
  next quad => exact streamCommand_holds quad s e h
  next quad => exact streamEnd_holds quad s e h
  next req ans => exact hamperAtHome_holds req ans s e h
  next req => exact hamperResultReturn_holds req s e h
  next => exact absurd h (Option.some_ne_none e).symm

end Sys2Proof.Laws
end

section
/-! PROOFS. Traps (R419, R443 to R448): the delivery of a parked sub-group, and the answers of the host and of the debugger. -/

namespace Sys2Proof.Laws

open Sys2Proof.Machine Sys2Proof.Claims

/-- The step of an event of traps completes, with what the claims say of it. -/
def TrapStepHolds (i : Instr) (s : State) : Prop :=
  ∀ e : State → Prop, trapEffect s i = some e → ∃ t, exec i s = .next t ∧ e t

/-! ### Parked sub-groups (R443, R445) -/

theorem lanesTo_mono {g g' : Group} {f f' : Nat → Lane → Lane → Prop} (h : LanesTo g g' f)
    (weaker : ∀ i l l', f i l l' → f' i l l') : LanesTo g g' f' := by
  obtain ⟨count, lanes⟩ := h
  refine ⟨count, fun i l hl => ?_⟩
  obtain ⟨l', hl', becomes⟩ := lanes i l hl
  exact ⟨l', hl', weaker i l l' becomes⟩

theorem unpark_goesOn {g : Group} {k : Nat} {x : SubGroup} (parked : g.parkedSubs[k]? = some x) :
    GoesOn g (g.unpark k) k x := by
  unfold Group.unpark
  simp only [parked]
  exact ⟨rfl, lanesTo_mono (mapLanes_lanes g x.lanes _) fun _ _ _ becomes => becomes.trans (ite_and ..).symm⟩

theorem unpark_gid (g : Group) (k : Nat) : (g.unpark k).gid = g.gid := by
  unfold Group.unpark
  split <;> rfl

theorem enterHandler_entered {g : Group} {k : Nat} {x : SubGroup} (image : Vector DWord 64) (since : Nat)
    (parked : g.parkedSubs[k]? = some x) : HandlerEntered g (g.enterHandler k image since) k x image := by
  unfold Group.enterHandler
  simp only [parked]
  refine ⟨rfl, ?_, _, rfl, rfl, rfl, rfl, fun i l hl inSub => ?_⟩
  · refine lanesTo_mono (mapLanes_lanes g x.lanes _) fun i l l' becomes => ?_
    subst becomes
    split
    · exact ⟨rfl, rfl, rfl, rfl, rfl, rfl, rfl⟩
    · rfl
  · refine List.mem_filterMap.mpr ⟨(l, i), ?_, if_pos inSub⟩
    exact List.mem_zipIdx_iff_getElem?.mpr hl

theorem enterHandler_gid (g : Group) (k : Nat) (image : Vector DWord 64) (since : Nat) :
    (g.enterHandler k image since).gid = g.gid := by
  unfold Group.enterHandler
  split <;> rfl

/-! ### Groups by number -/

theorem group?_gid {s : State} {gid : Nat} {g : Group} (found : s.group? gid = some g) : g.gid = gid := by
  simpa using List.find?_some found

/-- The group of a number after a change that keeps numbers. -/
theorem group?_updGroup_some {s : State} {gid : Nat} {g : Group} {f : Group → Group} (found : s.group? gid = some g)
    (hf : ∀ g, (f g).gid = g.gid) : (s.updGroup gid f).group? gid = some (f g) := by
  rw [group?_updGroup s gid f hf, found]
  rfl

/-! ### TRAP_DELIVERY (R444) -/

theorem deliverSub_delivered {s : State} {g : Group} {k : Nat} {x : SubGroup} (found : s.group? g.gid = some g)
    (parked : g.parkedSubs[k]? = some x) : Delivered s (s.deliverSub g k x) g k x where
  host r toHost fetch := by
    simp only [State.deliverSub, toHost, if_true, State.requestPage, fetch]
    exact ⟨rfl, updGroup_othersKept .., group?_updGroup_some found fun _ => rfl⟩
  warning notHost warns masked := by
    have toNothing : codeOf x.cause = cScopeFallback ∧ g.masked = true := ⟨warns, masked⟩
    simp only [State.deliverSub, notHost, if_pos toNothing, Bool.false_eq_true, if_false]
    exact ⟨rfl, updGroup_othersKept .., _, group?_updGroup_some found fun h => unpark_gid h k, unpark_goesOn parked⟩
  masked notHost noWarning masked := by
    have noWarning : codeOf x.cause ≠ cScopeFallback := noWarning
    have masked : g.masked = true := masked
    simp only [State.deliverSub, notHost, noWarning, masked, Bool.false_eq_true, false_and, if_false, if_true]
  ends notHost unmasked noHandler := by
    have unmasked : g.masked = false := unmasked
    have noHandler : g.trapVec = 0 ∨ 2 ≤ g.frames.length := noHandler
    simp only [State.deliverSub, notHost, unmasked, Bool.false_eq_true, and_false, if_false, if_pos noHandler]
  enters notHost unmasked vector nested := by
    have unmasked : g.masked = false := unmasked
    have handler : ¬ (g.trapVec = 0 ∨ 2 ≤ g.frames.length) := not_or.mpr ⟨vector, Nat.not_le.mpr nested⟩
    simp only [State.deliverSub, notHost, unmasked, Bool.false_eq_true, and_false, if_false, if_neg handler]
    exact ⟨rfl, updGroup_othersKept .., _, group?_updGroup_some found fun h => enterHandler_gid h k _ _,
      enterHandler_entered _ _ parked⟩

theorem trapDelivery_holds (gid : Nat) (s : State) : TrapStepHolds (.trapDelivery gid) s := by
  rintro _ ⟨⟩
  refine ⟨_, rfl, fun absent => ?_, fun g found => ⟨fun stays => ?_, fun k x thawed resident next parked =>
    ⟨fun awaits => ?_, fun settled => ?_⟩⟩⟩
  · simp only [absent]
  · simp only [found]
    rcases stays with frozen | away | none
    · simp [frozen]
    · simp [away]
    · simp [none]
  · simp only [found, thawed, resident, next, parked, awaits, Bool.not_true, Bool.or_self, Bool.false_eq_true, if_false, if_true]
  · simp only [found, thawed, resident, next, parked, settled, Bool.not_true, Bool.or_self, Bool.false_eq_true, if_false]
    exact deliverSub_delivered (group?_gid found ▸ found) parked

/-! ### Answers of the host and of the debugger (R419, R448) -/

theorem answered_gid (g : Group) (k code : Nat) : (g.answered k code).gid = g.gid := by
  unfold Group.answered
  split
  · rfl
  · split
    · rfl
    · split
      · rfl
      · split
        · exact unpark_gid g k
        · rfl

theorem prgResponse_answered (s : State) (gid k code : Nat) : Answered s (s.prgResponse gid k code) gid k code := by
  refine ⟨rfl, updGroup_othersKept s gid fun g => g.answered k code, fun g x r found parked fetch sent => ?_⟩
  have becomes : (s.prgResponse gid k code).group? gid = some (g.answered k code) :=
    group?_updGroup_some found fun g => answered_gid g k code
  refine ⟨fun success => ⟨_, becomes, ?_⟩, fun failure => becomes.trans ?_⟩
  · have replays : g.answered k code = g.unpark k := by
      simp only [Group.answered, parked, fetch, sent, if_pos success, Bool.not_true, Bool.false_eq_true, if_false]
    exact replays ▸ unpark_goesOn parked
  · simp only [Group.answered, parked, fetch, sent, if_neg failure, Bool.not_true, Bool.false_eq_true, if_false]
    rfl

theorem prgResponse_holds (gid k code : Nat) (s : State) : TrapStepHolds (.prgResponse gid k code) s := by
  rintro _ ⟨⟩
  exact ⟨_, rfl, prgResponse_answered s gid k code⟩

theorem priTimeout_holds (gid k : Nat) (s : State) : TrapStepHolds (.priTimeout gid k) s := by
  rintro _ ⟨⟩
  exact ⟨_, rfl, prgResponse_answered s gid k 2⟩

theorem debuggerResume_holds (gid : Nat) (s : State) : TrapStepHolds (.debuggerResume gid) s := by
  rintro _ ⟨⟩
  refine ⟨_, rfl, rfl, updGroup_othersKept .., fun g found =>
    ⟨_, group?_updGroup_some found fun _ => rfl, rfl, List.length_map _, fun i l hl => ?_⟩⟩
  exact ⟨_, by rw [List.getElem?_map, hl]; rfl, rfl⟩

end Sys2Proof.Laws
end

section
/-! PROOFS. Admission and the trusted tables (R25, R48 to R50, R219 to R221, R250, R434): what an engine of the Stile begins, the
record in which an admission ends, and the entries that the trusted firmware writes. -/

namespace Sys2Proof.Laws

open Sys2Proof.Machine Sys2Proof.Claims

/-- The step of an event of the Stile or of the trusted firmware completes, with what the claims say of it. -/
def StileStepHolds (i : Instr) (s : State) : Prop :=
  ∀ e : State → Prop, stileEffect s i = some e → ∃ t, exec i s = .next t ∧ e t

/-! ### PENDING (R220) -/

theorem pendingBit_setPending {s : State} {pages : List Nat} {p : Nat} (listed : p ∈ pages ∨ pendingBit (s.seal p) = true) :
    pendingBit ((s.setPending pages).seal p) = true := by
  unfold State.setPending State.seal at *
  dsimp only
  generalize s.trusted.seals = seals at listed ⊢
  induction pages generalizing seals with
  | nil => simpa using listed
  | cons q pages ih =>
    refine ih _ ?_
    rw [alookup_aset]
    by_cases here : p = q
    · right
      rw [if_pos here]
      simp [pendingBit]
    · rw [if_neg here]
      simpa [here] using listed

/-! ### An engine begins an admission (R220, R221) -/

/-- An engine that begins an admission whose pages are PENDING. -/
theorem startAdmission_begun {s : State} (d : Nat) {a : Admission} (pending : ∀ p ∈ a.pages, pendingBit (s.seal p) = true) :
    Begun s (s.startAdmission d a) d a where
  engine := by
    rw [State.startAdmission, die_updDie, if_pos rfl]
    exact ⟨rfl, rfl⟩
  pending := pending

theorem startAdmission_rejected (s : State) (d : Nat) (r : BitVec 512) (rule : Nat) :
    Begun s (s.startAdmission d (rejected r rule)) d (rejected r rule) :=
  startAdmission_begun d fun _ none => absurd none List.not_mem_nil

/-- Marking pages PENDING leaves the engines as they were. -/
theorem startAdmission_setPending_begun (s : State) (d : Nat) {pages : List Nat} {a : Admission} (own : a.pages = pages) :
    Begun s ((s.setPending pages).startAdmission d a) d a := by
  obtain ⟨engine, pending⟩ := startAdmission_begun (s := s.setPending pages) d (a := a) fun p hp =>
    pendingBit_setPending (.inl (own ▸ hp))
  exact ⟨engine, pending⟩

/-- A kernel that passes, or whose digest has changed, keeps its code pages in its admission. -/
theorem passed_pages (s : State) (r : BitVec 512) (code : Run) (digest : BitVec 384) (g : Stile.Kern) (seen : Stile.Seen) :
    (s.passed r code digest g seen).pages = code.pages := by
  unfold State.passed
  dsimp only
  split <;> rfl

/-- The admission with which an engine records what the stages after the first have given. -/
def admitted (s : State) (r : BitVec 512) (code : Run) (digest : BitVec 384) :
    Except Stile.Fail (Stile.Kern × Stile.Seen) → Admission
  | .error f => rejection r code.pages f
  | .ok (g, seen) => s.passed r code digest g seen

theorem admitted_begun (s : State) (d : Nat) (r : BitVec 512) (code : Run) (digest : BitVec 384)
    (v : Except Stile.Fail (Stile.Kern × Stile.Seen)) :
    let t := (s.setPending code.pages).startAdmission d (admitted s r code digest v)
    (∀ f, v = .error f → Begun s t d (rejection r code.pages f)) ∧
      ∀ g seen, v = .ok (g, seen) → Begun s t d (s.passed r code digest g seen) := by
  refine ⟨?_, ?_⟩
  · rintro f rfl
    exact startAdmission_setPending_begun s d rfl
  · rintro g seen rfl
    exact startAdmission_setPending_begun s d (passed_pages s r code digest g seen)

/-- The end of the step of an engine that has read the header `h`, the block table of `n` bytes and the code: the stages of the
Stile, in their order. -/
noncomputable def concluded (s : State) (d : Nat) (r : BitVec 512) (far : FarLines) (h : BitVec 512) (n : Nat)
    (tab code : Run) : State :=
  match s.stage1 r h (Stile.rawEntries h (tab.read s.mem far)) code with
  | some rule => s.startAdmission d (rejected r rule)
  | none => (s.setPending code.pages).startAdmission d (admitted s r code (s.digest far code tab n)
      (Stile.judge h (tab.read s.mem far) (fun o => BitVec.ofNat 32 (code.read s.mem far o 4)) (rqCode r) (rqPriv r)
        (s.featVec (rqGuest r))))

theorem admitKernel_untrusted {s : State} {r : BitVec 512} (d : Nat) (far : FarLines) (denied : s.trusts r = false) :
    s.admitKernel d r far = s.startAdmission d (rejected r 14) := by
  unfold State.admitKernel
  exact if_pos (by rw [denied]; rfl)

theorem admitKernel_unreadable {s s₁ : State} {r : BitVec 512} (d : Nat) (far : FarLines) (trusted : s.trusts r = true)
    (fails : s.span (rqGuest r) (rqBtab r) 64 = (s₁, .fails)) :
    s.admitKernel d r far = s₁.startAdmission d (rejected r 14) := by
  simp only [State.admitKernel, trusted, fails, Bool.not_true, Bool.false_eq_true, if_false, rejected]

/-- A trusted request is concluded once everything that the Stile reads has come. -/
theorem admitKernel_concluded {s s₁ s₂ s₃ s₄ s₅ : State} {r h : BitVec 512} {far : FarLines} {head tab code : Run} {n : Nat}
    (d : Nat) (trusted : s.trusts r = true) (header : s.span (rqGuest r) (rqBtab r) 64 = (s₁, .value head))
    (headReady : s₁.linesReady (head.lines 64) = (s₂, true)) (headCame : head.came far 64 = true)
    (headBytes : BitVec.ofNat 512 (head.read s₂.mem far 0 64) = h) (length : 64 + 16 * bhNBlock h + bhPoolLen h = n)
    (table : s₂.span (rqGuest r) (rqBtab r) n = (s₃, .value tab))
    (text : s₃.span (rqGuest r) (rqCode r) (max 1 (bhCodeLen h)) = (s₄, .value code))
    (linesReady : s₄.linesReady (tab.lines n ++ if code.nodes.all (fun m => m == none) then code.allLines else []) = (s₅, true))
    (tabCame : tab.came far n = true) : s.admitKernel d r far = concluded s₅ d r far h n tab code := by
  simp only [State.admitKernel, trusted, header, headReady, headCame, headBytes, length, table, text, linesReady, tabCame,
    Bool.not_true, Bool.false_eq_true, if_false]
  rfl

theorem admitKernel_taken (s : State) (d : Nat) (r : BitVec 512) (far : FarLines) :
    Taken s (s.admitKernel d r far) d r far where
  untrusted denied := admitKernel_untrusted d far denied ▸ startAdmission_rejected s d r 14
  unreadable s₁ trusted fails := admitKernel_unreadable d far trusted fails ▸ startAdmission_rejected s₁ d r 14
  judged := by
    intro s₁ s₂ s₃ s₄ s₅ head tab code trusted header headReady headCame h n table text linesReady tabCame v
    rw [admitKernel_concluded d trusted header headReady headCame rfl rfl table text linesReady tabCame]
    refine ⟨fun rule breaks => ?_, fun keeps => ?_⟩
    · rw [concluded, breaks]
      exact startAdmission_rejected s₅ d r rule
    · rw [concluded, keeps]
      exact admitted_begun s₅ d r code (s₅.digest far code tab n) v

theorem admissionRequest_holds (c : AdmissionCall) (s : State) : StileStepHolds (.admissionRequest c) s := by
  obtain ⟨r, far⟩ := c
  rintro _ ⟨⟩
  have goes : ∀ (u : State) (d : Nat),
      let t := if (u.die d).stile = none ∧ (u.die d).stileQ.head? = some r then u.admitKernel d r far else u
      (¬ ((u.die d).stile = none ∧ (u.die d).stileQ.head? = some r) → t = u) ∧
        ((u.die d).stile = none → (u.die d).stileQ.head? = some r → Taken u t d r far) := fun u d =>
    ⟨fun waits => if_neg waits, fun idle first => by rw [if_pos ⟨idle, first⟩]; exact admitKernel_taken u d r far⟩
  refine ⟨_, rfl, fun d queued => ?_, fun s₁ d absent die => ?_⟩
  · simp only [queued]
    exact goes s d
  · simp only [absent, die]
    exact goes _ d

/-! ### The result record (R250, R253) -/

/-- An access that may perform now has changed nothing. -/
theorem eq_of_homeReady {s t : State} {line : Nat} {n : Need} (ready : s.homeReady line n = (t, true)) : t = s := by
  unfold State.homeReady at ready
  split at ready
  · split at ready
    · simp at ready
    · exact (Prod.mk.inj ready).1.symm
  · split at ready
    · simp at ready
    · split at ready
      · simp at ready
      · exact (Prod.mk.inj ready).1.symm

theorem writeHome_trusted (s : State) (line : Nat) (mask : BitVec 128) (d : LineData) :
    (s.writeHome line mask d).trusted = s.trusted := by
  unfold State.writeHome
  dsimp only
  split
  · rfl
  · split
    · refine (foldl_keeps State.trusted ?_).trans ?_
      · exact fun _ _ => rfl
      · split <;> rfl
    · split <;> rfl

theorem devWrite_trusted {s t : State} {pa n : Nat} {x : BitVec w} (written : s.devWrite pa n x = (t, true)) :
    t.trusted = s.trusted := by
  unfold State.devWrite at written
  dsimp only at written
  split at written
  · obtain ⟨rfl, -⟩ := Prod.mk.inj written
    rfl
  · split at written
    next => simp at written
    next u ready =>
      obtain ⟨rfl, -⟩ := Prod.mk.inj written
      rw [writeHome_trusted, eq_of_homeReady ready]

theorem sealKernelPages_entry (s : State) (a : Admission) :
    alookup (s.sealKernelPages a).trusted.kernels (rqKernel a.request % 65536) 0 = a.entry := by
  rw [State.sealKernelPages, alookup_aset, if_pos rfl]

theorem admissionResult_holds (die : Nat) (s : State) : StileStepHolds (.admissionResult die) s := by
  rintro _ ⟨⟩
  refine ⟨_, rfl, fun idle => ?_, fun a busy => ⟨fun bad => ?_, fun u₁ good written => ?_⟩⟩
  · simp only [idle]
  · simp only [busy, bad, Bool.false_eq_true, if_false]
  · simp only [busy, good, written, if_true]
    refine ⟨trivial, fun pass => ?_⟩
    rw [if_pos pass] at written
    exact (congrArg (fun x => alookup x.kernels (rqKernel a.request % 65536) 0) (devWrite_trusted written)).trans
      (sealKernelPages_entry s a)

/-! ### The trusted firmware (R21, R23, R25, R50) -/

theorem kernelUsed_eq_false_iff (s : State) (kernel : Nat) :
    s.kernelUsed kernel = false ↔ ∀ l ∈ s.sched.launches, l.kernel ≠ kernel := by
  simp [State.kernelUsed]

theorem sealClear_holds (ppn : Nat) (s : State) : StileStepHolds (.sealClear ppn) s := by
  rintro _ ⟨⟩
  refine ⟨_, rfl, ?_⟩
  simp only [Bool.and_eq_true, Bool.not_eq_true', kernelUsed_eq_false_iff]
  split <;> rfl

/-- The generation of an entry as the firmware writes it (R21). -/
def reissuedGen (old new : Cap) : BitVec 32 := if capValid new then fld old 192 32 + 1 else fld old 192 32

/-- The generation stands in bits 223:192, and every other bit is the new entry's. -/
theorem getLsbD_capReissued (old new : Cap) {i : Nat} (inside : i < 256) : (capReissued old new).getLsbD i =
    if 192 ≤ i ∧ i < 224 then (reissuedGen old new).getLsbD (i - 192) else new.getLsbD i := by
  have forms : capReissued old new =
      (new &&& ~~~((BitVec.allOnes 32).setWidth 256 <<< 192)) ||| ((reissuedGen old new).setWidth 256 <<< 192) := rfl
  rw [forms]
  generalize reissuedGen old new = gen
  simp only [BitVec.getLsbD_or, BitVec.getLsbD_and, BitVec.getLsbD_not, BitVec.getLsbD_shiftLeft, BitVec.getLsbD_setWidth,
    BitVec.getLsbD_allOnes, inside]
  by_cases below : i < 192
  · simp [below, show ¬ 192 ≤ i by omega]
  · by_cases above : i < 224
    · simp [below, above, show i - 192 < 32 by omega, show i - 192 < 256 by omega, show 192 ≤ i by omega]
    · simp [below, above, show ¬ i - 192 < 32 by omega, BitVec.getLsbD_of_ge gen (i - 192) (by omega)]

theorem fld_capReissued_gen (old new : Cap) : (fld (capReissued old new) 192 32 : BitVec 32) = reissuedGen old new := by
  refine BitVec.eq_of_getLsbD_eq fun i hi => ?_
  rw [BitVec.getLsbD_extractLsb', getLsbD_capReissued old new (by omega), if_pos (by omega), Nat.add_sub_cancel_left]
  simp [hi]

/-- A field beside the generation is the new entry's. -/
theorem fld_capReissued_rest (old new : Cap) {lo len : Nat} (inside : lo + len ≤ 256) (beside : lo + len ≤ 192 ∨ 224 ≤ lo) :
    (fld (capReissued old new) lo len : BitVec len) = fld new lo len := by
  refine BitVec.eq_of_getLsbD_eq fun i hi => ?_
  rw [BitVec.getLsbD_extractLsb', getLsbD_capReissued old new (by omega), if_neg (by omega), BitVec.getLsbD_extractLsb']

/-- The module with an entry of the capability table as the firmware writes it. -/
def reissued (s : State) (idx : Nat) (entry : Cap) : State :=
  { s with trusted := { s.trusted with caps := aset s.trusted.caps idx (capReissued (s.cap idx) entry) } }

theorem reissued_cap (s : State) (idx : Nat) (entry : Cap) : (reissued s idx entry).cap idx = capReissued (s.cap idx) entry := by
  rw [reissued, State.cap, alookup_aset, if_pos rfl]

theorem execCapabilityRevoke_eq (idx : Nat) (entry : Cap) (s : State) : execCapabilityRevoke idx entry s = .next (
    if ∃ l ∈ s.sched.launches, idx ∈ l.caps then s.send (.busy idx)
    else if idx < 1048576 ∧ ∀ e ∈ s.trusted.caps, e.1 ≠ idx → capApart e.2 entry = true then reissued s idx entry
    else s) := by
  have named : (s.sched.launches.any fun l => l.caps.contains idx) = true ↔ ∃ l ∈ s.sched.launches, idx ∈ l.caps := by simp
  have apart : (s.trusted.caps.all fun e => e.1 == idx || capApart e.2 entry) = true ↔
      ∀ e ∈ s.trusted.caps, e.1 ≠ idx → capApart e.2 entry = true := by
    simp [or_iff_not_imp_left]
  simp only [execCapabilityRevoke, named, apart, Nat.reducePow]
  rfl

theorem capabilityRevoke_holds (idx : Nat) (entry : BitVec 256) (s : State) : StileStepHolds (.capabilityRevoke idx entry) s := by
  rintro _ ⟨⟩
  refine ⟨_, execCapabilityRevoke_eq idx entry s, ?_⟩
  dsimp only
  by_cases busy : ∃ l ∈ s.sched.launches, idx ∈ l.caps
  · simp only [if_pos busy]
    rfl
  · by_cases issued : idx < 1048576 ∧ ∀ e ∈ s.trusted.caps, e.1 ≠ idx → capApart e.2 entry = true
    · simp only [if_neg busy, if_pos issued, reissued_cap]
      exact ⟨rfl, rfl, fld_capReissued_gen .., fld_capReissued_rest _ _ (by decide) (by decide),
        fld_capReissued_rest _ _ (by decide) (by decide)⟩
    · simp only [if_neg busy, if_neg issued]

/-! ### The statement -/

/-- Settles O50: each event of trap delivery, of the Stile and of the trusted firmware has its lemma above; `trapEffect` and
`stileEffect` say nothing of any other. -/
theorem trapAndStileStepsHold : Obligations.TrapAndStileStepsHold := by
  unfold Obligations.TrapAndStileStepsHold
  constructor
  case left =>
    intro i s e h
    unfold trapEffect at h
    split at h
    next gid => exact trapDelivery_holds gid s e h
    next gid k code => exact prgResponse_holds gid k code s e h
    next gid k => exact priTimeout_holds gid k s e h
    next gid => exact debuggerResume_holds gid s e h
    next => exact absurd h (Option.some_ne_none e).symm
  case right =>
    intro i s e h
    unfold stileEffect at h
    split at h
    next r far => exact admissionRequest_holds ⟨r, far⟩ s e h
    next die => exact admissionResult_holds die s e h
    next ppn => exact sealClear_holds ppn s e h
    next idx entry => exact capabilityRevoke_holds idx entry s e h
    next => exact absurd h (Option.some_ne_none e).symm

end Sys2Proof.Laws
end
